-- ==== Sys2Proof/Word.lean ====
section
/-! DEFINITION. The word types of the model. -/

namespace Sys2Proof

/-- One byte. -/
abbrev Byte := BitVec 8

/-- A register of a register page (R46: 32 bits). -/
abbrev Word := BitVec 32

end Sys2Proof
end

