-- ==== Sys2Proof/Syntax.lean ====
section
/-! DEFINITION. The commands of the block: one constructor of `Instr` per row of the opcode table, with the operands the
rules of spec/ give the command (what the environment decides: the access, the packet, the frame, the measured fact). -/

namespace Sys2Proof

/-! ## Operand types -/

/-- Clock islands of R36 that may be stopped (R38). The always-on island never is. -/
inductive Island where
  | tile (i : Fin 512) | landing (w : Fin 8) | gddr (w : Fin 8) (d : Fin 3) | ucie (w : Fin 8) (m : Fin 2)
  | hall | router | lane (port : Fin 6) (n : Fin 24) | cxl (p : Fin 4) | host | coreA | coreB | keep
  deriving DecidableEq, Repr

/-- What one read of a tile's memories finds (R85, R86). -/
inductive TileErr where
  | clean
  | sramCE                                   -- a single-bit error, corrected
  | sramUE (bank : Fin 24) (word : Fin 2048) -- an uncorrectable word
  | accParity (entry : Fin 1024)             -- an accumulator entry with wrong parity
  deriving DecidableEq, Repr

/-- The tile whose output block is done, and what its reads at the hand-off find (R62, R85, R86). -/
structure TileDone where
  tile : Fin 512
  err : TileErr
  deriving DecidableEq, Repr

/-- What a GDDR7 line decodes to (R134, R135). -/
inductive LineErr where
  | clean
  | onePin (channel : Fin 4) (pin : Fin 9) (onDie : Bool) -- one symbol in error; pin 0-7 data, 8 check
  | onDie                                                  -- clean after the device's own correction
  | uncorrectable
  deriving DecidableEq, Repr

/-- One request that reaches the Hall (R29). -/
structure HallReq where
  src : Fin 17
  dst : Fin 17
  tag : Nat
  deriving DecidableEq, Repr

/-- An aligned 32-bit access of a register page (R46), by its master and address. -/
structure PageAccess where
  master : Byte
  addr : BitVec 40
  write : Bool
  value : Word
  deriving DecidableEq, Repr

/-- A write of a WLOCK and the other accesses of the page that arrive in its cycle (R51). -/
structure LockWrite where
  value : Word
  same : List PageAccess := []
  deriving DecidableEq, Repr

/-- What the check of a word of a protected store finds. -/
inductive WordErr where
  | clean | corrected | uncorrectable
  deriving DecidableEq, Repr

/-- A read of the next word of a mailbox's current message, and what the check of that word finds (R402). -/
structure MbxWord where
  m : Fin 64
  err : WordErr := .clean
  deriving DecidableEq, Repr

/-- The parts that may raise an array handshake error (R131). -/
inductive HandshakePart where
  | landing | tile (i : Fin 512) | collective
  deriving DecidableEq, Repr

/-- What a memory access carries (R142), whether its reader is the array, or its writer the unseal engine (R432), and the Hall port it
comes from (R28; any port below 8 for the array). -/
structure MemUser where
  tenant : Nat
  system : Bool
  keyed : Bool
  port : Nat
  deriving DecidableEq, Repr

/-- What a Cellar access finds (R143, R147, R151). -/
inductive CelErr where
  | clean
  | poison    -- a poisoned response
  | ide       -- a failed IDE check
  | ptUE      -- the page entry reads back uncorrectable
  | ptCE      -- the page entry reads back with one bit in error, which is corrected
  deriving DecidableEq, Repr

/-! ## Packets and frames -/

/-- A packet (R208): the header's fields as numbers, and the payload. LENGTH is the payload's length and HCHK is computed
from the fields where it is needed. -/
structure Packet where
  ptype : Nat
  cls : Nat
  epoch : Bool
  phase : Bool
  dateline : Bool
  dest : Nat
  via : Nat
  src : Nat
  tenant : Nat
  system : Bool
  window : Nat
  channel : Nat
  offset : Nat
  opid : Nat
  seq : Nat
  payload : List Byte
  deriving DecidableEq, Repr

/-- How the training of a Cellar port ends (R146, R502): at the full width and rate, at a lower one, or not at all. -/
inductive CelTrained where
  | full
  | reduced
  | failed
  deriving DecidableEq, Repr

/-- The port whose sweep reads a unit, and what the read finds (R143, R155). -/
structure SweepRead where
  port : Fin 4
  err : CelErr
  deriving DecidableEq, Repr

/-- A link frame as its receiver finds it (R173, R174, R178): the symbols of its codeword that arrived in error; the header word; the
bytes 8-279, payload and tag as they stand on the link; the CRC-32C that came with them; the key generation under which the tag
verifies (none: under no key); and the payload that decryption gives (in a frame sent in clear, the payload itself). -/
structure RxFrame where
  errs : List (Fin 236)
  header : BitVec 64
  body : List Byte
  crc : BitVec 32
  gen : Option Nat
  payload : List Byte
  deriving DecidableEq, Repr

/-- The fields of a CTRL frame's payload (R191). -/
structure CtrlFields where
  ack : Nat
  nak : Bool
  rot : Bool
  rotack : Bool
  credits : List Nat
  gen : Nat
  nonce : Nat
  deriving DecidableEq, Repr

/-- An introduction (R183). -/
structure Intro where
  serial : Nat
  maValid : Bool
  ma : Nat
  port : Nat
  proto : Nat
  digest : Nat
  cap : Nat
  lanes : Nat
  attempt : Nat
  deriving DecidableEq, Repr

/-- A message of the keying exchange as its receiver finds it (R186): the KEYX frames that carried its fragments, in order; its
body, which the transcript takes; whether chain and signature (or tag) verify; and the shared secret that the receiver's own
encapsulation or decapsulation gives. -/
structure KeyMsg where
  frames : List RxFrame
  body : List Byte
  valid : Bool
  secret : Nat
  deriving DecidableEq, Repr


/-! ## Messages (R320, R366) -/

/-- Where a Tosto message came from, and so where its reply goes: an open host session by its slot; a host address
without a session (SESSION 0); the fabric, routed, by the sender's MA; or the fabric by relay, with ORIGIN when it is
valid, the path that leads back, and the relay's TAG. -/
inductive MsgSrc where
  | host (slot : Fin 16)
  | client (addr : Nat)
  | fabric (ma : Nat)
  | relay (origin : Option Nat) (path : List Nat) (tag : Nat)
  deriving DecidableEq, Repr

/-- A Tosto message (R366) as the agent finds it, its tag already checked: the header's fields and the body. -/
structure TMsg where
  src : MsgSrc
  family : Nat
  code : Nat
  reply : Bool
  seq : Nat
  rtag : Nat
  status : Nat
  body : List Byte
  deriving DecidableEq, Repr

/-! ## The host port -/

/-- What an Ethernet frame carries that the port's filter tells apart (R365). -/
inductive EthKind where
  | arp (forUs : Bool)
  | neighbour (forUs : Bool)               -- IPv6 neighbour solicitation
  | echo (v6 forUs : Bool)                 -- ICMP or ICMPv6 echo request
  | tosto (port : Nat) (m : TMsg) (session seq : Nat) (tagOk fieldsOk : Bool)   -- a Tosto message over UDP to a port
  | roce                                   -- UDP port 4791
  | ptp                                    -- UDP 319 or 320, or EtherType 0x88F7
  | eapol                                  -- 0x888E
  | knock                                  -- 0x88B5
  | pfc (priority : Fin 8) (quanta : Nat)  -- IEEE 802.1Qbb flow control of one priority
  | otherType                              -- another EtherType
  | otherUdp (port : Nat)                  -- another UDP port, or IP traffic that is not UDP, ICMP or ND (port 0)
  deriving DecidableEq, Repr

/-- What protects a MACsec frame (0x88E5): whether its ICV is right under the SA of the association number it names, and its packet
number. -/
structure Secured where
  ok : Bool
  an : Fin 4
  pn : Nat
  deriving DecidableEq, Repr

/-- A frame on the host port: its length, its VLAN tag, and its MACsec protection. -/
structure EthFrame where
  bytes : Nat
  vlan : Option Nat
  secured : Option Secured
  kind : EthKind
  deriving DecidableEq, Repr

/-- A step of MACsec key agreement as Strongroom takes it from an MKA frame (R376). -/
inductive MkaStep where
  | invalid                                  -- the frame fails its check under the CAK
  | peer                                     -- a live peer list forms
  | sak (an : Fin 4)                         -- the key server distributes a SAK for an association number
  | transmit                                 -- the transmit SA is installed after it
  deriving DecidableEq, Repr

/-- A request of the RoCEv2 responder as the port finds it (R379-R381): its QP, whether the ICRC is right, whether its
opcode is supported, its PSN, and whether it carries a CE mark. -/
structure RoceReq where
  qpn : Nat
  icrc : Bool
  supported : Bool
  psn : Nat
  ce : Bool
  deriving DecidableEq, Repr

/-- A Knock frame (R384): its fields, whether its tag is right under the loaded knock key, and whether its reserved bytes are
0. `soon` says that it arrived within 10 us of the last frame taken. -/
structure Knock where
  soon : Bool
  version : Nat
  command : Nat
  reservedZero : Bool
  serial : Nat
  counter : Nat
  arg : Nat
  tagOk : Bool
  sender : Nat
  deriving DecidableEq, Repr

/-- What a Strongroom LOCK call asks for (R300): WLOCK bits of a block, or a policy entry. -/
inductive LockWhat where
  | wlock (block : BitVec 12) (value : BitVec 32)
  | policy (entry : Nat) (value : BitVec 64)
  deriving DecidableEq, Repr

/-- The header of a PTP message as the block finds it (R382): the sender's clock identity, its domain, and the transport it
came over. -/
structure PtpHdr where
  clock : Nat
  domain : Nat
  transport : Nat
  deriving DecidableEq, Repr

/-- What a tile self-test finds for a tile that does not pass at its shipped grade: the grade it passes at, or none (R504). -/
abbrev TileFind := Fin 512 × Option (Fin 4)

/-- The fuses that MAKER reads by JTAG (R437): the serial, the MAC address, the life cycle with its generation, an owner slot, the
seed, the seed-kill fuse, and a tile of the shipped floor plan. -/
inductive Fuse where
  | serial | mac | lifeCycle | owner (slot : Fin 4) | seed | seedKill | shipped (tile : Fin 512)
  deriving DecidableEq, Repr

/-- The JTAG instructions of R437; `core` is an operation on a core as CORE gives it (R438), and `fuse` reads a fuse. -/
inductive JtagInstr where
  | bypass | idcode | samplePreload | extest | clamp | highz
  | core (c : Fin 3) (op : Fin 5) (reg : BitVec 16) (value : BitVec 64)
  | fuse (f : Fuse)
  deriving DecidableEq, Repr

/-- What a Strongroom call of code 0x06 asks for (R300): a tenant's session key accepted or released, or a weight key. -/
inductive KeyCall where
  | session (tenant : Nat) (key : Option Nat)
  | weight (tenant : Nat) (system single : Bool) (id digest : Nat) (key : Option Nat)
  deriving DecidableEq, Repr

/-- The commands of spec/opcode_table.json, in its order. -/
inductive Instr where
  /-- HALL_REQUEST (R29): A request from a source port reaches the Hall and is arbitrated to its destination port, or answered WING_RESET when the wing port is ABSORB or OFF. -/
  | hallRequest (reqs : List HallReq)
  /-- HALL_RESPONSE (R31): A response passes through the Hall to its requester; a response that arrives after its request timed out is discarded. -/
  | hallResponse (src dst : Fin 17) (tag status : Nat)
  /-- HALL_TIMEOUT (R31): HALL_TIMEOUT expires for an accepted request, which completes with TIMEOUT, raises a Tocsin event and is counted. -/
  | hallTimeout (src dst : Fin 17) (tag : Nat)
  /-- UCIE_LOST (R27): A UCIe module cannot be repaired; the Hall stops using it and the wing continues on the other module. -/
  | ucieLost (w : Fin 8) (m : Fin 2)
  /-- WING_LOST (R27): Both UCIe modules of a wing fail; the wing port goes to ABSORB and the wing is treated as a wing in reset. -/
  | wingLost (w : Fin 8)
  /-- ISLAND_STOP (R38): A clock island stops; its crossings hold their state and the far sides wait. -/
  | islandStop (isl : Island)
  /-- ISLAND_RESTART (R38): A stopped clock island restarts and its pending crossings complete. -/
  | islandRestart (isl : Island)
  /-- REGISTER_WRITE (R56): A management write to a register with no behaviour of its own passes the access checks and sets the value, or is refused with a status. -/
  | registerWrite (master : Byte) (addr : BitVec 40) (width : Nat) (value : BitVec 64)
  /-- ERR_FORCE (R48): A write of ERR_FORCE raises one event of each named control or protocol source. -/
  | errForce (master : Byte) (block : BitVec 12) (value : Word)
  /-- ERR_INVCHK (R48): A write of ERR_INVCHK arms an inverted check on the next word checked by the named data checker. -/
  | errInvchk (master : Byte) (block : BitVec 12) (value : Word)
  /-- WLOCK (R50): A write of WLOCK from the Keep core sets HEADER or BODY lock bits; from any other master it is refused with ACCESS_DENIED. -/
  | wlock (master : Byte) (block : BitVec 12) (value : LockWrite)
  /-- POLICY_ENTRY_WRITE (R55): A write of an access-policy entry in slot 6 updates the entry, or is refused with OUT_OF_RANGE when it would leave a valid entry with an inverted range. -/
  | policyEntryWrite (master : Byte) (entry : Byte) (high : Bool) (value : Word)
  /-- ACCESS_TIMEOUT (R56): MOD_ACCESS_TIMEOUT expires before the page answers, and the access completes with TIMEOUT. -/
  | accessTimeout (master : Byte) (addr : BitVec 40)
  /-- PAGE_ANSWER_LATE (R56): A page answers an access that has already completed with TIMEOUT, and the answer is discarded. -/
  | pageAnswerLate (master : Byte) (addr : BitVec 40)
  /-- KBLOCK_DONE (R74): A tile finishes a K-block; each cell rounds its exact sum to a block value and adds it to its accumulator entry. -/
  | kblockDone (i : Fin 512) (err : TileErr)
  /-- TILE_BLOCK_DONE (R62): The last K-block of an output block is added and the accumulator bank hands its values to the epilogue unit. -/
  | tileBlockDone (i : TileDone)
  /-- OPERAND_TIMEOUT (R89): A tile that began a K-block waits on a port longer than CLU_OPERAND_TIMEOUT, raises OPERAND_TIMEOUT, and the operation fails with TIMEOUT. -/
  | operandTimeout (i : Fin 512)
  /-- TILE_CLEAR_DONE (R88): The clear of a tile's SRAM and accumulators after a reset finishes and the tile reads IDLE. -/
  | tileClearDone (i : Fin 512)
  /-- CLEAR_FAULT (R92): A reset's clear of a tile is not done within 8,192 tile cycles and CLEAR_FAULT is raised. -/
  | clearFault (i : Fin 512)
  /-- PLL_UNLOCK (R94): A cluster PLL loses lock; the cluster's tile clocks stop and PLL_UNLOCK is raised. -/
  | pllUnlock (c : Fin 64)
  /-- PARK (R91): A write of TIL_CTRL.PARK marks a tile to be treated as a hole from the next operation the sequencer starts. -/
  | park (master : Byte) (i : Fin 512) (value : Bool)
  /-- ARR_SUBMIT (R96): A write of ARR_SUBMIT reads a 128-byte descriptor into the queue, or completes with QUEUE_FULL, OUT_OF_RANGE or the Hall's status. -/
  | arrSubmit (master : Byte) (value : Word)
  /-- ARR_OP_START (R103): The sequencer starts the operation at the queue head: it checks the descriptor, fixes the holes, and begins its passes or ends it at once. -/
  | arrOpStart
  /-- ARR_WINDOW_ENTRY (R120): An array operation whose DEST is WINDOW obtains its operation-table entry after waiting, and issues its first operand read. -/
  | arrWindowEntry
  /-- PASS_DONE (R111): All blocks of a main, stacked or fill pass finish, and the next pass of the operation begins. -/
  | passDone
  /-- ARR_OUTPUT_ACK (R119): The destination acknowledges an output write of the executing operation. -/
  | arrOutputAck (n : Nat) (status : Byte)
  /-- ARR_OP_COMPLETE (R119): Every output write of an operation has been acknowledged and the operation completes. -/
  | arrOpComplete
  /-- ARR_CPL_TAIL (R99): A write of ARR_CPL_TAIL frees ring space, letting a held completion record be written and the next operation start. -/
  | arrCplTail (master : Byte) (value : Word)
  /-- CPL_WRITE (R131): A completion-record write fails; the record is lost and counted, and ARR_DONE_COUNT still advances. -/
  | cplWrite
  /-- ARR_FLUSH (R126): A write of 1 to ARR_CTRL.FLUSH fails the executing and every queued operation with ABORTED. -/
  | arrFlush (master : Byte) (hold : Bool)
  /-- ARR_HOLD (R126): A write of ARR_CTRL.HOLD stops or resumes the starting of operations. -/
  | arrHold (master : Byte) (hold : Bool)
  /-- ARR_TENANT_WRITE (R98): A write of ARR_TENANT sets the tenant of array accesses, or completes with OUT_OF_RANGE while the sequencer is busy. -/
  | arrTenantWrite (master : Byte) (value : Word)
  /-- ARR_STALL_TIMEOUT (R122): ARR_STALL_TIMEOUT passes with no K-block completed and no write acknowledged, and the operation fails with TIMEOUT. -/
  | arrStallTimeout
  /-- ARR_FAIL_DRAINED (R123): Every write of a failed operation has been acknowledged or has failed; the completion record is written and the next operation starts. -/
  | arrFailDrained
  /-- HANDSHAKE (R131): A landing, tile or collective-engine handshake arrives out of sequence and the executing operation fails with TIMEOUT. -/
  | handshake (part : HandshakePart)
  /-- GD_TRAIN_DONE (R133): A GDDR7 device finishes training and reads READY. -/
  | gdTrainDone (w : Fin 8) (dev : Fin 3)
  /-- GD_TRAIN_TIMEOUT (R133): A device has not trained within GD_TRAIN_TIMEOUT; it reads FAILED and TRAIN_FAIL is raised. -/
  | gdTrainTimeout (w : Fin 8) (dev : Fin 3)
  /-- GD_RETRAIN_PERIOD (R133): GD_RETRAIN_PERIOD elapses and the next device of the wing begins recalibration. -/
  | gdRetrainPeriod (w : Fin 8)
  /-- GD_RECAL_DONE (R133): A device's recalibration ends and the requests waiting for it proceed. -/
  | gdRecalDone (w : Fin 8) (dev : Fin 3)
  /-- GD_LINE_READ (R135): A controller reads a GDDR7 line, returning it clean or corrected with write-back, or failing the request with MEM_UE. -/
  | gdLineRead (addr : BitVec 48) (err : LineErr) (user : MemUser)
  /-- GD_LINE_WRITE (R144): A write of GDDR7 lines is done, partial lines by read, merge and write, after the region check of R142. -/
  | gdLineWrite (addr : BitVec 48) (bytes : List Byte) (user : MemUser)
  /-- GD_PATROL (R163): The patrol reads the next line of a device in the gaps of other traffic, correcting or recording it. -/
  | gdPatrol (w : Fin 8) (dev : Fin 3) (err : LineErr)
  /-- WNG_REGION_WRITE (R141): A write of a WNG region's BOUND or OWNER sets the region, or fails with OUT_OF_RANGE. -/
  | wngRegionWrite (master : Byte) (w : Fin 8) (n : Fin 16) (owner : Bool) (value : Word)
  /-- CELLAR_UNIT_ACCESS (R151): A copy reads or writes one 4 KiB Cellar unit, checked against its page entry and encrypted or decrypted under the chosen key slot. -/
  | cellarUnitAccess (n : Fin 8) (err : CelErr)
  /-- CXL_TIMEOUT (R147): A Cellar request exceeds CEL_CXL_TIMEOUT and completes with TIMEOUT; the third in a measure marks the port FAILED. -/
  | cxlTimeout (p : Fin 4) (eng : Option (Fin 8))
  /-- RETRAIN (R147): A write of CEL_CTRL.RETRAIN returns a FAILED Cellar port to training. -/
  | retrain (master : Byte) (mask : BitVec 4)
  /-- CEL_PORT_TRAINED (R146): A Cellar port finishes training and reads ACTIVE or ACTIVE_REDUCED. -/
  | celPortTrained (p : Fin 4) (how : CelTrained)
  /-- CEL_PAGE_GIVE (R150): A page-table write of VALID 1 gives a Cellar page to an owner at the owner's current epoch. -/
  | celPageGive (master : Byte) (p : Fin 4) (n : BitVec 20) (system : Bool) (tenant : Fin 512)
  /-- CEL_PAGE_RELEASE (R150): A page-table write of VALID 0 releases a page, sets SCRUBBING and starts a zero fill. -/
  | celPageRelease (master : Byte) (p : Fin 4) (n : BitVec 20)
  /-- CEL_RELEASE_FILL_DONE (R150): The expander acknowledges the last zero write of a released page and SCRUBBING clears. -/
  | celReleaseFillDone (p : Fin 4) (n : BitVec 20)
  /-- SWEEP_UNIT_READ (R155): The sweep engine has read a unit's ciphertext into its staging buffer and writes it to the journal page. -/
  | sweepUnitRead (p : SweepRead)
  /-- SWEEP_JOURNAL_ACK (R155): The journal write of a unit is acknowledged; the unit is re-encrypted under the current key and written back. -/
  | sweepJournalAck (p : Fin 4)
  /-- SWEEP_UNIT_DONE (R155): The re-keyed unit is acknowledged; the pointer advances, and after the last unit the page's EPOCH is set and SWEEP_COUNT decremented. -/
  | sweepUnitDone (p : Fin 4)
  /-- SLOT_RETIRE (R158): SWEEP_COUNT is 0 and no read that chose the previous slot remains; Strongroom zeroises the slot and clears ROTATING. -/
  | slotRetire (tenant : Option (Fin 512))
  /-- COPY_SUBMIT (R160): A write of CEL_CEn_SUBMIT reads a 64-byte copy descriptor into the engine's queue, or fails with QUEUE_FULL. -/
  | copySubmit (master : Byte) (n : Fin 8) (value : Word)
  /-- COPY_START (R161): A copy engine takes the next descriptor, checks it and begins moving data, or ends it with COPY_INVALID or OK. -/
  | copyStart (n : Fin 8)
  /-- COPY_COMPLETE (R162): Every write of a copy is acknowledged; the engine writes word 15, increments DONE and rings the doorbell when asked. -/
  | copyComplete (n : Fin 8)
  /-- COPY_FAIL_DONE (R162): After a copy fails, its issued requests have ended; the engine writes the status and goes on to the next descriptor. -/
  | copyFailDone (n : Fin 8)
  /-- COPY_FAULT (R162): The write of a copy's word 15 fails; COPY_FAULT is raised and DONE still advances. -/
  | copyFault (n : Fin 8)
  /-- CEL_CE_TENANT_WRITE (R160): A write of CEL_CEn_TENANT sets the engine's tenant, or fails with OUT_OF_RANGE while its queue is not empty. -/
  | celCeTenantWrite (master : Byte) (n : Fin 8) (value : Word)
  /-- LNK_RETRY_INTERVAL (R181): LNK_RETRY_INTERVAL passes for a DOWN port with ENABLE 1 and the port starts training at DETECT. -/
  | lnkRetryInterval (p : Fin 6)
  /-- DETECT_DONE (R182): DETECT ends: the two ends' rate words name a common lane rate, or the port goes DOWN with NO_SIGNAL. -/
  | detectDone (p : Fin 6) (signal : Bool) (rates : BitVec 2)
  /-- EQUALIZE_DONE (R181): EQUALIZE ends with the lanes that adapted, or the port goes DOWN when fewer than LNK_MIN_WIDTH adapted. -/
  | equalizeDone (p : Fin 6) (lanes : BitVec 24)
  /-- ALIGN_DONE (R181): ALIGN maps and deskews lanes, locks FEC, chooses the width and measures the delay, or the port goes DOWN with TOO_LONG. -/
  | alignDone (p : Fin 6) (delay : BitVec 16) (peer : BitVec 24)
  /-- INTRO_FRAME (R184): An introduction frame arrives during INTRO and is accepted, or ends the attempt when its fields changed. -/
  | introFrame (p : Fin 6) (f : RxFrame) (i : Intro)
  /-- INTRO_DONE (R183): Both introductions have been exchanged and echoed; the port enters KEYING, or MISWIRED with LOOPBACK when the serials are equal. -/
  | introDone (p : Fin 6)
  /-- KX1 (R186): The responder receives KX1, checks the initiator's chain and signature and answers KX2. -/
  | kx1 (p : Fin 6) (m : KeyMsg)
  /-- KX2 (R186): The initiator receives KX2, checks the responder's chain and signature, derives keys and sends KX3. -/
  | kx2 (p : Fin 6) (m : KeyMsg)
  /-- KX3 (R186): The responder receives KX3, checks its tag and derives the link keys, ending KEYING. -/
  | kx3 (p : Fin 6) (m : KeyMsg)
  /-- LNK_TRAIN_TIMEOUT (R181): LNK_TRAIN_TIMEOUT expires during training and the port goes DOWN with TRAIN_TIMEOUT. -/
  | lnkTrainTimeout (p : Fin 6)
  /-- DATA_FRAME (R192): A DATA frame is received and checked; it is accepted in order, discarded as duplicate, or discarded with a NAK. -/
  | dataFrame (p : Fin 6) (f : RxFrame)
  /-- CTRL_FRAME (R191): A CTRL frame is received and its cumulative ACK and per-VC credits are taken. -/
  | ctrlFrame (p : Fin 6) (f : RxFrame) (c : CtrlFields)
  /-- NAK (R192): A CTRL frame carrying NAK makes the transmitter replay its stored frames from ACK + 1. -/
  | nakFrame (p : Fin 6) (f : RxFrame) (c : CtrlFields)
  /-- ROT (R201): A CTRL frame carrying ROT makes the receiver derive generation g + 1 and answer ROTACK. -/
  | rot (p : Fin 6) (f : RxFrame) (c : CtrlFields)
  /-- ROTACK (R201): A CTRL frame carrying ROTACK lets the transmitter derive the new key and encrypt new frames under it. -/
  | rotack (p : Fin 6) (f : RxFrame) (c : CtrlFields)
  /-- NAK_REPEAT (R192): 200 ns pass with a NAK outstanding and frame E not accepted; the receiver sends the NAK again, possibly reaching REPLAY_LIMIT. -/
  | nakRepeat (p : Fin 6)
  /-- CTRL_FRAME_DUE (R176): 128 frame slots pass without a CTRL frame while DATA is ready and one is sent. -/
  | ctrlFrameDue (p : Fin 6)
  /-- LANE_BAD (R195): A lane in use exceeds LNK_LANE_LIMIT or loses alignment; the port enters HOLD and sends lane-change ordered sets. -/
  | laneBad (p : Fin 6) (lane : Fin 24)
  /-- LANE_CHANGE_SET (R195): Lane-change ordered sets with the peer's bad mask arrive; the port enters or continues HOLD and chooses the new lanes. -/
  | laneChangeSet (p : Fin 6) (mask : BitVec 24)
  /-- LANE_READY (R195): Lane-ready ordered sets are exchanged on the new lanes; each side replays from the peer's ACK and returns to its held state. -/
  | laneReady (p : Fin 6) (ack : BitVec 40)
  /-- HOLD_TIMEOUT (R197): A hold lasts longer than 2 µs and the port goes DOWN with HOLD_TIMEOUT. -/
  | holdTimeout (p : Fin 6)
  /-- LOCK_LOST (R197): More than half of the active lanes lose lock at once and the port goes DOWN with NO_SIGNAL. -/
  | lockLost (p : Fin 6)
  /-- WIDEN (R199): A write of LNK_CTRL.WIDEN powers the unused lanes and equalises them in the background. -/
  | widen (master : Byte) (p : Fin 6)
  /-- WIDEN_EQUALIZE_DONE (R199): Background equalisation of a widen ends; passing lanes become good and the port changes width once when it grows. -/
  | widenEqualizeDone (p : Fin 6) (lanes : BitVec 24)
  /-- ROTATE (R201): A write of LNK_CTRL.ROTATE starts a rotation of the transmit key. -/
  | rotate (master : Byte) (p : Fin 6)
  /-- KEY_COUNT_LIMIT (R201): A frame count under one key reaches 2^LNK_KEY_LIMIT and the transmitter starts a rotation. -/
  | keyCountLimit (p : Fin 6)
  /-- ROT_RESEND (R202): No ROTACK arrives within 10 µs and ROT is sent again with the same GEN and NONCE. -/
  | rotResend (p : Fin 6)
  /-- KEY_LIMIT (R202): A frame count under one key reaches 2^39; DATA stops and the port goes DOWN with KEY_LIMIT. -/
  | keyLimit (p : Fin 6)
  /-- SILENCE (R203): No good frame arrives for LNK_SILENCE_TIMEOUT and the port goes DOWN with SILENCE. -/
  | silence (p : Fin 6)
  /-- ADMIT (R188): A write of 1 to LNK_ADMIT moves a HELD or MISWIRED port to UP. -/
  | admitPort (master : Byte) (p : Fin 6)
  /-- MARK_MISWIRED (R188): A write of 2 to LNK_ADMIT moves a HELD port to MISWIRED with reason PLAN. -/
  | markMiswired (master : Byte) (p : Fin 6)
  /-- LINK_RETRAIN (R203): A write of LNK_CTRL.RETRAIN takes the port DOWN and trains it at once. -/
  | linkRetrain (master : Byte) (p : Fin 6)
  /-- ENABLE (R203): A write of LNK_CTRL.ENABLE holds the port DOWN with DISABLED, or lets it train. -/
  | enablePort (master : Byte) (p : Fin 6) (enable compat : Bool)
  /-- PACKET_INJECT (R228): An engine offers a packet; the source router checks class and length, fills its fields, chooses VIA and PHASE and queues it, or refuses it. -/
  | packetInject (o : Option Packet)
  /-- PACKET_ARRIVAL (R212): All frames of a packet are in a router's buffer and verified; it checks the header and epoch, looks up the route and forwards or delivers it. -/
  | packetArrival (o : Option (Fin 6 × Fin 16 × Packet))
  /-- WRITE (R216): A WRITE packet reaches its destination, is checked under R215 and its payload written to window memory. -/
  | writePkt (o : Option Packet)
  /-- READ_REQ (R216): A READ_REQ reaches its destination, is checked, and its bytes are read from window memory, or it is NACKed. -/
  | readReq (o : Option Packet)
  /-- READ_RESP (R216): A READ_RESP reaches the requester and is checked and written into its window. -/
  | readResp (o : Option Packet)
  /-- MCAST (R233): An MCAST packet is delivered to the local window under its checks and forwarded along its line. -/
  | mcastPkt (o : Option Packet)
  /-- ACK (R217): An ACK reaches the operation table; a positive one covers packets up to its SEQ and a NACK ends the operation with its status. -/
  | ackPkt (o : Option Packet)
  /-- MGMT (R223): A MGMT packet enters the agent's receive queue, or is discarded and counted when the queue is full. -/
  | mgmtPkt (o : Option Packet) (tag : Bool)
  /-- MBX_POST_PACKET (R398): An MBX_POST packet reaches a mailbox, is checked and enters the FIFO or is answered with a refusal. -/
  | mbxPostPacket (o : Option Packet)
  /-- PEAL (R330): A PEAL piece packet arrives; the module forwards it on its stage and takes it into its object if it belongs to the campaign. -/
  | pealPkt (o : Option Packet) (sig : Bool)
  /-- WRITE_STORED (R217): The Hall acknowledges the memory write of a WRITE packet, and the packet counts toward a positive ACK. -/
  | writeStored
  /-- READ_DATA_READY (R216): The memory read for a READ_REQ completes and the responder sends one READ_RESP in C3. -/
  | readDataReady
  /-- ACK_DELAY (R217): ACK_DELAY passes after the oldest unacknowledged packet of a pair, or ACK_EVERY packets are reached, and a positive ACK is sent. -/
  | ackDelay (src opid : Nat)
  /-- RTR_OP_TIMEOUT (R218): RTR_OP_TIMEOUT passes with no acknowledgement or response and the operation ends with TIMEOUT. -/
  | rtrOpTimeout (i : BitVec 12)
  /-- WINDOW_ENTRY_WRITE (R214): A write of bytes 12-15 of a window entry makes the staged bytes take effect, or refuses them with OUT_OF_RANGE. -/
  | windowEntryWrite (master : Byte) (w : BitVec 12) (wide : Bool) (value : BitVec 64)
  /-- RTR_RA_SUBMIT (R219): A write of RTR_RA_SUBMIT reads a remote-access descriptor into the queue, or is refused with QUEUE_FULL. -/
  | rtrRaSubmit (master : Byte) (value : Word)
  /-- RA_START (R220): The remote-access engine takes the next descriptor, checks it, and cuts it into packets or refuses it with RA_INVALID. -/
  | raStart
  /-- RA_ENTRY_TAKEN (R219): A waiting remote-access descriptor obtains an operation-table entry and begins sending. -/
  | raEntryTaken
  /-- RA_COMPLETE (R219): A remote-access operation ends; the engine writes word 15, increments RTR_RA_DONE and rings the doorbell when asked. -/
  | raComplete
  /-- ROUTE_ENTRY_WRITE (R234): A write of a route entry to a FREE bank sets it, or is refused with EPOCH_STALE or OUT_OF_RANGE. -/
  | routeEntryWrite (master : Byte) (bank : Fin 2) (m : BitVec 15) (value : Word)
  /-- RTB_SEAL (R235): A write of RTB_SEAL seals a FREE bank for an epoch, or is refused with EPOCH_STALE. -/
  | rtbSeal (master : Byte) (value : Word)
  /-- RTB_UNSEAL (R235): A write of RTB_UNSEAL returns a sealed, not PENDING bank to FREE, or is refused. -/
  | rtbUnseal (master : Byte) (value : Word)
  /-- RTB_FLIP (R235): A write of RTB_FLIP marks a sealed bank PENDING, or makes it LIVE at once when no bank is LIVE, or is refused. -/
  | rtbFlip (master : Byte) (value : Word)
  /-- DRAIN_TIMER (R237): A draining bank's drain timer expires; the bank becomes FREE and the agent reports the release. -/
  | drainTimer (b : Fin 2)
  /-- HOP_AGE (R242): A packet waits in one router longer than RTR_HOP_AGE and is discarded, with a NACK AGED for acknowledged types. -/
  | hopAge (p : Fin 6) (vc : Fin 16)
  /-- RTB_PARAM_WRITE (R250): A write of RTB_SALT or RTB_MAX_HOPS sets a FREE bank's value, or completes with EPOCH_STALE or OUT_OF_RANGE. -/
  | rtbParamWrite (master : Byte) (hops : Bool) (bank : Fin 2) (value : Word)
  /-- MEASURE_BOUNDARY (R531): A module's measure ends and the next begins, by period or as moved by SYNC_IN. -/
  | measureBoundary (util : List (BitVec 16)) (stall : List (BitVec 16))
  /-- COL_SUBMIT (R259): A write of COL_SUBMIT reads a collective descriptor into the queue, or completes with QUEUE_FULL. -/
  | colSubmit (master : Byte) (value : Word)
  /-- COL_HEAD_CHECK (R260): A descriptor at the queue head is checked for its group and fields, and ends with GROUP_INVALID or COL_INVALID or proceeds to launch. -/
  | colHeadCheck
  /-- COL_ENTRY_TAKEN (R262): A launching collective obtains an operation-table entry, after waiting if none was free. -/
  | colEntryTaken
  /-- COL_QUOTA_RESERVED (R262): A launching collective reserves its Pantry buffers, takes CSEQ, writes LAUNCHED and OPID, and sends its opening chunk. -/
  | colQuotaReserved
  /-- GROUP_ENTRY_WRITE (R257): A write of bytes 4-7 or a 64-bit write of a group entry checks the new values and sets VALID, or refuses them. -/
  | groupEntryWrite (master : Byte) (group : BitVec 12) (wide : Bool) (value : BitVec 64)
  /-- GRP_DISABLE (R257): A write of GRP_DISABLE clears a group's VALID, or is refused with GROUP_BUSY. -/
  | grpDisable (master : Byte) (value : Word)
  /-- MEMBER_POOL_WRITE (R258): A write of a member-pool entry sets it, or is refused with GROUP_BUSY when a valid group covers it. -/
  | memberPoolWrite (master : Byte) (i : BitVec 17) (value : Word)
  /-- OPEN (R278): An OPEN chunk from a control child is compared with the member's signature, and once all children have opened the member sends its own OPEN. -/
  | openChunk (o : Option Packet)
  /-- VERDICT (R280): A VERDICT arrives; GO lets combining and results proceed, MISMATCH ends the participation. -/
  | verdictChunk (o : Option Packet)
  /-- ABORT (R282): An ABORT for a participation arrives; the member forwards it and ends with its status. -/
  | abortChunk (o : Option Packet)
  /-- CREDIT (R276): A CREDIT arrives and lets the sender send the credited chunk, or answers an OPEN. -/
  | creditChunk (o : Option Packet)
  /-- DATA (R275): A DATA chunk packet arrives; when the chunk is complete its CRC is checked and it is combined in the tree. -/
  | dataChunk (o : Option Packet)
  /-- RESULT (R273): A RESULT chunk packet arrives, is checked under R215, and the completed chunk is written and sent on down the tree. -/
  | resultChunk (o : Option Packet)
  /-- COL_OPEN_RESEND (R279): COL_OPEN_RESEND passes without the parent's CREDIT and the member resends its OPEN. -/
  | colOpenResend (i : BitVec 12)
  /-- COL_INPUT_READ_DONE (R275): An input chunk has been read into the Pantry; its CRC is computed and it is sent when credited. -/
  | colInputReadDone (i : BitVec 12)
  /-- COL_RESULT_WRITE_ACK (R263): The wing acknowledges a result write of a participation. -/
  | colResultWriteAck (i : BitVec 12)
  /-- COL_JOIN_TIMEOUT (R281): COL_JOIN_TIMEOUT passes after launch without a VERDICT or all children's OPENs, and the participation aborts with TIMEOUT. -/
  | colJoinTimeout (i : BitVec 12)
  /-- COL_PROGRESS_TIMEOUT (R281): COL_PROGRESS_TIMEOUT passes with no progress on an awaited chunk and the participation aborts with TIMEOUT. -/
  | colProgressTimeout (i : BitVec 12)
  /-- COL_FLUSH (R292): A write of 1 to COL_CTRL.FLUSH ends every queued descriptor and aborts every active participation with ABORTED. -/
  | colFlush (master : Byte) (hold : Bool)
  /-- COL_HOLD (R292): A write of COL_CTRL.HOLD stops or resumes launches. -/
  | colHold (master : Byte) (hold : Bool)
  /-- COL_TENANT_WRITE (R292): A write of COL_TENANT sets the collective tenant, or completes with OUT_OF_RANGE while anything is queued or active. -/
  | colTenantWrite (master : Byte) (value : Word)
  /-- ARRAY_HANDOVER (R286): The array hands a converted block to a SOURCE ARRAY participation, which places it in its chunks or refuses it with COL_REFUSED. -/
  | arrayHandover
  /-- ABANDONMENT_NOTICE (R287): The sequencer's abandonment notice reaches the collective engine, which aborts the participation with the array's status. -/
  | abandonmentNotice
  /-- VERIFY_OBJECT (R329): A Strongroom call verifies a Peal manifest's signature. -/
  | verifyObject (core sig : Bool)
  /-- ACTIVATE_OBJECT (R333): A Strongroom call takes a VERIFIED object into use. -/
  | activateObject (core : Bool)
  /-- SIGN_CLAIM (R305): A Strongroom call forms a CLAIM tag, or declines when the module is not a candidate or the term is not higher. -/
  | signClaim (core : Bool) (rank : Nat) (term : Word)
  /-- CELLAR_KEY (R154): A Strongroom call loads or clears a tenant's Cellar key slots, starting a rotation when a key is replaced. -/
  | cellarKey (core : Bool) (tenant : Nat) (key : Option Nat)
  /-- ATTEST (R423): A Strongroom call signs an attestation report. -/
  | attest (core : Bool) (nonce : Nat) (signs : Bool)
  /-- KEY_DELIVERY (R300): A Strongroom call accepts or releases tenant or weight keys. -/
  | keyDelivery (core : Bool) (what : KeyCall)
  /-- LOCK (R300): A Strongroom call sets WLOCK bits or writes access-policy entries. -/
  | lockCall (core : Bool) (what : LockWhat)
  /-- CALL_TIMEOUT (R300): A Strongroom call is not answered within 100 ms and completes with TIMEOUT. -/
  | callTimeout (core : Bool)
  /-- IMAGE_FETCH_TIMEOUT (R301): A host-port image fetch attempt exceeds 30 s and is abandoned, and a record is written. -/
  | imageFetchTimeout
  /-- IMAGE_FETCH_RETRY (R301): 5 s after an attempt the ROM starts a new host-port image fetch attempt. -/
  | imageFetchRetry
  /-- IMAGE_GET_RESEND (R375): An IMAGE GET's DATA has not arrived within 10 ms and the GET is sent again. -/
  | imageGetResend (piece off : Nat)
  /-- IMAGE_DATA (R375): An IMAGE DATA answering an outstanding GET is accepted into the object being fetched. -/
  | imageData (kind piece off : Nat) (data : List Byte) (known sig : Bool)
  /-- PLAN_FETCH_RETRY (R303): 10 ms pass without plan DATA and the module asks again, going on without a plan after three attempts. -/
  | planFetchRetry
  /-- CLAIM (R306): A CLAIM arrives at an agent, which checks tag, term and candidacy and accepts it with CLAIM_ACK or discards it. -/
  | claim (o : Option TMsg) (tag : Bool)
  /-- CLAIM_ACK (R322): A CLAIM_ACK reaches the manager, which may then write that agent. -/
  | claimAck (o : Option TMsg)
  /-- TERM_NOTICE (R309): A TERM_NOTICE with a higher term reaches a manager, which stops writing and becomes CANDIDATE. -/
  | termNotice (o : Option TMsg)
  /-- CLAIM_STAGGER (R309): A candidate's rank × BEL_CLAIM_STAGGER wait ends; it claims and becomes ACTIVE unless another term is held. -/
  | claimStagger
  /-- STANDBY (R310): A STANDBY write appoints a candidate as standby manager. -/
  | standby (src : BitVec 15) (term : Word)
  /-- HEARTBEAT (R311): A HEARTBEAT from the peer manager or voter arrives and is noted. -/
  | heartbeat (o : Option TMsg)
  /-- HEARTBEAT_PERIOD (R312): A BEL_HB_PERIOD tick: the AGT sends a heartbeat while Parlour is alive and the standby counts a miss when none arrived. -/
  | heartbeatPeriod
  /-- HB_MISS (R312): The standby counts BEL_HB_MISS consecutive misses and sends PROBE. -/
  | hbMiss
  /-- PROBE (R312): A PROBE reaches the active manager, which answers PROBE_ACK with its FENCED state. -/
  | probe (o : Option TMsg)
  /-- PROBE_ACK (R312): A PROBE_ACK with the current term and FENCED 0 clears the standby's misses. -/
  | probeAck (o : Option TMsg)
  /-- PROBE_TIMEOUT (R312): BEL_PROBE_TIMEOUT passes without a good PROBE_ACK; the standby claims and becomes ACTIVE. -/
  | probeTimeout
  /-- FENCE (R313): BEL_FENCE_MISS periods pass without a newer standby ACK_SEQ; the manager becomes FENCED and withdraws unsent writes. -/
  | fence
  /-- BEL_ALIVE (R311): A write of BEL_ALIVE by the active core marks Parlour alive and ends a switch-over in progress. -/
  | belAlive (master : Byte) (value : Word)
  /-- VOTED_WRITE (R316): A trio-mode write from a voter is held, applied on a second vote, or discarded or refused by the vote table. -/
  | votedWrite (src : BitVec 15) (wseq : Word) (addr : BitVec 40) (width : Nat) (value : BitVec 64)
  /-- VOTE_WINDOW_END (R316): A vote entry's 1 ms window ends; an entry with one vote is discarded and VOTE_EXPIRED raised. -/
  | voteWindowEnd (i : Byte)
  /-- RELAY (R320): A relay packet arrives; the agent forwards it along its path within 0.2 µs or delivers the message. -/
  | relay (o : Option Packet) (tag : Bool)
  /-- DISCOVER (R322): A DISCOVER reaches an agent, which answers DISCOVER_REPLY. -/
  | discover (o : Option TMsg)
  /-- DISCOVER_REPLY (R323): A DISCOVER_REPLY reaches the manager, which places and classifies the module and writes its address and expectations. -/
  | discoverReply (o : Option TMsg)
  /-- READY_CHANGE (R324): A READY_CHANGE reaches the manager, which updates its readiness record. -/
  | readyChange (o : Option TMsg)
  /-- AGT_PORT_PLAN_WRITE (R324): A write of AGT_PORT_PLAN sets port expectations and moves the agent to READY, NOT_READY or EXCLUDED. -/
  | agtPortPlanWrite (master : Byte) (value : Word)
  /-- RTR_MA_WRITE (R324): A write of RTR_MA with VALID gives the module its address and moves the agent to ADDRESSED. -/
  | rtrMaWrite (master : Byte) (value : Word)
  /-- PEAL_PACE (R331): BEL_PEAL_PACE passes and the manager sends the next Peal piece or the END marker along its stages. -/
  | pealPace
  /-- PEAL_END (R332): The END marker of a campaign arrives and the module repairs any missing pieces. -/
  | pealEnd (o : Option Packet)
  /-- PEAL_NEED (R332): A PEAL_NEED reaches a line neighbour or the manager, which sends the pieces it holds and lists the rest in PEAL_NOT_HELD. -/
  | pealNeed (o : Option TMsg)
  /-- PEAL_NOT_HELD (R332): A PEAL_NOT_HELD arrives and the listed pieces are asked of the manager. -/
  | pealNotHeld (o : Option TMsg)
  /-- PEAL_IDLE_TIMEOUT (R332): AGT_PEAL_IDLE_TIMEOUT passes without a piece while pieces are missing, and repair begins. -/
  | pealIdleTimeout
  /-- PEAL_REPAIR_TIMEOUT (R332): AGT_PEAL_REPAIR_TIMEOUT passes with pieces still missing and they are asked of the manager again. -/
  | pealRepairTimeout
  /-- PEAL_CAMPAIGN_TIMEOUT (R332): The object is not VERIFIED within AGT_PEAL_CAMPAIGN_TIMEOUT; the campaign fails at the module and PEAL_FAILED is raised. -/
  | pealCampaignTimeout
  /-- PEAL_ACTIVATE (R333): A PEAL_ACTIVATE makes the module take a verified Parlour, plan or tables into use. -/
  | pealActivate (o : Option TMsg)
  /-- ROUTE_PREPARE (R344): A ROUTE_PREPARE reaches an agent, which fills the bank, applies exclusions, seals if asked and answers ROUTE_READY. -/
  | routePrepare (o : Option TMsg)
  /-- ROUTE_READY (R345): A ROUTE_READY reaches the manager, which sends FLIP once every module of the last fragment has answered OK. -/
  | routeReady (o : Option TMsg)
  /-- ROUTE_PREPARE_RESEND (R346): A module has not answered ROUTE_PREPARE within 300 µs and is sent it again. -/
  | routePrepareResend (m : BitVec 15)
  /-- ROUTE_PREPARE_LOST (R346): A module has not answered ROUTE_PREPARE at 1 ms and is treated as lost. -/
  | routePrepareLost (m : BitVec 15)
  /-- RTB_GEN (R343): A write of RTB_GEN fills the named FREE bank's sets and route entries, or is refused. -/
  | rtbGen (master : Byte) (value : Word)
  /-- GEN_FAULT (R363): A bank fill is not done within 6 µs; the write completes with TIMEOUT and the bank is left FREE. -/
  | genFault (master : Byte) (value : Word)
  /-- FAILURE_SETTLE (R355): 50 µs after a first failure report the manager reacts to the failure as one event. -/
  | failureSettle
  /-- POLICY_SET (R351): A POLICY_SET reaches an agent, whose Strongroom writes the policy entries and answers POLICY_DONE. -/
  | policySet (o : Option TMsg)
  /-- POLICY_DONE (R351): A POLICY_DONE reaches the manager with the status and entries written. -/
  | policyDone (o : Option TMsg)
  /-- CMAP_SUMMARY_DUE (R353): AGT_CMAP_PERIOD measures close and the agent sends a CMAP_SUMMARY to the manager. -/
  | cmapSummaryDue
  /-- CMAP_SUMMARY (R354): A CMAP_SUMMARY reaches the manager, which updates its fabric map and feed record. -/
  | cmapSummary (o : Option TMsg)
  /-- ETH_FRAME (R365): An Ethernet frame arrives on the host port and is filtered, answered in hardware or passed on, or dropped and counted. -/
  | ethFrame (f : EthFrame)
  /-- OPEN_SESSION (R369): A SESSION OPEN reserves a free slot for the principal and answers CHALLENGE, or SESSION_FULL. -/
  | openSession (o : Option TMsg) (nonce : Nat)
  /-- PROVE (R369): A SESSION PROVE with a correct proof opens the session with ACCEPT; a wrong one frees the slot with AUTH_FAIL. -/
  | prove (o : Option TMsg) (proofOk : Bool)
  /-- CLOSE (R369): A SESSION CLOSE closes the session. -/
  | closeSession (o : Option TMsg)
  /-- PROVE_TIMEOUT (R369): A reserved slot receives no PROVE within 1 s and is freed. -/
  | proveTimeout (slot : Fin 16)
  /-- SESSION_IDLE (R369): ETH_SESSION_IDLE passes without a valid request and the session closes. -/
  | sessionIdle (slot : Fin 16)
  /-- ETH_SLOT_WRITE (R368): A write of ETH_SLOTs sets the slot's principal and closes any session open in it. -/
  | ethSlotWrite (master : Byte) (slot : Fin 16) (value : Word)
  /-- REG_READ (R373): A Tosto REG READ makes each listed read and returns each entry's status and value. -/
  | regRead (o : Option TMsg)
  /-- REG_WRITE (R373): A Tosto REG WRITE applies its entries in order, stopping at the first that does not complete OK. -/
  | regWrite (o : Option TMsg)
  /-- POST (R373): A Tosto MBX POST posts a message into a mailbox and is answered OK or with the refusal. -/
  | mbxPost (o : Option TMsg)
  /-- STATUS_READ (R387): A Tosto STATUS READ returns the status block. -/
  | statusRead (o : Option TMsg)
  /-- PUT (R374): A Tosto PEAL PUT fills the manager's Peal buffer or manifest area. -/
  | pealPut (o : Option TMsg)
  /-- START (R374): A Tosto PEAL START verifies the object and starts a campaign. -/
  | pealStart (o : Option TMsg) (sig : Bool)
  /-- QUERY (R374): A Tosto PEAL QUERY returns the counts of modules verified, failed and waiting. -/
  | pealQuery (o : Option TMsg)
  /-- COMMIT (R374): A Tosto PEAL COMMIT sends PEAL_ACTIVATE for the campaign. -/
  | pealCommit (o : Option TMsg)
  /-- SLICE_BEGIN (R374): A Tosto SLICE_BEGIN opens a slice assembly for a tenant. -/
  | sliceBegin (o : Option TMsg)
  /-- SLICE_PART (R374): A Tosto SLICE_PART adds members or setup records to a slice assembly. -/
  | slicePart (o : Option TMsg)
  /-- SLICE_COMMIT (R350): A Tosto SLICE_COMMIT checks the slice and begins its setup, or refuses it. -/
  | sliceCommit (o : Option TMsg)
  /-- SLICE_QUERY (R349): A Tosto SLICE_QUERY returns a slice's state, last status and members. -/
  | sliceQuery (o : Option TMsg)
  /-- SLICE_RELEASE (R352): A Tosto SLICE_RELEASE starts the teardown of a slice at every member. -/
  | sliceRelease (o : Option TMsg)
  /-- DRAIN (R358): A Tosto DRAIN starts the transit drain of a module, or is refused with SLICE_BUSY. -/
  | transitDrain (o : Option TMsg)
  /-- DRAIN_QUERY (R358): A Tosto DRAIN_QUERY returns whether the module is DRAINING or DRAINED. -/
  | drainQuery (o : Option TMsg)
  /-- QP_CREATE (R380): A Tosto QP_CREATE binds a new RoCEv2 QP to a tenant, or fails with QUEUE_FULL. -/
  | qpCreate (o : Option TMsg)
  /-- QP_DESTROY (R380): A Tosto QP_DESTROY stops the QP at once. -/
  | qpDestroy (o : Option TMsg)
  /-- MKA_FRAME (R376): An MKA frame over EAPOL arrives and Strongroom runs key agreement, installing SAs when distributed. -/
  | mkaFrame (k : MkaStep)
  /-- SAK_PN_LIMIT (R376): A transmit PN reaches 2^60 and the module asks the key server for a new SAK. -/
  | sakPnLimit (an : Fin 4)
  /-- MKA_LOST (R377): The MKA life time expires without the peer and MKA_LOST is raised; under REQUIRED only EAPOL and Knock frames pass. -/
  | mkaLost
  /-- RDMA_WRITE (R381): A RoCEv2 RDMA WRITE is checked against its QP and window and stored, then ACKed or NAKed. -/
  | rdmaWrite (r : RoceReq) (rkey va : Nat) (data : List Byte)
  /-- RDMA_READ (R381): A RoCEv2 RDMA READ is checked and answered with READ responses or a NAK. -/
  | rdmaRead (r : RoceReq) (rkey va : Nat) (len : Nat) (outstanding : Nat)
  /-- SEND (R381): A RoCEv2 SEND is posted as a mailbox message, or NAKed or RNR-NAKed. -/
  | rdmaSend (r : RoceReq) (data : List Byte)
  /-- SYNC (R382): A PTP Sync arrives and the calendar clock is slewed or stepped toward the time transmitter. -/
  | ptpSync (h : PtpHdr) (twoStep : Bool) (origin receipt : Int)
  /-- FOLLOW_UP (R382): A PTP Follow_Up completes a two-step Sync. -/
  | followUp (h : PtpHdr) (origin : Int)
  /-- DELAY_RESP (R382): A PTP Delay_Resp completes the end-to-end delay measurement. -/
  | delayResp (h : PtpHdr) (sent receipt : Int)
  /-- ANNOUNCE (R382): A PTP Announce arrives and the time transmitter is selected. -/
  | announce (h : PtpHdr) (best : Bool)
  /-- ANNOUNCE_TIMEOUT (R383): Three Announce intervals pass without an Announce and PTP enters HOLDOVER. -/
  | announceTimeout
  /-- KNOCK_STATUS (R385): A Knock STATUS frame is checked and answered with the status block. -/
  | knockStatus (k : Knock)
  /-- REC_TAIL (R385): A Knock REC_TAIL is checked and answered with the newest circulating records. -/
  | recTail (k : Knock)
  /-- REC_FREEZE (R487): A Knock REC_FREEZE freezes or releases the recorder. -/
  | recFreeze (k : Knock)
  /-- SWITCH_CORE (R466): A Knock SWITCH_CORE triggers a Belfry core switch-over, or is answered SWITCH_REFUSED. -/
  | switchCore (k : Knock)
  /-- KNOCK_ERR_N (R460): A Knock ERR_N pulses or holds ERR_N, or releases a hold. -/
  | knockErrN (k : Knock)
  /-- KNOCK_RESET (R385): A Knock RESET is answered and schedules a reset of kind M 10 µs later. -/
  | knockReset (k : Knock)
  /-- KNOCK_POWER (R385): A Knock POWER writes PWR_TARGET and acts on it, or is answered PWR_BUSY. -/
  | knockPower (k : Knock)
  /-- MBX_TX_POST (R412): A write of MBX_TX_POST posts the composed message locally, waiting for FIFO space, or sends it remotely as an MBX_POST packet. -/
  | mbxTxPost (master : Byte) (value : Word)
  /-- MBX_RX (R401): A read of MBXm_RX pops the oldest message as the current message, completing a waiting local post, or returns VALID clear. -/
  | mbxRx (master : Byte) (m : Fin 64)
  /-- MBX_DATA (R402): A read of MBXm_DATA returns the next word of the current message and advances the cursor. -/
  | mbxData (master : Byte) (word : MbxWord)
  /-- MBX_LATCH (R404): A read of MBXm_LATCH claims a free latch or returns its holder, with the arbiter choosing among same-cycle readers. -/
  | mbxLatch (m : Fin 64) (readers : List Byte)
  /-- RELEASE (R406): A write of MBXm_CFG.RELEASE frees the latch, or completes with MBX_LATCHED. -/
  | latchRelease (master : Byte) (m : Fin 64)
  /-- RECEIVER_RESET (R409): A receiver reset discards the mailbox's messages, clears its doorbells and ENABLE, and releases its latch. -/
  | receiverReset (master : Byte) (m : Fin 64)
  /-- MBX_LATCH_TIMEOUT (R406): MBX_LATCH_TIMEOUT passes without access by the holder; the latch is released and LATCH_EXPIRED raised. -/
  | mbxLatchTimeout (m : Fin 64)
  /-- ATT_REQUEST (R423): An ATT REQUEST forms and signs a new report, or returns a part of a kept report or of the chain. -/
  | attRequest (o : Option TMsg) (signs : Bool)
  /-- EXTEND (R425): An ATT EXTEND extends M_PROG, or is answered NOT_BOUND. -/
  | attExtend (o : Option TMsg)
  /-- REPORT_EXPIRY (R423): A kept report reaches 60 s of age and is dropped. -/
  | reportExpiry
  /-- DELIVER (R426): A KEY DELIVER part is reassembled; the part completing a package runs the delivery checks and applies it. -/
  | keyDeliver (o : Option TMsg) (chain sig tag : Bool) (plain : List Byte)
  /-- DELIVERY_PART_TIMEOUT (R426): A package receives no part for 1 s and is discarded. -/
  | deliveryPartTimeout (i : Fin 4)
  /-- UNSEAL (R431): A KEY UNSEAL checks the key, ranges and binding and starts the unseal engine, or is refused. -/
  | unseal (o : Option TMsg) (htag : Bool)
  /-- UNSEAL_DONE (R431): The unseal engine finishes; on a match it records a weight range and extends M_WEIGHT, otherwise it ends with UNSEAL_FAIL. -/
  | unsealDone (tags : Bool) (plain : List Byte)
  /-- CHALLENGE (R438): A DEBUG CHALLENGE returns DBG_CHALLENGE. -/
  | debugChallenge (o : Option TMsg)
  /-- UNLOCK (R438): A DEBUG UNLOCK token is checked and enters a debug mode, or is refused; the challenge is redrawn. -/
  | debugUnlock (o : Option TMsg) (chain sig : Bool)
  /-- RELOCK (R439): A DEBUG RELOCK sets DBG_MODE OFF and resets halted cores. -/
  | debugRelock (o : Option TMsg)
  /-- DEBUG_ACCESS (R438): A DEBUG ACCESS executes register reads and writes as master 0x07. -/
  | debugAccess (o : Option TMsg)
  /-- CORE (R438): A DEBUG CORE halts, resumes, steps or accesses a register of a core, when the mode reaches it. -/
  | debugCore (o : Option TMsg)
  /-- LEASE_END (R439): DBG_LEASE_LEFT reaches 0 and the debug mode ends. -/
  | leaseEnd
  /-- DBG_UNLOCK (R438): In BLANK, a JTAG write of the DBG_UNLOCK register sets the debug mode with no token. -/
  | dbgUnlock (mode : Fin 4)
  /-- JTAG_INSTRUCTION (R437): A JTAG instruction is loaded and acts as the debug mode allows, EXTEST, CLAMP and HIGHZ acting as BYPASS outside FULL and MAKER. -/
  | jtagInstruction (i : JtagInstr)
  /-- TOCSIN_EVENT (R452): An event of a source reaches the collector, which counts it and moves its state, severity and reaction. -/
  | tocsinEvent (block : BitVec 12) (n : Fin 32)
  /-- RAIL (R449): A source's two rails read equal in three samples and the source enters RAIL. -/
  | railEqual (src : Fin 1024)
  /-- SEVERITY_WINDOW_END (R453): W passes since a source's severity window opened and the window closes. -/
  | severityWindowEnd (src : Fin 1024)
  /-- TOC_SRC_CFG_WRITE (R455): A write of a source's configuration byte sets REACT and SEV_REACT, or completes with OUT_OF_RANGE. -/
  | tocSrcCfgWrite (master i : Byte) (value : Word)
  /-- TOC_ERRN_RELEASE (R460): A write of TOC_ERRN.RELEASE ends every hold of ERR_N. -/
  | tocErrnRelease (master : Byte) (hold : Bool)
  /-- ERRN_PULSE_END (R460): An ERR_N pulse ends and the driver releases the pin unless a hold is in effect. -/
  | errnPulseEnd
  /-- TOC_RAILTEST (R462): A write of TOC_RAILTEST treats a source's rails as equal for 100 ns, driving it into RAIL. -/
  | tocRailtest (master : Byte) (value : Word)
  /-- FEED_LOST (R464): A feed becomes absent; its switch opens, the other feed carries the load and FEED_A_LOST or FEED_B_LOST is raised. -/
  | feedLost (b : Bool)
  /-- FEED_RETURN (R464): A returning feed qualifies for 100 ms; its switch closes and the feeds share again. -/
  | feedReturn (b : Bool)
  /-- ORING (R527): A switch passes more than 2 A of reverse current for 10 µs and ORING is raised. -/
  | oring (b : Bool)
  /-- GIVE_UP (R466): The active core writes BEL_SWITCH.GIVE_UP, halts itself and triggers a switch-over. -/
  | giveUp (master : Byte)
  /-- REQUEST (R466): The Keep core writes BEL_SWITCH.REQUEST, triggering a switch-over. -/
  | switchRequest (master : Byte)
  /-- BEL_WATCHDOG (R466): The active core has not written BEL_ALIVE for BEL_WATCHDOG, triggering a switch-over. -/
  | belWatchdog
  /-- BEL_HEALTH (R467): The standby core writes BEL_HEALTH at the end of a self-test cycle. -/
  | belHealth (master : Byte) (value : Word)
  /-- HEALTH_STALE (R478): BEL_HEALTH_AGE reaches BEL_HEALTH_LIMIT and the standby no longer counts as healthy. -/
  | healthStale
  /-- RECORD_SEALED (R482): The recorder finishes writing a record's slot; when the queue empties with losses pending it appends a LOST record. -/
  | recordSealed
  /-- REC_SW_APPEND (R485): A write of REC_SW_APPEND appends a software record, or completes with ACCESS_DENIED or QUEUE_FULL. -/
  | recSwAppend (master : Byte) (value : Word)
  /-- FREEZE (R487): A write of REC_CTRL.FREEZE freezes or releases the recorder. -/
  | recFreezeWrite (master : Byte) (on : Bool)
  /-- TOSTO_REC_FREEZE (R487): A Tosto REC FREEZE freezes or releases the recorder. -/
  | tostoRecFreeze (o : Option TMsg)
  /-- REC_FREEZE_LIMIT (R487): REC_FREEZE_LIMIT passes since a freeze took effect and the freeze ends. -/
  | recFreezeLimit
  /-- READ (R488): A Tosto REC READ returns records of an area from a slot upward. -/
  | recRead (o : Option TMsg)
  /-- TAIL (R488): A Tosto REC TAIL returns the newest sealed circulating records. -/
  | recTailRead (o : Option TMsg)
  /-- CLEAR (R489): A Tosto REC CLEAR queues the CLEAR record and starts zeroing seal words, or is refused. -/
  | recClear (o : Option TMsg)
  /-- REC_CLEAR_DONE (R489): The seal words are zeroed and the control region updated; the CLEAR record is written first. -/
  | recClearDone
  /-- STATE (R488): A Tosto REC STATE returns the recorder's status words. -/
  | recState (o : Option TMsg)
  /-- REC_READ_SEL (R494): A write of REC_READ_SEL loads REC_READ_DATA with the read form of the selected slot. -/
  | recReadSel (master : Byte) (value : Word)
  /-- REC_SCAN_DONE (R491): The scan after a reset of kind P ends; head and next NUM are set and POWER_ON appended. -/
  | recScanDone
  /-- POWER_ON (R496): Input power returns, the always-on domain regulates and a reset of kind P begins bring-up at POR. -/
  | powerOn (a b : Bool)
  /-- FEED_CHECK_DONE (R497): A feed has stayed in range for a 10 ms sample and FEED_CHECK ends. -/
  | feedCheckDone (a b : Bool)
  /-- ROM_DONE (R496): The ROM stage ends with keys derived and the switch core powered, or the module halts in SCRAP. -/
  | romDone (store : Bool)
  /-- SRAM_INIT_DONE (R498): SRAM_INIT ends with switch-die memories cleared, or enters HALTED on a fatal fault. -/
  | sramInitDone (fatal other : Bool)
  /-- POWER_WAVE (R499): The next 8 ms power wave begins, powering or removing one half-wing or wing base. -/
  | powerWave (ok : Bool)
  /-- MEMTEST_DONE (R503): The memory test ends and a MEMTEST record is appended. -/
  | memtestDone (status : Byte) (ms : Word)
  /-- TILE_TEST_DONE (R506): The tile self-test ends, the floor plan boot values are set and the agent leaves BOOT. -/
  | tileTestDone (ts : List TileFind)
  /-- LINKS_DONE (R496): No port is training, or 100 ms pass, and bring-up enters DISCOVERY. -/
  | linksDone
  /-- RESET_TILE (R508): RST_REQUEST with KIND T resets one tile. -/
  | resetTile (master : Byte) (i : Fin 512)
  /-- RESET_CLUSTER (R508): RST_REQUEST with KIND C resets one cluster. -/
  | resetCluster (master : Byte) (c : Fin 64)
  /-- RESET_WING (R508): RST_REQUEST with KIND W resets one wing, taking its Hall port to ABSORB. -/
  | resetWing (master : Byte) (w : Fin 8)
  /-- RESET_PORT (R508): RST_REQUEST with KIND L returns one fabric port to DOWN. -/
  | resetPort (master : Byte) (p : Fin 6)
  /-- RESET_CORE (R508): RST_REQUEST with KIND B resets one Belfry core, triggering a switch-over when it is active. -/
  | resetCore (master : Byte) (b : Bool)
  /-- RESET_MODULE (R508): RST_REQUEST with KIND M schedules a reset of kind M 10 µs after the write completes. -/
  | resetModule (master : Byte)
  /-- MODULE_RESET_BEGIN (R507): A scheduled reset of kind M begins, discarding the switch core, wing and Belfry state it covers. -/
  | moduleResetBegin
  /-- RESET_COMPLETE (R507): A reset's scope has been cleared and retrained; its Tocsin sources become IDLE. -/
  | resetComplete (kind : Fin 6) (target : Fin 512) (store : Bool)
  /-- RESET_TIMEOUT (R507): A reset has not completed within its time; RESET_TIMEOUT is raised and its scope held in reset. -/
  | resetTimeout (kind : Fin 6) (target : Fin 512)
  /-- RESET_N (R510): RESET_N passes its 10 µs filter and a reset of kind M begins 1 µs later, held while the pin stays low. -/
  | resetN
  /-- RESET_N_RELEASE (R510): RESET_N is released and bring-up begins. -/
  | resetNRelease (store : Bool)
  /-- TARGET_FULL (R512): A write of PWR_TARGET = 0 moves the module toward Full. -/
  | targetFull (master : Byte)
  /-- TARGET_QUIET (R512): A write of PWR_TARGET = 1 moves the module toward Quiet. -/
  | targetQuiet (master : Byte)
  /-- TARGET_TRANSIT (R512): A write of PWR_TARGET = 2 moves the module toward Transit, scrubbing a bound tenant first. -/
  | targetTransit (master : Byte)
  /-- TARGET_STANDBY (R512): A write of PWR_TARGET = 3 moves the module toward Standby. -/
  | targetStandby (master : Byte)
  /-- TARGET_OFF (R512): A write of PWR_TARGET = 4 moves the module to Standby and appends SHUTDOWN. -/
  | targetOff (master : Byte)
  /-- SCRUB_STEP_DONE (R164): A step of a scrub ends and the next begins; after the last, SCRUB clears. -/
  | scrubStepDone
  /-- UNDERVOLT (R525): The input behind both switches stays below 40.0 V for 0.5 µs; UNDERVOLT is raised and the recorder flushes. -/
  | undervolt
  /-- OVERVOLT (R524): A feed crosses 50.5 V rising, becomes absent and OVERVOLT is raised. -/
  | overvolt (b : Bool)
  /-- CONVERTER (R527): An on-package rail stays more than 5 % from its set point for 20 µs and CONVERTER is raised. -/
  | converter
  /-- OVERCURRENT (R527): The feed currents stay above 50 A for 100 µs and OVERCURRENT is raised. -/
  | overcurrent
  /-- WARN (R528): A die reaches THM_WARN and the tile clocks are capped at 1.2 GHz. -/
  | warn (die : Fin 9) (t : Int)
  /-- CRITICAL (R528): A die reaches THM_CRITICAL and every tile clock stops. -/
  | critical (die : Fin 9) (t : Int)
  /-- THERMAL_TRIP (R528): A die reaches 115 °C and the module enters Standby at once after a record. -/
  | thermalTrip (die : Fin 9) (t : Int)
  /-- THERMAL_COOLED (R528): Every die stays 5 °C below a threshold for 100 ms and the thermal state steps down. -/
  | thermalCooled (reads : List Int)
  /-- THERM_N (R530): THERM_N passes its 10 µs filter and the module caps its tile clocks. -/
  | thermN
  /-- THERM_N_RELEASE (R528): THERM_N is released and the capped state may end. -/
  | thermNRelease (cool : Bool)
  /-- SENSOR (R529): The two sensors of one die differ by more than 5 °C for 10 ms and SENSOR is raised. -/
  | sensor (die : Fin 9) (t : Int)
  /-- SYNC_IN (R531): A counted SYNC_IN pulse moves the measure boundary or is ignored and SYNC_REJECT raised. -/
  | syncIn (phase : Nat)
  /-- STATUS_WORD (R533): A telemetry STATUS_WORD command returns the fault bits. -/
  | statusWord
  /-- READ_VIN (R533): A telemetry READ_VIN command returns the higher feed voltage. -/
  | readVin (a b : Word)
  /-- READ_IIN (R533): A telemetry READ_IIN command returns the summed feed current. -/
  | readIin (a b : Word)
  /-- READ_TEMPERATURE_1 (R533): A telemetry READ_TEMPERATURE_1 command returns the hottest die's temperature. -/
  | readTemperature1 (reads : List Int)
  /-- READ_PIN (R533): A telemetry READ_PIN command returns the input power. -/
  | readPin (w : BitVec 16)
  /-- PMBUS_REVISION (R533): A telemetry PMBUS_REVISION command returns 0x33. -/
  | pmbusRevision
  /-- MFR_SERIAL (R533): A telemetry MFR_SERIAL command returns the module serial. -/
  | mfrSerial
  /-- SMBUS_CLOCK_TIMEOUT (R533): The telemetry clock is held low for 35 ms and the target resets its interface and releases the bus. -/
  | smbusClockTimeout
  /-- INTRO_RESEND (R181): During INTRO each side sends its introduction again every 1 µs until it has the peer's and has seen its own echoed. -/
  | introResend (p : Fin 6)
  /-- LANE_DESKEW_DONE (R195): During a hold, deskew and FEC lock on the new lanes finish and the port sends its lane-ready ordered sets. -/
  | laneDeskewDone (p : Fin 6)
  /-- C0_TOKEN_REFILL (R225): The C0 police bucket of a port refills a token and a C0 packet held at the source for want of one is sent. -/
  | c0TokenRefill (p : Fin 6)
  /-- MBX_POST_ENTRY_TAKEN (R412): A remote mailbox post that waited for an operation-table entry obtains one and its MBX_POST packet is sent. -/
  | mbxPostEntryTaken (master : Byte)
  /-- PRECHARGE_DONE (R523): The input precharge completes and PRECHARGED is set, letting the ROM stage power the switch core. -/
  | prechargeDone
  /-- FEED_QUALIFY_START (R524): An absent feed crosses 40.5 V rising or 50.0 V falling and its 100 ms qualification starts, setting A_QUALIFYING or B_QUALIFYING. -/
  | feedQualifyStart (b : Bool)
  /-- ENTRY_TO_OFF (R525): The input falls below 36.0 V and the module is Off, every domain losing regulation. -/
  | entryToOff
  /-- UCIE_TRAINED (R43): A wing's UCIe modules finish training after its power-up and the wing's Hall port reads ACTIVE. -/
  | ucieTrained (w : Fin 8) (m : Fin 2)
  /-- CEL_TRAIN_FAIL (R502): A Cellar port fails training and is left FAILED. -/
  | celTrainFail (p : Fin 4)
  /-- HOST_LINK_UP (R391): The host-port Ethernet link completes auto-negotiation and training, or comes up, and ETH_LINK.UP becomes 1. -/
  | hostLinkUp
  /-- LINK_DOWN (R393): The host-port Ethernet link is lost; ETH_LINK.UP clears and LINK_DOWN is raised. -/
  | linkDown
  /-- MKA_HELLO (R376): MSEC_HELLO elapses and Strongroom sends an MKA hello as a participant. -/
  | mkaHello
  /-- REF_LOST (R478): The 156.25 MHz reference oscillator stops and the CLK source REF_LOST is raised. -/
  | refLost
  /-- AON_DRIFT (R478): The always-on oscillator differs from the reference by more than 1 % and AON_DRIFT is raised. -/
  | aonDrift
  /-- CORE_FAULT (R472): A Belfry core shows a cache ECC error or lock-up and CORE_A_FAULT or CORE_B_FAULT is raised, whose BLOCK_RESET on severity resets that core. -/
  | coreFault (b : Bool)
  /-- GDDR7_ZERO_FILL_DONE (R512): On leaving Transit, the zero fill of every GDDR7 line ends and the short tile self-test begins. -/
  | gddr7ZeroFillDone
  deriving DecidableEq, Repr

end Sys2Proof
end

