-- ==== Sys2Proof/Config.lean ====
section
/-! DEFINITION. What one module's manufacture fixes and what the spec leaves open: constants without a body, so that a
proof about the block holds whatever they are. -/

namespace Sys2Proof.Config

/-- The free values of the model: the n-th value that the spec leaves open and a command needs (log entry 2). Every use
reads the state's counter and advances it. -/
opaque free : Nat → Nat

/-! ## Fuses and masks (R416, R522, R391, R437, R47) -/

/-- The 64-bit module serial. -/
opaque serial : Nat
/-- The 48-bit MAC address of the host port. -/
opaque mac : Nat
/-- The die stepping of the switch die and of the compute dies, and the revision of each block's logic (VERSION, R47). -/
opaque stepping : Nat → Nat
opaque blockRev : Nat → Nat
/-- The stepping and Voheic's JEDEC manufacturer identity that the JTAG IDCODE shows (R437). -/
opaque idStepping : Nat
opaque jedecId : Nat
/-- OWNER_ID as 32 bytes of a number, byte 0 lowest. -/
opaque ownerId : Nat
/-- The tiles disabled in the shipped floor plan: the k-th one, for k below 16 (a number above 511 names none). -/
opaque shipHole : Nat → Nat
/-- Whether tile i is enabled in the shipped floor plan: at most 16 are not, so that at least 496 are (R3, R4). -/
def shipEnabled (i : Nat) : Bool := (List.range 16).all (fun k => shipHole k != i)
/-- The shipped clock grade of tile i. -/
opaque shipGrade : Nat → Nat
/-- The pages of the expander at Cellar port p, 0 where none is attached (CEL_CAP, R146, R148), and whether IDE is enabled on the
port (R146). -/
opaque cellarPages : Nat → Nat
opaque cellarIde : Nat → Bool

/-! ## Keys and digests

Keys, secrets and digests are numbers; what the algorithms of the spec make of them is opaque. -/

/-- KMAC256 (R186, R201): key, data, and the customisation string; the output as a number, byte 0 lowest. -/
opaque kmac256 : Nat → List Byte → String → Nat
/-- AES-256-GCM (R180): the encrypted bytes and the 16-byte tag of a plain text under a key, an IV and additional data. -/
opaque gcmSeal : Nat → Nat → List Byte → List Byte → List Byte
/-- The exponent of the first root of the generator polynomial of RS(236,228), which R173 leaves open. -/
opaque fecRoot : Nat
/-- The module's ML-DSA-65 signature over a transcript digest, the ML-KEM-1024 encapsulation key and ciphertext made from a random
number, and the tag of KX3 under a shared secret over a transcript digest (R186). -/
opaque linkSign : Nat → List Byte
opaque kemKey : Nat → List Byte
opaque kemText : Nat → List Byte
opaque kxTag : Nat → Nat → List Byte

/-- The first 16 bytes of KMAC256 "LN tosto" over a message's header and body under the fabric message key (R367). -/
opaque fabricTag : List Byte → Nat
/-- SHAKE256 of a byte string with 512 bits of output, byte 0 lowest (R328). -/
opaque shake256 : List Byte → Nat
/-- The VERSION of the Strongroom ROM (R424), and the SHAKE256 digest of the Voheic root key held in it (R421). -/
opaque romVersion : Nat
opaque voheicRoot : Nat
/-- The public keys of R419 and R421 as numbers: of a seed, the AK of an extension digest, an OWNER_ID and a SEC_LC, the DIK, and the
AKEM of a BOOT_NONCE; and the Voheic manufacturing key. -/
opaque akPublic : Nat → Nat → Nat → Nat → Nat
opaque dikPublic : Nat → Nat
opaque mfgPublic : Nat
opaque akemPublic : Nat → Nat → Nat
/-- The signature bytes of a certificate over its bytes 0-2,015, and the byte GEN of a certificate that the module itself holds,
by ROLE. -/
opaque certSignature : Nat → List Byte → Nat
opaque certGen : Nat → Nat
/-- The 32-byte tag that SIGN_CLAIM forms over a CLAIM's fields under the fabric management key (R305). -/
opaque claimTag : List Byte → Nat
/-- The 32-byte tag of a TABLES object under the fabric management key, over bytes 0-127 of its manifest piece 0 and the other manifest
pieces (R327, R328). -/
opaque tablesTag : List Byte → Nat
/-- WSEQ of a logical write of trio mode (R315), from the MA it goes to, its message's family and code, and its body without the
voter index: the same at all three voters. -/
opaque writeSeq : Nat → Nat → Nat → List Byte → Nat
/-- What the three voters choose for an installation of an epoch (R315): 0 the salt, 1 and 2 VERSION and SIGNER of its TABLES object. -/
opaque agreed : Nat → Nat → Nat

end Sys2Proof.Config
end

