-- ==== Sys2Proof/Machine/RegMap.lean ====
section
/-! DEFINITION. The register pages: which page a block number names (R45), and for each page its block-specific
registers as the spec's register tables list them (R42, R58, R90, R93, R130, R165-R167, R206, R249-R252, R292-R296,
R335, R336, R361, R362, R391, R392, R414, R443-R446, R476, R479, R494, R520-R522, R535-R537). -/

namespace Sys2Proof.Machine

/-- The pages of R45 by name. -/
inductive Page where
  | mod | clk | pwr | thm | rst | wng | hall | lnk | rtr | rtb | vca | cmap | col | pan | grp | opt | eth | msec | knk | ptp | cxl | cel | mbx | sec | key | att | dbg | toc | recorder | bel | agt | msr | arr | gd | til | clu
  deriving DecidableEq, Repr

/-- Access codes of R13. -/
inductive Access where
  | ro | rw | rw1c | rw1s | rc | wo | rwo
  deriving DecidableEq, Repr

/-- One row of a register table: `count` registers from `off`, `stride` bytes apart. `restored` has bit 0 P, 1 M, 2 W,
3 C, 4 T, 5 L, 6 B, as LASTRESET numbers the kinds (R47); a bit of `wmask` is a bit software may write; `lo` and `hi`
bound the value a write may carry (R56 check 6). -/
structure RegDesc where
  off : Nat
  stride : Nat
  count : Nat
  access : Access
  dflt : Word
  restored : Nat
  wmask : Word
  lo : Nat
  hi : Nat
  deriving DecidableEq, Repr

/-- The page of a block number, none where R45 gives the number no row (R44: NO_PAGE). -/
def pageOf (b : Nat) : Option Page :=
  if b = 0x000 then some .mod else if b = 0x001 then some .clk else if b = 0x002 then some .pwr
  else if b = 0x003 then some .thm else if b = 0x004 then some .rst
  else if 0x008 ≤ b ∧ b ≤ 0x00F then some .wng
  else if b = 0x010 then some .hall
  else if 0x020 ≤ b ∧ b ≤ 0x025 then some .lnk
  else if b = 0x028 then some .rtr else if b = 0x029 then some .rtb else if b = 0x02A then some .vca
  else if b = 0x02B then some .cmap
  else if b = 0x030 then some .col else if b = 0x031 then some .pan else if b = 0x032 then some .grp
  else if b = 0x038 then some .opt
  else if b = 0x040 then some .eth else if b = 0x041 then some .msec else if b = 0x042 then some .knk
  else if b = 0x043 then some .ptp
  else if 0x048 ≤ b ∧ b ≤ 0x04B then some .cxl
  else if b = 0x04C then some .cel
  else if b = 0x050 then some .mbx
  else if b = 0x058 then some .sec else if b = 0x059 then some .key else if b = 0x05A then some .att
  else if b = 0x05B then some .dbg
  else if b = 0x060 then some .toc else if b = 0x061 then some .recorder
  else if b = 0x068 then some .bel else if b = 0x069 then some .agt else if b = 0x06A then some .msr
  else if b = 0x080 then some .arr
  else if 0x090 ≤ b ∧ b ≤ 0x097 then some .gd
  else if 0x400 ≤ b ∧ b ≤ 0x5FF then some .til
  else if 0x600 ≤ b ∧ b ≤ 0x63F then some .clu
  else none

/-- The TYPE code of a page's ID register, with the block number where a row gives one code per page (R45). -/
def pageType (b : Nat) : Nat :=
  if b ≤ 4 then b + 1
  else if b ≤ 0x00F then 0x08
  else if b = 0x010 then 0x10
  else if b ≤ 0x025 then 0x20
  else if b ≤ 0x043 then b
  else if b ≤ 0x04B then 0x48
  else if b = 0x04C then 0x4C
  else if b ≤ 0x06A then b
  else if b = 0x080 then 0x80
  else if b ≤ 0x097 then 0x90
  else if b ≤ 0x5FF then 0xA0
  else 0xB0

/-- The table-window slots that belong to a page (R52). -/
def slotsOf : Page → List Nat
  | .rtb => [0, 1] | .grp => [2] | .rtr => [3] | .cel => [4] | .opt => [5] | .sec => [6]
  | _ => []

/-! The block-specific registers of each page. -/

/-- The registers of the HALL page. -/
def regsHall : List RegDesc :=
  [⟨0x080, 4, 1, .ro, 0x1FFFF, 0, 0x0, 0, 4294967295⟩,
   ⟨0x084, 4, 1, .rw, 0x14, 3, 0xFFFFFFFF, 1, 1000⟩,
   ⟨0x088, 4, 1, .rw, 0x10101010, 3, 0xFFFFFFFF, 0, 4294967295⟩,
   ⟨0x08C, 4, 1, .rw, 0x10101010, 3, 0xFFFFFFFF, 0, 4294967295⟩,
   ⟨0x090, 4, 1, .rw, 0x20102040, 3, 0xFFFFFFFF, 0, 4294967295⟩,
   ⟨0x094, 4, 1, .rw, 0x20101020, 3, 0xFFFFFFFF, 0, 4294967295⟩,
   ⟨0x0C0, 4, 1, .ro, 0x0, 3, 0x0, 0, 4294967295⟩,
   ⟨0x0C4, 4, 1, .ro, 0x0, 3, 0x0, 0, 4294967295⟩,
   ⟨0x0C8, 4, 1, .rc, 0x0, 3, 0x0, 0, 4294967295⟩,
   ⟨0x0CC, 4, 1, .rc, 0x0, 3, 0x0, 0, 4294967295⟩]

/-- The registers of the MOD page. -/
def regsMod : List RegDesc :=
  [⟨0x100, 4, 1, .rw, 0xA, 3, 0xFFFFFFFF, 1, 1000⟩,
   ⟨0x104, 4, 1, .rc, 0x0, 3, 0x0, 0, 4294967295⟩,
   ⟨0x108, 4, 1, .ro, 0x0, 3, 0x0, 0, 4294967295⟩,
   ⟨0x10C, 4, 1, .ro, 0x0, 3, 0x0, 0, 4294967295⟩,
   ⟨0x200, 4, 16, .ro, 0x0, 0, 0x0, 0, 4294967295⟩,
   ⟨0x240, 4, 16, .ro, 0x0, 0, 0x0, 0, 4294967295⟩,
   ⟨0x280, 4, 32, .ro, 0x0, 0, 0x0, 0, 4294967295⟩,
   ⟨0x300, 4, 1, .ro, 0x0, 0, 0x0, 0, 4294967295⟩,
   ⟨0x304, 4, 1, .ro, 0x0, 1, 0x0, 0, 4294967295⟩]

/-- The registers of the TIL pages. -/
def regsTil : List RegDesc :=
  [⟨0x080, 4, 1, .rc, 0x0, 31, 0x0, 0, 4294967295⟩,
   ⟨0x084, 4, 1, .rc, 0x0, 31, 0x0, 0, 4294967295⟩,
   ⟨0x088, 4, 1, .rc, 0x0, 31, 0x0, 0, 4294967295⟩,
   ⟨0x08C, 4, 1, .ro, 0x0, 31, 0x0, 0, 4294967295⟩,
   ⟨0x090, 4, 1, .ro, 0x0, 0, 0x0, 0, 4294967295⟩,
   ⟨0x094, 4, 1, .rc, 0x0, 31, 0x0, 0, 4294967295⟩,
   ⟨0x098, 4, 1, .rw1c, 0x0, 31, 0x1F, 0, 4294967295⟩]

/-- The registers of the CLU pages. -/
def regsClu : List RegDesc :=
  [⟨0x080, 4, 1, .ro, 0x0, 0, 0x0, 0, 4294967295⟩,
   ⟨0x084, 4, 1, .rw, 0x32, 15, 0xFFFFFFFF, 1, 10000⟩,
   ⟨0x088, 4, 1, .ro, 0x0, 0, 0x0, 0, 4294967295⟩]

/-- The registers of the ARR page. -/
def regsArr : List RegDesc :=
  [⟨0x080, 4, 1, .wo, 0x0, 0, 0x0, 0, 4294967295⟩,
   ⟨0x084, 4, 1, .ro, 0x0, 3, 0x0, 0, 4294967295⟩,
   ⟨0x088, 4, 1, .ro, 0x0, 3, 0x0, 0, 4294967295⟩,
   ⟨0x08C, 4, 1, .rc, 0x0, 3, 0x0, 0, 4294967295⟩,
   ⟨0x090, 4, 1, .rw, 0x0, 3, 0xFFFFFFE0, 0, 4294967295⟩,
   ⟨0x094, 4, 1, .rw, 0x0, 3, 0xFFFF, 0, 4294967295⟩,
   ⟨0x098, 4, 1, .rw, 0x0, 3, 0xF, 0, 4294967295⟩,
   ⟨0x09C, 4, 1, .ro, 0x0, 3, 0x0, 0, 4294967295⟩,
   ⟨0x0A0, 4, 1, .rw, 0x0, 3, 0xFFFFFFFF, 0, 4294967295⟩,
   ⟨0x0A4, 4, 1, .rw, 0x200, 3, 0x3FF, 0, 4294967295⟩,
   ⟨0x0A8, 4, 1, .rw, 0xC8, 3, 0xFFFFFFFF, 10, 100000⟩,
   ⟨0x0AC, 4, 1, .rw, 0x0, 3, 0x80003F1F, 0, 4294967295⟩,
   ⟨0x0B0, 4, 1, .ro, 0x0, 3, 0x0, 0, 4294967295⟩,
   ⟨0x0B4, 4, 1, .ro, 0x0, 3, 0x0, 0, 4294967295⟩,
   ⟨0x0B8, 4, 1, .ro, 0x0, 3, 0x0, 0, 4294967295⟩,
   ⟨0x0BC, 4, 1, .ro, 0x0, 3, 0x0, 0, 4294967295⟩]

/-- The registers of the GD pages. -/
def regsGd : List RegDesc :=
  [⟨0x080, 4, 1, .ro, 0x0, 7, 0x0, 0, 4294967295⟩,
   ⟨0x084, 4, 1, .rc, 0x0, 7, 0x0, 0, 4294967295⟩,
   ⟨0x088, 4, 1, .rc, 0x0, 7, 0x0, 0, 4294967295⟩,
   ⟨0x08C, 4, 1, .ro, 0x0, 7, 0x0, 0, 4294967295⟩,
   ⟨0x090, 4, 1, .ro, 0x0, 7, 0x0, 0, 4294967295⟩,
   ⟨0x094, 4, 1, .ro, 0x0, 7, 0x0, 0, 4294967295⟩,
   ⟨0x098, 4, 1, .rw, 0x100, 3, 0xFFFFFFFF, 1, 65535⟩,
   ⟨0x09C, 4, 1, .rc, 0x0, 7, 0x0, 0, 4294967295⟩,
   ⟨0x0A0, 4, 1, .rw, 0x18, 3, 0xFFFFFFFF, 0, 168⟩,
   ⟨0x0A4, 4, 1, .rw, 0x64, 3, 0xFFFFFFFF, 1, 1000⟩,
   ⟨0x0A8, 4, 1, .rw, 0x32, 3, 0xFFFFFFFF, 10, 1000⟩]

/-- The registers of the WNG pages. -/
def regsWng : List RegDesc :=
  [⟨0x080, 8, 16, .rw, 0x0, 3, 0xFFFFFFFF, 0, 4294967295⟩,
   ⟨0x084, 8, 16, .rw, 0x0, 3, 0x3FF, 0, 4294967295⟩,
   ⟨0x100, 4, 1, .rc, 0x0, 7, 0x0, 0, 4294967295⟩,
   ⟨0x104, 4, 1, .ro, 0x0, 7, 0x0, 0, 4294967295⟩]

/-- The registers of the CEL page. -/
def regsCel : List RegDesc :=
  [⟨0x080, 4, 1, .ro, 0x0, 3, 0x0, 0, 4294967295⟩,
   ⟨0x084, 4, 1, .rw, 0x32, 3, 0xFFFFFFFF, 10, 10000⟩,
   ⟨0x088, 4, 1, .rw, 0x40, 3, 0xFF, 1, 255⟩,
   ⟨0x08C, 4, 1, .rc, 0x0, 3, 0x0, 0, 4294967295⟩,
   ⟨0x090, 4, 1, .rc, 0x0, 3, 0x0, 0, 4294967295⟩,
   ⟨0x094, 4, 1, .ro, 0x0, 3, 0x0, 0, 4294967295⟩,
   ⟨0x098, 4, 1, .rc, 0x0, 3, 0x0, 0, 4294967295⟩,
   ⟨0x0A0, 4, 4, .ro, 0x0, 1, 0x0, 0, 4294967295⟩,
   ⟨0x0B0, 4, 4, .ro, 0x0, 3, 0x0, 0, 4294967295⟩,
   ⟨0x100, 16, 8, .wo, 0x0, 0, 0x0, 0, 4294967295⟩,
   ⟨0x104, 16, 8, .rw, 0x200, 3, 0x3FF, 0, 4294967295⟩,
   ⟨0x108, 16, 8, .rw, 0x0, 3, 0x80003F1F, 0, 4294967295⟩,
   ⟨0x10C, 16, 8, .ro, 0x0, 3, 0x0, 0, 4294967295⟩,
   ⟨0x800, 4, 512, .ro, 0x0, 1, 0x0, 0, 4294967295⟩]

/-- The registers of the LNK pages. -/
def regsLnk : List RegDesc :=
  [⟨0x080, 4, 1, .ro, 0x0, 35, 0x0, 0, 4294967295⟩,
   ⟨0x084, 4, 1, .ro, 0x0, 35, 0x0, 0, 4294967295⟩,
   ⟨0x088, 4, 1, .rw, 0x4, 3, 0xFFFFFFFF, 0, 4294967295⟩,
   ⟨0x08C, 4, 1, .rw, 0xFA0, 3, 0xFFFFFFFF, 1, 1000000⟩,
   ⟨0x090, 4, 1, .rw, 0x24, 3, 0xFFFFFFFF, 20, 38⟩,
   ⟨0x094, 4, 1, .rw, 0x8, 3, 0xFFFFFFFF, 1, 255⟩,
   ⟨0x098, 4, 1, .rw, 0x4, 3, 0xFFFFFFFF, 1, 255⟩,
   ⟨0x09C, 4, 1, .rw, 0x32, 3, 0xFFFFFFFF, 10, 1000⟩,
   ⟨0x0A0, 4, 1, .rw, 0x3E8, 3, 0xFFFFFFFF, 100, 100000⟩,
   ⟨0x0A4, 4, 1, .rw, 0xA, 3, 0xFFFFFFFF, 1, 10000⟩,
   ⟨0x0A8, 4, 1, .ro, 0x0, 35, 0x0, 0, 4294967295⟩,
   ⟨0x0AC, 4, 1, .ro, 0x0, 35, 0x0, 0, 4294967295⟩,
   ⟨0x0B0, 4, 1, .rw, 0x0, 3, 0x80000007, 0, 4294967295⟩,
   ⟨0x0B4, 4, 1, .rw, 0x0, 3, 0xFFFFFFFF, 0, 4294967295⟩,
   ⟨0x0B8, 4, 1, .rw, 0x0, 3, 0xFFFFFFFF, 0, 4294967295⟩,
   ⟨0x0BC, 4, 1, .wo, 0x0, 0, 0x0, 0, 4294967295⟩,
   ⟨0x0C0, 4, 1, .ro, 0x0, 35, 0x0, 0, 4294967295⟩,
   ⟨0x0C4, 4, 1, .ro, 0x0, 35, 0x0, 0, 4294967295⟩,
   ⟨0x0C8, 4, 1, .ro, 0x0, 35, 0x0, 0, 4294967295⟩,
   ⟨0x0CC, 4, 1, .ro, 0x0, 35, 0x0, 0, 4294967295⟩,
   ⟨0x0D0, 4, 1, .ro, 0x0, 35, 0x0, 0, 4294967295⟩,
   ⟨0x0D4, 4, 1, .ro, 0x0, 35, 0x0, 0, 4294967295⟩,
   ⟨0x0D8, 4, 4, .ro, 0x0, 35, 0x0, 0, 4294967295⟩,
   ⟨0x100, 4, 1, .ro, 0x0, 35, 0x0, 0, 4294967295⟩] ++
  [⟨0x104, 4, 1, .ro, 0x0, 35, 0x0, 0, 4294967295⟩,
   ⟨0x108, 4, 1, .ro, 0x0, 35, 0x0, 0, 4294967295⟩,
   ⟨0x10C, 4, 1, .ro, 0x0, 35, 0x0, 0, 4294967295⟩,
   ⟨0x110, 4, 1, .rc, 0x0, 35, 0x0, 0, 4294967295⟩,
   ⟨0x114, 4, 1, .rc, 0x0, 35, 0x0, 0, 4294967295⟩,
   ⟨0x118, 4, 1, .rc, 0x0, 35, 0x0, 0, 4294967295⟩,
   ⟨0x11C, 4, 1, .rc, 0x0, 35, 0x0, 0, 4294967295⟩,
   ⟨0x120, 4, 1, .rc, 0x0, 35, 0x0, 0, 4294967295⟩,
   ⟨0x124, 4, 1, .rc, 0x0, 35, 0x0, 0, 4294967295⟩,
   ⟨0x128, 4, 1, .rc, 0x0, 3, 0x0, 0, 4294967295⟩,
   ⟨0x12C, 4, 1, .rc, 0x0, 3, 0x0, 0, 4294967295⟩,
   ⟨0x180, 4, 24, .rc, 0x0, 35, 0x0, 0, 4294967295⟩]

/-- The registers of the RTR page. -/
def regsRtr : List RegDesc :=
  [⟨0x080, 4, 1, .rw, 0x0, 3, 0xFFFF, 0, 4294967295⟩,
   ⟨0x084, 4, 1, .rw, 0x0, 3, 0x3F, 0, 4294967295⟩,
   ⟨0x088, 4, 1, .rw, 0x64, 3, 0xFFFFFFFF, 10, 10000⟩,
   ⟨0x08C, 4, 1, .rw, 0x4E20, 3, 0xFFFFFFFF, 1000, 1000000⟩,
   ⟨0x090, 4, 1, .rw, 0x20, 3, 0xFFFFFFFF, 8, 256⟩,
   ⟨0x094, 4, 1, .rw, 0x1000, 3, 0xFFFFFFFF, 0, 65536⟩,
   ⟨0x098, 4, 1, .rw, 0x1F40008, 3, 0xFFFF00FF, 0, 4294967295⟩,
   ⟨0x09C, 4, 1, .rw, 0x5, 3, 0xF, 1, 5⟩,
   ⟨0x0A0, 4, 1, .ro, 0x40000, 3, 0x0, 0, 4294967295⟩,
   ⟨0x0C0, 4, 1, .rc, 0x0, 3, 0x0, 0, 4294967295⟩,
   ⟨0x0C4, 4, 1, .rc, 0x0, 3, 0x0, 0, 4294967295⟩,
   ⟨0x0C8, 4, 1, .rc, 0x0, 3, 0x0, 0, 4294967295⟩,
   ⟨0x0CC, 4, 1, .rc, 0x0, 3, 0x0, 0, 4294967295⟩,
   ⟨0x0D0, 4, 1, .rc, 0x0, 3, 0x0, 0, 4294967295⟩,
   ⟨0x0D4, 4, 1, .rc, 0x0, 3, 0x0, 0, 4294967295⟩,
   ⟨0x0D8, 4, 1, .rc, 0x0, 3, 0x0, 0, 4294967295⟩,
   ⟨0x0DC, 4, 1, .rc, 0x0, 3, 0x0, 0, 4294967295⟩,
   ⟨0x0E0, 4, 1, .rc, 0x0, 3, 0x0, 0, 4294967295⟩,
   ⟨0x0E4, 4, 1, .rc, 0x0, 3, 0x0, 0, 4294967295⟩,
   ⟨0x0E8, 4, 1, .rc, 0x0, 3, 0x0, 0, 4294967295⟩,
   ⟨0x0EC, 4, 1, .rc, 0x0, 3, 0x0, 0, 4294967295⟩,
   ⟨0x100, 4, 1, .wo, 0x0, 0, 0x0, 0, 4294967295⟩,
   ⟨0x104, 4, 1, .rw, 0x200, 3, 0x3FF, 0, 4294967295⟩,
   ⟨0x108, 4, 1, .rw, 0x0, 3, 0x80003F1F, 0, 4294967295⟩] ++
  [⟨0x10C, 4, 1, .ro, 0x0, 3, 0x0, 0, 4294967295⟩,
   ⟨0x110, 4, 1, .ro, 0x0, 3, 0x0, 0, 4294967295⟩]

/-- The registers of the RTB page. -/
def regsRtb : List RegDesc :=
  [⟨0x080, 4, 1, .ro, 0x0, 3, 0x0, 0, 4294967295⟩,
   ⟨0x084, 4, 1, .ro, 0x0, 3, 0x0, 0, 4294967295⟩,
   ⟨0x088, 4, 1, .ro, 0x0, 3, 0x0, 0, 4294967295⟩,
   ⟨0x08C, 4, 1, .ro, 0x0, 3, 0x0, 0, 4294967295⟩,
   ⟨0x090, 4, 1, .rw, 0x0, 3, 0xFFFFFFFF, 0, 4294967295⟩,
   ⟨0x094, 4, 1, .rw, 0x0, 3, 0xFFFFFFFF, 0, 4294967295⟩,
   ⟨0x098, 4, 1, .rw, 0x60, 3, 0xFF, 1, 255⟩,
   ⟨0x09C, 4, 1, .rw, 0x60, 3, 0xFF, 1, 255⟩,
   ⟨0x0A0, 4, 1, .wo, 0x0, 0, 0x0, 0, 4294967295⟩,
   ⟨0x0A4, 4, 1, .wo, 0x0, 0, 0x0, 0, 4294967295⟩,
   ⟨0x0A8, 4, 1, .wo, 0x0, 0, 0x0, 0, 4294967295⟩,
   ⟨0x0AC, 4, 1, .rw, 0x2EE0, 3, 0xFFFFFFFF, 1000, 10000000⟩,
   ⟨0x0B0, 4, 1, .ro, 0x0, 3, 0x0, 0, 4294967295⟩,
   ⟨0x0B4, 4, 1, .rc, 0x0, 3, 0x0, 0, 4294967295⟩,
   ⟨0x0B8, 4, 1, .rc, 0x0, 3, 0x0, 0, 4294967295⟩,
   ⟨0x100, 4, 1, .rw, 0x7FFF, 3, 0x7FFF, 0, 4294967295⟩,
   ⟨0x104, 4, 1, .rw, 0x0, 3, 0xFFFFFFFF, 0, 4294967295⟩,
   ⟨0x108, 4, 1, .rw, 0x0, 3, 0xFFFFFFFF, 0, 4294967295⟩,
   ⟨0x10C, 4, 1, .rw, 0x0, 3, 0xFFFFFFFF, 0, 4294967295⟩,
   ⟨0x110, 4, 1, .wo, 0x0, 0, 0x0, 0, 4294967295⟩,
   ⟨0x114, 4, 1, .rc, 0x0, 3, 0x0, 0, 4294967295⟩,
   ⟨0x118, 4, 1, .ro, 0x0, 3, 0x0, 0, 4294967295⟩]

/-- The registers of the VCA page. -/
def regsVca : List RegDesc :=
  [⟨0x080, 4, 1, .rw, 0x10102040, 3, 0xFFFFFFFF, 0, 4294967295⟩,
   ⟨0x084, 4, 1, .ro, 0x23, 0, 0x0, 0, 4294967295⟩]

/-- The registers of the CMAP page. -/
def regsCmap : List RegDesc :=
  [⟨0x080, 4, 1, .ro, 0x0, 3, 0x0, 0, 4294967295⟩,
   ⟨0x084, 4, 1, .rc, 0x0, 3, 0x0, 0, 4294967295⟩,
   ⟨0x400, 4, 128, .ro, 0x0, 3, 0x0, 0, 4294967295⟩,
   ⟨0x600, 4, 128, .ro, 0x0, 3, 0x0, 0, 4294967295⟩]

/-- The registers of the COL page. -/
def regsCol : List RegDesc :=
  [⟨0x080, 4, 1, .wo, 0x0, 0, 0x0, 0, 4294967295⟩,
   ⟨0x084, 4, 1, .rw, 0x200, 3, 0x3FF, 0, 4294967295⟩,
   ⟨0x088, 4, 1, .rw, 0x0, 3, 0x80003F1F, 0, 4294967295⟩,
   ⟨0x08C, 4, 1, .ro, 0x0, 3, 0x0, 0, 4294967295⟩,
   ⟨0x090, 4, 1, .ro, 0x0, 3, 0x0, 0, 4294967295⟩,
   ⟨0x094, 4, 1, .ro, 0x0, 3, 0x0, 0, 4294967295⟩,
   ⟨0x098, 4, 1, .rw, 0x3E8, 3, 0xFFFFFFFF, 1, 60000⟩,
   ⟨0x09C, 4, 1, .rw, 0x4E20, 3, 0xFFFFFFFF, 100, 10000000⟩,
   ⟨0x0A0, 4, 1, .rw, 0x40, 3, 0xFFFFFFFF, 2, 3072⟩,
   ⟨0x0A4, 4, 1, .rw, 0x14, 3, 0xFFFFFFFF, 1, 1000⟩,
   ⟨0x0C0, 4, 1, .rc, 0x0, 3, 0x0, 0, 4294967295⟩,
   ⟨0x0C4, 4, 1, .rc, 0x0, 3, 0x0, 0, 4294967295⟩,
   ⟨0x0C8, 4, 1, .rc, 0x0, 3, 0x0, 0, 4294967295⟩,
   ⟨0x0CC, 4, 1, .rc, 0x0, 3, 0x0, 0, 4294967295⟩,
   ⟨0x0D0, 4, 1, .rc, 0x0, 3, 0x0, 0, 4294967295⟩,
   ⟨0x0D4, 4, 1, .ro, 0x0, 3, 0x0, 0, 4294967295⟩,
   ⟨0x0D8, 4, 1, .ro, 0x0, 3, 0x0, 0, 4294967295⟩]

/-- The registers of the PAN page. -/
def regsPan : List RegDesc :=
  [⟨0x080, 4, 1, .ro, 0x3000, 3, 0x0, 0, 4294967295⟩,
   ⟨0x084, 4, 1, .rc, 0x3000, 3, 0x0, 0, 4294967295⟩,
   ⟨0x088, 4, 1, .rc, 0x0, 3, 0x0, 0, 4294967295⟩,
   ⟨0x08C, 4, 1, .rc, 0x0, 3, 0x0, 0, 4294967295⟩,
   ⟨0x090, 4, 1, .ro, 0x0, 3, 0x0, 0, 4294967295⟩,
   ⟨0x094, 4, 1, .rc, 0x0, 3, 0x0, 0, 4294967295⟩]

/-- The registers of the GRP page. -/
def regsGrp : List RegDesc :=
  [⟨0x080, 4, 1, .ro, 0x0, 3, 0x0, 0, 4294967295⟩,
   ⟨0x084, 4, 1, .wo, 0x0, 0, 0x0, 0, 4294967295⟩,
   ⟨0x088, 4, 1, .ro, 0x0, 3, 0x0, 0, 4294967295⟩]

/-- The registers of the OPT page. -/
def regsOpt : List RegDesc :=
  [⟨0x080, 4, 1, .ro, 0x1000, 3, 0x0, 0, 4294967295⟩,
   ⟨0x084, 4, 1, .rc, 0x1000, 3, 0x0, 0, 4294967295⟩,
   ⟨0x088, 4, 1, .rc, 0x0, 3, 0x0, 0, 4294967295⟩]

/-- The registers of the BEL page. -/
def regsBel : List RegDesc :=
  [⟨0x080, 4, 1, .ro, 0x0, 3, 0x0, 0, 4294967295⟩,
   ⟨0x084, 4, 1, .ro, 0x0, 3, 0x0, 0, 4294967295⟩,
   ⟨0x088, 4, 1, .rw, 0x32, 3, 0xFFFFFFFF, 10, 1000⟩,
   ⟨0x08C, 4, 1, .rw, 0x4, 3, 0xFFFFFFFF, 2, 16⟩,
   ⟨0x090, 4, 1, .rw, 0x5, 3, 0xFFFFFFFF, 0, 32⟩,
   ⟨0x094, 4, 1, .rw, 0x14, 3, 0xFFFFFFFF, 5, 1000⟩,
   ⟨0x098, 4, 1, .rw, 0x32, 3, 0xFFFFFFFF, 1, 1000⟩,
   ⟨0x09C, 4, 1, .rw, 0x3E8, 3, 0xFFFFFFFF, 100, 1000000⟩,
   ⟨0x0A0, 4, 1, .wo, 0x0, 0, 0x0, 0, 4294967295⟩,
   ⟨0x0C0, 4, 1, .rc, 0x0, 3, 0x0, 0, 4294967295⟩,
   ⟨0x0C4, 4, 1, .rc, 0x0, 3, 0x0, 0, 4294967295⟩,
   ⟨0x0C8, 4, 1, .rc, 0x0, 3, 0x0, 0, 4294967295⟩,
   ⟨0x100, 4, 1, .wo, 0x0, 0, 0x0, 0, 4294967295⟩,
   ⟨0x104, 4, 1, .ro, 0x0, 3, 0x0, 0, 4294967295⟩,
   ⟨0x108, 4, 1, .rw, 0x50, 3, 0xFFFFFFFF, 0, 100000⟩,
   ⟨0x10C, 4, 1, .rw, 0x0, 3, 0xC0FFFFFF, 0, 4294967295⟩,
   ⟨0x110, 4, 1, .ro, 0x0, 3, 0x0, 0, 4294967295⟩,
   ⟨0x114, 4, 1, .rw, 0xA, 3, 0xFFFFFFFF, 1, 1000⟩,
   ⟨0x118, 4, 1, .rc, 0x0, 3, 0x0, 0, 4294967295⟩,
   ⟨0x800, 4, 64, .rw, 0x0, 67, 0xFFFFFFFF, 0, 4294967295⟩,
   ⟨0x900, 4, 64, .rw, 0x0, 67, 0xFFFFFFFF, 0, 4294967295⟩]

/-- The registers of the AGT page. -/
def regsAgt : List RegDesc :=
  [⟨0x080, 4, 1, .ro, 0x0, 3, 0x0, 0, 4294967295⟩,
   ⟨0x084, 4, 1, .rw, 0x0, 3, 0xC0000FFF, 0, 4294967295⟩,
   ⟨0x088, 4, 1, .ro, 0x0, 3, 0x0, 0, 4294967295⟩,
   ⟨0x08C, 4, 1, .ro, 0x0, 3, 0x0, 0, 4294967295⟩,
   ⟨0x090, 4, 1, .ro, 0x0, 3, 0x0, 0, 4294967295⟩,
   ⟨0x094, 4, 1, .ro, 0x0, 3, 0x0, 0, 4294967295⟩,
   ⟨0x098, 4, 1, .ro, 0x0, 3, 0x0, 0, 4294967295⟩,
   ⟨0x09C, 4, 1, .ro, 0x3E8, 0, 0x0, 0, 4294967295⟩,
   ⟨0x0A0, 4, 1, .rc, 0x0, 3, 0x0, 0, 4294967295⟩,
   ⟨0x0A4, 4, 1, .rc, 0x0, 3, 0x0, 0, 4294967295⟩,
   ⟨0x0A8, 4, 1, .rc, 0x0, 3, 0x0, 0, 4294967295⟩,
   ⟨0x0AC, 4, 1, .rc, 0x0, 3, 0x0, 0, 4294967295⟩,
   ⟨0x0B0, 4, 1, .rc, 0x0, 3, 0x0, 0, 4294967295⟩,
   ⟨0x0B4, 4, 1, .ro, 0x0, 3, 0x0, 0, 4294967295⟩,
   ⟨0x0B8, 4, 1, .ro, 0x0, 3, 0x0, 0, 4294967295⟩,
   ⟨0x0BC, 4, 1, .rw, 0x7D0, 3, 0xFFFFFFFF, 100, 100000⟩,
   ⟨0x0C0, 4, 1, .rw, 0x3E8, 3, 0xFFFFFFFF, 100, 1000000⟩,
   ⟨0x0C4, 4, 1, .rw, 0x2710, 3, 0xFFFFFFFF, 100, 600000⟩,
   ⟨0x0C8, 4, 1, .rc, 0x0, 3, 0x0, 0, 4294967295⟩,
   ⟨0x0D0, 4, 4, .ro, 0x0, 3, 0x0, 0, 4294967295⟩,
   ⟨0x100, 4, 1, .rw, 0x64, 3, 0xFFFFFFFF, 0, 10000⟩,
   ⟨0x104, 4, 1, .rc, 0x0, 3, 0x0, 0, 4294967295⟩]

/-- The registers of the ETH page. -/
def regsEth : List RegDesc :=
  [⟨0x080, 4, 1, .ro, 0x0, 1, 0x0, 0, 4294967295⟩,
   ⟨0x084, 4, 1, .rw, 0x0, 1, 0x3, 0, 2⟩,
   ⟨0x088, 4, 1, .ro, 0x0, 0, 0x0, 0, 4294967295⟩,
   ⟨0x08C, 4, 1, .ro, 0x0, 0, 0x0, 0, 4294967295⟩,
   ⟨0x090, 4, 1, .rw, 0x0, 3, 0x1FFF, 0, 4294967295⟩,
   ⟨0x094, 4, 1, .rw, 0x0, 3, 0xFFFFFFFF, 0, 4294967295⟩,
   ⟨0x098, 4, 4, .rw, 0x0, 3, 0xFFFFFFFF, 0, 4294967295⟩,
   ⟨0x0A8, 4, 1, .rw, 0xB806, 3, 0xFFFF, 1, 65535⟩,
   ⟨0x0AC, 4, 1, .rw, 0x2710, 3, 0xFFFFFFFF, 1000, 3600000⟩,
   ⟨0x0B0, 4, 1, .ro, 0x0, 3, 0x0, 0, 4294967295⟩,
   ⟨0x0B4, 4, 1, .rw, 0x0, 3, 0xF, 0, 4294967295⟩,
   ⟨0x0B8, 4, 1, .ro, 0x0, 3, 0x0, 0, 4294967295⟩,
   ⟨0x0C0, 4, 16, .rw, 0x0, 3, 0xC00001FF, 0, 4294967295⟩,
   ⟨0x100, 4, 1, .rc, 0x0, 3, 0x0, 0, 4294967295⟩,
   ⟨0x104, 4, 1, .rc, 0x0, 3, 0x0, 0, 4294967295⟩,
   ⟨0x108, 4, 1, .rc, 0x0, 3, 0x0, 0, 4294967295⟩,
   ⟨0x10C, 4, 1, .rc, 0x0, 3, 0x0, 0, 4294967295⟩]

/-- The registers of the MSEC page. -/
def regsMsec : List RegDesc :=
  [⟨0x080, 4, 1, .ro, 0x0, 1, 0x0, 0, 4294967295⟩,
   ⟨0x084, 4, 1, .ro, 0x0, 3, 0x0, 0, 4294967295⟩,
   ⟨0x088, 4, 1, .rw, 0x0, 3, 0xFFFFFFFF, 0, 65535⟩,
   ⟨0x08C, 4, 1, .rw, 0x7D0, 3, 0xFFFFFFFF, 500, 6000⟩,
   ⟨0x090, 4, 1, .rc, 0x0, 3, 0x0, 0, 4294967295⟩,
   ⟨0x094, 4, 1, .rc, 0x0, 3, 0x0, 0, 4294967295⟩,
   ⟨0x098, 4, 1, .rc, 0x0, 3, 0x0, 0, 4294967295⟩]

/-- The registers of the KNK page. -/
def regsKnk : List RegDesc :=
  [⟨0x080, 4, 1, .ro, 0x0, 0, 0x0, 0, 4294967295⟩,
   ⟨0x084, 4, 1, .ro, 0x0, 0, 0x0, 0, 4294967295⟩,
   ⟨0x088, 4, 1, .rc, 0x0, 1, 0x0, 0, 4294967295⟩,
   ⟨0x08C, 4, 1, .rc, 0x0, 1, 0x0, 0, 4294967295⟩,
   ⟨0x090, 4, 1, .rc, 0x0, 1, 0x0, 0, 4294967295⟩,
   ⟨0x094, 4, 1, .ro, 0x0, 1, 0x0, 0, 4294967295⟩]

/-- The registers of the PTP page. -/
def regsPtp : List RegDesc :=
  [⟨0x080, 4, 1, .ro, 0x0, 1, 0x0, 0, 4294967295⟩,
   ⟨0x084, 4, 1, .rw, 0x0, 1, 0xFF, 0, 127⟩,
   ⟨0x088, 4, 1, .rw, 0x0, 1, 0x3, 0, 2⟩,
   ⟨0x08C, 4, 1, .rw, 0x0, 1, 0xFFFFFFFF, 0, 4294967295⟩,
   ⟨0x090, 4, 1, .rw, 0x0, 1, 0xFFFFFFFF, 0, 4294967295⟩,
   ⟨0x094, 4, 1, .ro, 0x0, 1, 0x0, 0, 4294967295⟩,
   ⟨0x098, 4, 1, .rw, 0x64, 1, 0xFFFFFFFF, 10, 100000⟩,
   ⟨0x09C, 4, 1, .ro, 0x0, 1, 0x0, 0, 4294967295⟩,
   ⟨0x0A0, 4, 1, .ro, 0x0, 1, 0x0, 0, 4294967295⟩,
   ⟨0x0A4, 4, 1, .rc, 0x0, 1, 0x0, 0, 4294967295⟩]

/-- The registers of the MBX page. -/
def regsMbx : List RegDesc :=
  [⟨0x080, 4, 1, .ro, 0x0, 3, 0x0, 0, 4294967295⟩,
   ⟨0x084, 4, 1, .ro, 0x0, 3, 0x0, 0, 4294967295⟩,
   ⟨0x088, 4, 1, .ro, 0x0, 3, 0x0, 0, 4294967295⟩,
   ⟨0x08C, 4, 1, .ro, 0x0, 3, 0x0, 0, 4294967295⟩,
   ⟨0x090, 4, 1, .rw, 0x64, 3, 0xFFFFFFFF, 1, 60000⟩,
   ⟨0x094, 4, 1, .rc, 0x0, 3, 0x0, 0, 4294967295⟩,
   ⟨0x098, 4, 1, .rc, 0x0, 3, 0x0, 0, 4294967295⟩,
   ⟨0x09C, 4, 1, .rc, 0x0, 3, 0x0, 0, 4294967295⟩,
   ⟨0x0A0, 4, 1, .rc, 0x0, 3, 0x0, 0, 4294967295⟩,
   ⟨0x0A4, 4, 1, .rc, 0x0, 3, 0x0, 0, 4294967295⟩,
   ⟨0x0A8, 4, 1, .rc, 0x0, 3, 0x0, 0, 4294967295⟩,
   ⟨0x100, 4, 1, .wo, 0x0, 0, 0x0, 0, 4294967295⟩,
   ⟨0x104, 4, 1, .rw, 0x0, 3, 0xFFC07FFF, 0, 4294967295⟩,
   ⟨0x108, 4, 1, .ro, 0x0, 3, 0x0, 0, 4294967295⟩,
   ⟨0x400, 4, 64, .rw, 0x0, 3, 0xFFFFFFFF, 0, 4294967295⟩,
   ⟨0x800, 32, 64, .ro, 0x0, 3, 0x0, 0, 4294967295⟩,
   ⟨0x804, 32, 64, .ro, 0x0, 3, 0x0, 0, 4294967295⟩,
   ⟨0x808, 32, 64, .ro, 0x0, 3, 0x0, 0, 4294967295⟩,
   ⟨0x80C, 32, 64, .ro, 0x0, 3, 0x0, 0, 4294967295⟩,
   ⟨0x810, 32, 64, .rw, 0x0, 3, 0xC8FF03FF, 0, 4294967295⟩,
   ⟨0x814, 32, 64, .ro, 0x0, 3, 0x0, 0, 4294967295⟩,
   ⟨0x818, 32, 64, .rw1c, 0x0, 3, 0xFFFFFFFF, 0, 4294967295⟩,
   ⟨0x81C, 32, 64, .rw, 0x0, 3, 0xFFFFFFFF, 0, 4294967295⟩]

/-- The registers of the SEC page. -/
def regsSec : List RegDesc :=
  [⟨0x080, 4, 1, .ro, 0x0, 0, 0x0, 0, 4294967295⟩,
   ⟨0x084, 4, 1, .ro, 0x0, 0, 0x0, 0, 4294967295⟩,
   ⟨0x088, 4, 8, .ro, 0x0, 0, 0x0, 0, 4294967295⟩,
   ⟨0x0A8, 4, 1, .ro, 0x0, 1, 0x0, 0, 4294967295⟩,
   ⟨0x0AC, 4, 1, .ro, 0x0, 1, 0x0, 0, 4294967295⟩,
   ⟨0x0B0, 4, 1, .rc, 0x0, 3, 0x0, 0, 4294967295⟩,
   ⟨0x0B4, 4, 1, .rc, 0x0, 3, 0x0, 0, 4294967295⟩,
   ⟨0x0B8, 4, 1, .ro, 0x0, 3, 0x0, 0, 4294967295⟩,
   ⟨0x0BC, 4, 1, .rc, 0x0, 1, 0x0, 0, 4294967295⟩]

/-- The registers of the ATT page. -/
def regsAtt : List RegDesc :=
  [⟨0x080, 4, 1, .rc, 0x0, 3, 0x0, 0, 4294967295⟩,
   ⟨0x084, 4, 1, .ro, 0x0, 1, 0x0, 0, 4294967295⟩,
   ⟨0x0C0, 4, 16, .ro, 0x0, 1, 0x0, 0, 4294967295⟩,
   ⟨0x100, 4, 16, .ro, 0x0, 1, 0x0, 0, 4294967295⟩,
   ⟨0x140, 4, 16, .ro, 0x0, 3, 0x0, 0, 4294967295⟩,
   ⟨0x180, 4, 16, .ro, 0x0, 3, 0x0, 0, 4294967295⟩]

/-- The registers of the KEY page. -/
def regsKey : List RegDesc :=
  [⟨0x080, 4, 1, .ro, 0x0, 1, 0x0, 0, 4294967295⟩,
   ⟨0x084, 4, 1, .ro, 0x0, 3, 0x0, 0, 4294967295⟩,
   ⟨0x400, 4, 256, .ro, 0x0, 1, 0x0, 0, 4294967295⟩,
   ⟨0x800, 4, 512, .ro, 0x0, 1, 0x0, 0, 4294967295⟩]

/-- The registers of the DBG page. -/
def regsDbg : List RegDesc :=
  [⟨0x080, 4, 1, .ro, 0x0, 3, 0x0, 0, 4294967295⟩,
   ⟨0x084, 4, 1, .ro, 0x0, 3, 0x0, 0, 4294967295⟩,
   ⟨0x088, 4, 8, .ro, 0x0, 3, 0x0, 0, 4294967295⟩,
   ⟨0x0A8, 4, 1, .rc, 0x0, 1, 0x0, 0, 4294967295⟩,
   ⟨0x0AC, 4, 1, .rc, 0x0, 1, 0x0, 0, 4294967295⟩,
   ⟨0x0B0, 4, 1, .ro, 0x0, 3, 0x0, 0, 4294967295⟩]

/-- The registers of the TOC page. -/
def regsToc : List RegDesc :=
  [⟨0x080, 4, 1, .rw, 0x0, 1, 0x10000, 0, 4294967295⟩,
   ⟨0x084, 4, 1, .rw, 0xA, 3, 0xFFFFFFFF, 10, 10000⟩,
   ⟨0x088, 4, 1, .ro, 0x0, 3, 0x0, 0, 4294967295⟩,
   ⟨0x08C, 4, 1, .ro, 0x0, 3, 0x0, 0, 4294967295⟩,
   ⟨0x090, 4, 1, .ro, 0x0, 3, 0x0, 0, 4294967295⟩,
   ⟨0x094, 4, 1, .ro, 0x0, 3, 0x0, 0, 4294967295⟩,
   ⟨0x098, 4, 1, .wo, 0x0, 0, 0x0, 0, 4294967295⟩,
   ⟨0x09C, 4, 1, .ro, 0x0, 3, 0x0, 0, 4294967295⟩,
   ⟨0x0A0, 4, 1, .rc, 0x0, 3, 0x0, 0, 4294967295⟩,
   ⟨0x400, 4, 256, .rw, 0x0, 3, 0x77777777, 0, 4294967295⟩,
   ⟨0x800, 4, 64, .ro, 0x0, 3, 0x0, 0, 4294967295⟩,
   ⟨0x900, 4, 32, .rw1c, 0x0, 3, 0xFFFFFFFF, 0, 4294967295⟩,
   ⟨0xC00, 4, 256, .rc, 0x0, 3, 0x0, 0, 4294967295⟩]

/-- The registers of the REC page. -/
def regsRec : List RegDesc :=
  [⟨0x080, 4, 1, .ro, 0x0, 0, 0x0, 0, 4294967295⟩,
   ⟨0x084, 4, 1, .ro, 0x0, 0, 0x0, 0, 4294967295⟩,
   ⟨0x088, 4, 1, .ro, 0x0, 0, 0x0, 0, 4294967295⟩,
   ⟨0x08C, 4, 1, .ro, 0x0, 0, 0x0, 0, 4294967295⟩,
   ⟨0x090, 4, 1, .rc, 0x0, 1, 0x0, 0, 4294967295⟩,
   ⟨0x094, 4, 1, .ro, 0x0, 1, 0x0, 0, 4294967295⟩,
   ⟨0x098, 4, 1, .ro, 0x0, 1, 0x0, 0, 4294967295⟩,
   ⟨0x09C, 4, 1, .rw, 0x3E8, 3, 0xFFFFFFFF, 1, 60000⟩,
   ⟨0x0A0, 4, 1, .ro, 0x0, 0, 0x0, 0, 4294967295⟩,
   ⟨0x0A4, 4, 1, .rw, 0x0, 3, 0x80001FFF, 0, 4294967295⟩,
   ⟨0x100, 4, 16, .ro, 0x0, 3, 0x0, 0, 4294967295⟩,
   ⟨0x140, 4, 6, .rw, 0x0, 3, 0xFFFFFFFF, 0, 4294967295⟩,
   ⟨0x158, 4, 1, .wo, 0x0, 0, 0x0, 0, 4294967295⟩]

/-- The registers of the RST page. -/
def regsRst : List RegDesc :=
  [⟨0x080, 4, 1, .wo, 0x0, 0, 0x0, 0, 4294967295⟩,
   ⟨0x084, 4, 1, .ro, 0x0, 1, 0x0, 0, 4294967295⟩,
   ⟨0x088, 4, 1, .ro, 0x0, 1, 0x0, 0, 4294967295⟩,
   ⟨0x08C, 4, 1, .rc, 0x0, 1, 0x0, 0, 4294967295⟩,
   ⟨0x090, 4, 1, .rc, 0x0, 1, 0x0, 0, 4294967295⟩,
   ⟨0x094, 4, 1, .rc, 0x0, 1, 0x0, 0, 4294967295⟩,
   ⟨0x098, 4, 1, .rc, 0x0, 1, 0x0, 0, 4294967295⟩]

/-- The registers of the PWR page. -/
def regsPwr : List RegDesc :=
  [⟨0x080, 4, 1, .ro, 0x0, 1, 0x0, 0, 4294967295⟩,
   ⟨0x084, 4, 1, .rw, 0x0, 1, 0x7, 0, 4⟩,
   ⟨0x088, 4, 1, .ro, 0x0, 1, 0x0, 0, 4294967295⟩,
   ⟨0x08C, 4, 1, .ro, 0x0, 1, 0x0, 0, 4294967295⟩,
   ⟨0x100, 4, 1, .ro, 0x0, 0, 0x0, 0, 4294967295⟩,
   ⟨0x104, 4, 1, .ro, 0x0, 0, 0x0, 0, 4294967295⟩,
   ⟨0x108, 4, 1, .ro, 0x0, 0, 0x0, 0, 4294967295⟩,
   ⟨0x10C, 4, 1, .rc, 0x0, 1, 0x0, 0, 4294967295⟩,
   ⟨0x110, 4, 1, .ro, 0x0, 0, 0x0, 0, 4294967295⟩,
   ⟨0x114, 4, 1, .rc, 0x0, 1, 0x0, 0, 4294967295⟩]

/-- The registers of the THM page. -/
def regsThm : List RegDesc :=
  [⟨0x080, 4, 9, .ro, 0x0, 0, 0x0, 0, 4294967295⟩,
   ⟨0x0A4, 4, 1, .rw, 0x5F, 3, 0xFFFFFFFF, 70, 105⟩,
   ⟨0x0A8, 4, 1, .rw, 0x69, 3, 0xFFFFFFFF, 80, 110⟩,
   ⟨0x0AC, 4, 1, .ro, 0x0, 3, 0x0, 0, 4294967295⟩,
   ⟨0x0B0, 4, 1, .rc, 0x0, 3, 0x0, 0, 4294967295⟩]

/-- The registers of the MSR page. -/
def regsMsr : List RegDesc :=
  [⟨0x080, 4, 1, .rw, 0x64, 3, 0xFFFFFFFF, 10, 10000⟩,
   ⟨0x084, 4, 1, .ro, 0x0, 3, 0x0, 0, 4294967295⟩,
   ⟨0x088, 4, 1, .ro, 0x0, 3, 0x0, 0, 4294967295⟩,
   ⟨0x08C, 4, 1, .rc, 0x0, 3, 0x0, 0, 4294967295⟩,
   ⟨0x090, 4, 1, .rc, 0x0, 3, 0x0, 0, 4294967295⟩,
   ⟨0x094, 4, 1, .ro, 0x0, 3, 0x0, 0, 4294967295⟩]

/-- The block-specific registers of a page. CLK, CXL and the pages that no register table names have none. -/
def pageRegs : Page → List RegDesc
  | .hall => regsHall
  | .mod => regsMod
  | .til => regsTil
  | .clu => regsClu
  | .arr => regsArr
  | .gd => regsGd
  | .wng => regsWng
  | .cel => regsCel
  | .lnk => regsLnk
  | .rtr => regsRtr
  | .rtb => regsRtb
  | .vca => regsVca
  | .cmap => regsCmap
  | .col => regsCol
  | .pan => regsPan
  | .grp => regsGrp
  | .opt => regsOpt
  | .bel => regsBel
  | .agt => regsAgt
  | .eth => regsEth
  | .msec => regsMsec
  | .knk => regsKnk
  | .ptp => regsPtp
  | .mbx => regsMbx
  | .sec => regsSec
  | .att => regsAtt
  | .key => regsKey
  | .dbg => regsDbg
  | .toc => regsToc
  | .recorder => regsRec
  | .rst => regsRst
  | .pwr => regsPwr
  | .thm => regsThm
  | .msr => regsMsr
  | .clk => [] | .cxl => []

/-! Names of the registers. A register of a page that stands once is named by its key (block number times 0x1000
plus offset); one of a page that stands several times by its offset alone. -/

abbrev Reg.HALL_PORT_PRESENT : Nat := 0x10080
abbrev Reg.HALL_TIMEOUT : Nat := 0x10084
abbrev Reg.HALL_WEIGHT0 : Nat := 0x10088
abbrev Reg.HALL_WEIGHT1 : Nat := 0x1008C
abbrev Reg.HALL_WEIGHT2 : Nat := 0x10090
abbrev Reg.HALL_WEIGHT3 : Nat := 0x10094
abbrev Reg.HALL_WING_STATE : Nat := 0x100C0
abbrev Reg.HALL_UCIE_STATE : Nat := 0x100C4
abbrev Reg.HALL_TIMEOUT_COUNT : Nat := 0x100C8
abbrev Reg.HALL_WING_RESET_COUNT : Nat := 0x100CC
abbrev Reg.MOD_ACCESS_TIMEOUT : Nat := 0x00100
abbrev Reg.MOD_ACCESS_FAULT_COUNT : Nat := 0x00104
abbrev Reg.MOD_ACCESS_LAST : Nat := 0x00108
abbrev Reg.MOD_ACCESS_STATUS : Nat := 0x0010C
abbrev Reg.TIL_SRAM_CE_COUNT : Nat := 0x080
abbrev Reg.TIL_SRAM_UE_COUNT : Nat := 0x084
abbrev Reg.TIL_ACC_PE_COUNT : Nat := 0x088
abbrev Reg.TIL_LAST_UE_ADDR : Nat := 0x08C
abbrev Reg.TIL_FREQ : Nat := 0x090
abbrev Reg.TIL_BLOCKS : Nat := 0x094
abbrev Reg.TIL_SPECIAL : Nat := 0x098
abbrev Reg.CLU_PLL : Nat := 0x080
abbrev Reg.CLU_OPERAND_TIMEOUT : Nat := 0x084
abbrev Reg.CLU_TILES : Nat := 0x088
abbrev Reg.ARR_SUBMIT : Nat := 0x80080
abbrev Reg.ARR_SUBMIT_COUNT : Nat := 0x80084
abbrev Reg.ARR_DONE_COUNT : Nat := 0x80088
abbrev Reg.ARR_REFUSED_COUNT : Nat := 0x8008C
abbrev Reg.ARR_CPL_BASE_LO : Nat := 0x80090
abbrev Reg.ARR_CPL_BASE_HI : Nat := 0x80094
abbrev Reg.ARR_CPL_SIZE : Nat := 0x80098
abbrev Reg.ARR_CPL_HEAD : Nat := 0x8009C
abbrev Reg.ARR_CPL_TAIL : Nat := 0x800A0
abbrev Reg.ARR_TENANT : Nat := 0x800A4
abbrev Reg.ARR_STALL_TIMEOUT : Nat := 0x800A8
abbrev Reg.ARR_NOTIFY : Nat := 0x800AC
abbrev Reg.ARR_CURRENT : Nat := 0x800B0
abbrev Reg.ARR_PASSES : Nat := 0x800B4
abbrev Reg.ARR_TILES_USED : Nat := 0x800B8
abbrev Reg.ARR_CPL_LOST_COUNT : Nat := 0x800BC
abbrev Reg.GD_STATE : Nat := 0x080
abbrev Reg.GD_CE_COUNT : Nat := 0x084
abbrev Reg.GD_UE_COUNT : Nat := 0x088
abbrev Reg.GD_LAST_UE_LO : Nat := 0x08C
abbrev Reg.GD_LAST_UE_HI : Nat := 0x090
abbrev Reg.GD_PIN_LAST : Nat := 0x094
abbrev Reg.GD_PIN_LIMIT : Nat := 0x098
abbrev Reg.GD_ONDIE_COUNT : Nat := 0x09C
abbrev Reg.GD_PATROL_PERIOD : Nat := 0x0A0
abbrev Reg.GD_RETRAIN_PERIOD : Nat := 0x0A4
abbrev Reg.GD_TRAIN_TIMEOUT : Nat := 0x0A8
abbrev Reg.WNG_RGN_BOUND : Nat := 0x080
abbrev Reg.WNG_RGN_OWNER : Nat := 0x084
abbrev Reg.WNG_PROTECT_COUNT : Nat := 0x100
abbrev Reg.WNG_PROTECT_LAST : Nat := 0x104
abbrev Reg.CEL_PORT_STATE : Nat := 0x4C080
abbrev Reg.CEL_CXL_TIMEOUT : Nat := 0x4C084
abbrev Reg.CEL_SWEEP_SHARE : Nat := 0x4C088
abbrev Reg.CEL_UE_COUNT : Nat := 0x4C08C
abbrev Reg.CEL_FAULT_COUNT : Nat := 0x4C090
abbrev Reg.CEL_LAST_FAULT : Nat := 0x4C094
abbrev Reg.CEL_TIMEOUT_COUNT : Nat := 0x4C098
abbrev Reg.CEL_SWEEP : Nat := 0x4C0A0
abbrev Reg.CEL_CAPP : Nat := 0x4C0B0
abbrev Reg.CEL_CE_SUBMIT : Nat := 0x4C100
abbrev Reg.CEL_CE_TENANT : Nat := 0x4C104
abbrev Reg.CEL_CE_NOTIFY : Nat := 0x4C108
abbrev Reg.CEL_CE_DONE : Nat := 0x4C10C
abbrev Reg.CEL_TKEY : Nat := 0x4C800
abbrev Reg.LNK_LANE_GOOD : Nat := 0x080
abbrev Reg.LNK_LANE_ACTIVE : Nat := 0x084
abbrev Reg.LNK_MIN_WIDTH : Nat := 0x088
abbrev Reg.LNK_LANE_LIMIT : Nat := 0x08C
abbrev Reg.LNK_KEY_LIMIT : Nat := 0x090
abbrev Reg.LNK_REPLAY_LIMIT : Nat := 0x094
abbrev Reg.LNK_TAG_LIMIT : Nat := 0x098
abbrev Reg.LNK_TRAIN_TIMEOUT : Nat := 0x09C
abbrev Reg.LNK_SILENCE_TIMEOUT : Nat := 0x0A0
abbrev Reg.LNK_RETRY_INTERVAL : Nat := 0x0A4
abbrev Reg.LNK_DELAY : Nat := 0x0A8
abbrev Reg.LNK_HOLD_LAST : Nat := 0x0AC
abbrev Reg.LNK_EXPECT_CTRL : Nat := 0x0B0
abbrev Reg.LNK_EXPECT_SERIAL_LO : Nat := 0x0B4
abbrev Reg.LNK_EXPECT_SERIAL_HI : Nat := 0x0B8
abbrev Reg.LNK_ADMIT : Nat := 0x0BC
abbrev Reg.LNK_PEER_SERIAL_LO : Nat := 0x0C0
abbrev Reg.LNK_PEER_SERIAL_HI : Nat := 0x0C4
abbrev Reg.LNK_PEER_ID : Nat := 0x0C8
abbrev Reg.LNK_PEER_PORT : Nat := 0x0CC
abbrev Reg.LNK_PEER_CAP_LO : Nat := 0x0D0
abbrev Reg.LNK_PEER_CAP_HI : Nat := 0x0D4
abbrev Reg.LNK_PEER_DIGEST0 : Nat := 0x0D8
abbrev Reg.LNK_TX_FRAMES_LO : Nat := 0x100
abbrev Reg.LNK_TX_FRAMES_HI : Nat := 0x104
abbrev Reg.LNK_RX_FRAMES_LO : Nat := 0x108
abbrev Reg.LNK_RX_FRAMES_HI : Nat := 0x10C
abbrev Reg.LNK_REPLAY_COUNT : Nat := 0x110
abbrev Reg.LNK_FEC_UE_COUNT : Nat := 0x114
abbrev Reg.LNK_CRC_COUNT : Nat := 0x118
abbrev Reg.LNK_TAG_COUNT : Nat := 0x11C
abbrev Reg.LNK_WIDTH_CHANGE_COUNT : Nat := 0x120
abbrev Reg.LNK_ROTATE_COUNT : Nat := 0x124
abbrev Reg.LNK_TRAIN_COUNT : Nat := 0x128
abbrev Reg.LNK_DISCARD_COUNT : Nat := 0x12C
abbrev Reg.LNK_LANE_CE : Nat := 0x180
abbrev Reg.RTR_MA : Nat := 0x28080
abbrev Reg.RTR_DATELINE : Nat := 0x28084
abbrev Reg.RTR_HOP_AGE : Nat := 0x28088
abbrev Reg.RTR_OP_TIMEOUT : Nat := 0x2808C
abbrev Reg.RTR_VC_MIN : Nat := 0x28090
abbrev Reg.RTR_VC_MAX : Nat := 0x28094
abbrev Reg.RTR_ACK : Nat := 0x28098
abbrev Reg.RTR_C0_POLICE : Nat := 0x2809C
abbrev Reg.RTR_POOL_FREE : Nat := 0x280A0
abbrev Reg.RTR_HCHK_COUNT : Nat := 0x280C0
abbrev Reg.RTR_AGED_COUNT : Nat := 0x280C4
abbrev Reg.RTR_REFUSED_COUNT : Nat := 0x280C8
abbrev Reg.RTR_EPOCH_STALE_COUNT : Nat := 0x280CC
abbrev Reg.RTR_C0_OVERRUN_COUNT : Nat := 0x280D0
abbrev Reg.RTR_C0_HELD_COUNT : Nat := 0x280D4
abbrev Reg.RTR_VIA_FALLBACK_COUNT : Nat := 0x280D8
abbrev Reg.RTR_MCAST_DROP_COUNT : Nat := 0x280DC
abbrev Reg.RTR_NACK_DROP_COUNT : Nat := 0x280E0
abbrev Reg.RTR_STALE_ACK_COUNT : Nat := 0x280E4
abbrev Reg.RTR_BUF_CE_COUNT : Nat := 0x280E8
abbrev Reg.RTR_BUF_UE_COUNT : Nat := 0x280EC
abbrev Reg.RTR_RA_SUBMIT : Nat := 0x28100
abbrev Reg.RTR_RA_TENANT : Nat := 0x28104
abbrev Reg.RTR_RA_NOTIFY : Nat := 0x28108
abbrev Reg.RTR_RA_DONE : Nat := 0x2810C
abbrev Reg.RTR_RA_QUEUED : Nat := 0x28110
abbrev Reg.RTB_LIVE_EPOCH : Nat := 0x29080
abbrev Reg.RTB_BANK_STATE : Nat := 0x29084
abbrev Reg.RTB_EPOCH0 : Nat := 0x29088
abbrev Reg.RTB_EPOCH1 : Nat := 0x2908C
abbrev Reg.RTB_SALT0 : Nat := 0x29090
abbrev Reg.RTB_SALT1 : Nat := 0x29094
abbrev Reg.RTB_MAX_HOPS0 : Nat := 0x29098
abbrev Reg.RTB_MAX_HOPS1 : Nat := 0x2909C
abbrev Reg.RTB_SEAL : Nat := 0x290A0
abbrev Reg.RTB_UNSEAL : Nat := 0x290A4
abbrev Reg.RTB_FLIP : Nat := 0x290A8
abbrev Reg.RTB_DRAIN : Nat := 0x290AC
abbrev Reg.RTB_DRAIN_LEFT : Nat := 0x290B0
abbrev Reg.RTB_HOLD_COUNT : Nat := 0x290B4
abbrev Reg.RTB_FLIP_COUNT : Nat := 0x290B8
abbrev Reg.VCA_WEIGHT : Nat := 0x2A080
abbrev Reg.VCA_C0_LIMIT : Nat := 0x2A084
abbrev Reg.CMAP_LAST : Nat := 0x2B080
abbrev Reg.CMAP_LOST_COUNT : Nat := 0x2B084
abbrev Reg.CMAP_REC_A : Nat := 0x2B400
abbrev Reg.CMAP_REC_B : Nat := 0x2B600
abbrev Reg.COL_SUBMIT : Nat := 0x30080
abbrev Reg.COL_TENANT : Nat := 0x30084
abbrev Reg.COL_NOTIFY : Nat := 0x30088
abbrev Reg.COL_DONE : Nat := 0x3008C
abbrev Reg.COL_QUEUED : Nat := 0x30090
abbrev Reg.COL_ACTIVE : Nat := 0x30094
abbrev Reg.COL_JOIN_TIMEOUT : Nat := 0x30098
abbrev Reg.COL_PROGRESS_TIMEOUT : Nat := 0x3009C
abbrev Reg.COL_QUOTA_DEFAULT : Nat := 0x300A0
abbrev Reg.COL_OPEN_RESEND : Nat := 0x300A4
abbrev Reg.COL_ABORT_COUNT : Nat := 0x300C0
abbrev Reg.COL_MISMATCH_COUNT : Nat := 0x300C4
abbrev Reg.COL_CRC_COUNT : Nat := 0x300C8
abbrev Reg.COL_STALE_COUNT : Nat := 0x300CC
abbrev Reg.COL_OPEN_DROP_COUNT : Nat := 0x300D0
abbrev Reg.COL_LAST_ABORT : Nat := 0x300D4
abbrev Reg.COL_LAST_CAUSE : Nat := 0x300D8
abbrev Reg.PAN_SLOTS_FREE : Nat := 0x31080
abbrev Reg.PAN_SLOTS_LOW : Nat := 0x31084
abbrev Reg.PAN_CE_COUNT : Nat := 0x31088
abbrev Reg.PAN_UE_COUNT : Nat := 0x3108C
abbrev Reg.PAN_LAST_UE : Nat := 0x31090
abbrev Reg.PAN_COMBINED : Nat := 0x31094
abbrev Reg.GRP_WRITE_STATUS : Nat := 0x32080
abbrev Reg.GRP_DISABLE : Nat := 0x32084
abbrev Reg.GRP_VALID_COUNT : Nat := 0x32088
abbrev Reg.OPT_FREE : Nat := 0x38080
abbrev Reg.OPT_LOW : Nat := 0x38084
abbrev Reg.OPT_WAIT_COUNT : Nat := 0x38088
abbrev Reg.BEL_ROLE : Nat := 0x68080
abbrev Reg.BEL_TERM : Nat := 0x68084
abbrev Reg.BEL_HB_PERIOD : Nat := 0x68088
abbrev Reg.BEL_HB_MISS : Nat := 0x6808C
abbrev Reg.BEL_FENCE_MISS : Nat := 0x68090
abbrev Reg.BEL_PROBE_TIMEOUT : Nat := 0x68094
abbrev Reg.BEL_CLAIM_STAGGER : Nat := 0x68098
abbrev Reg.BEL_PEAL_PACE : Nat := 0x6809C
abbrev Reg.BEL_ALIVE : Nat := 0x680A0
abbrev Reg.BEL_TAKEOVER_COUNT : Nat := 0x680C0
abbrev Reg.BEL_FENCE_COUNT : Nat := 0x680C4
abbrev Reg.BEL_HB_LATE_COUNT : Nat := 0x680C8
abbrev Reg.BEL_CALL_A : Nat := 0x68800
abbrev Reg.BEL_CALL_B : Nat := 0x68900
abbrev Reg.AGT_STATE : Nat := 0x69080
abbrev Reg.AGT_PORT_PLAN : Nat := 0x69084
abbrev Reg.AGT_TERM : Nat := 0x69088
abbrev Reg.AGT_MANAGER : Nat := 0x6908C
abbrev Reg.AGT_MODE : Nat := 0x69090
abbrev Reg.AGT_VOTER01 : Nat := 0x69094
abbrev Reg.AGT_VOTER2 : Nat := 0x69098
abbrev Reg.AGT_VOTE_WINDOW : Nat := 0x6909C
abbrev Reg.AGT_TERM_STALE_COUNT : Nat := 0x690A0
abbrev Reg.AGT_CLAIM_INVALID_COUNT : Nat := 0x690A4
abbrev Reg.AGT_VOTE_EXPIRED_COUNT : Nat := 0x690A8
abbrev Reg.AGT_VOTE_DISAGREE_COUNT : Nat := 0x690AC
abbrev Reg.AGT_RELAY_DROP_COUNT : Nat := 0x690B0
abbrev Reg.AGT_PEAL_STATE : Nat := 0x690B4
abbrev Reg.AGT_PEAL_HELD : Nat := 0x690B8
abbrev Reg.AGT_PEAL_REPAIR_TIMEOUT : Nat := 0x690BC
abbrev Reg.AGT_PEAL_IDLE_TIMEOUT : Nat := 0x690C0
abbrev Reg.AGT_PEAL_CAMPAIGN_TIMEOUT : Nat := 0x690C4
abbrev Reg.AGT_PEAL_REPAIR_COUNT : Nat := 0x690C8
abbrev Reg.AGT_PLAN_DIGEST0 : Nat := 0x690D0
abbrev Reg.RTB_DIMS : Nat := 0x29100
abbrev Reg.RTB_LINE_X : Nat := 0x29104
abbrev Reg.RTB_LINE_Y : Nat := 0x29108
abbrev Reg.RTB_LINE_Z : Nat := 0x2910C
abbrev Reg.RTB_GEN : Nat := 0x29110
abbrev Reg.RTB_GEN_COUNT : Nat := 0x29114
abbrev Reg.RTB_GEN_LAST : Nat := 0x29118
abbrev Reg.AGT_CMAP_PERIOD : Nat := 0x69100
abbrev Reg.AGT_CMAP_SENT : Nat := 0x69104
abbrev Reg.ETH_LINK : Nat := 0x40080
abbrev Reg.ETH_MODE : Nat := 0x40084
abbrev Reg.ETH_MAC_LO : Nat := 0x40088
abbrev Reg.ETH_MAC_HI : Nat := 0x4008C
abbrev Reg.ETH_VLAN : Nat := 0x40090
abbrev Reg.ETH_IPV4 : Nat := 0x40094
abbrev Reg.ETH_IPV6 : Nat := 0x40098
abbrev Reg.ETH_TOSTO_PORT : Nat := 0x400A8
abbrev Reg.ETH_SESSION_IDLE : Nat := 0x400AC
abbrev Reg.ETH_SESSIONS : Nat := 0x400B0
abbrev Reg.ETH_PFC : Nat := 0x400B4
abbrev Reg.ETH_QP_COUNT : Nat := 0x400B8
abbrev Reg.ETH_SLOT : Nat := 0x400C0
abbrev Reg.ETH_DROP_COUNT : Nat := 0x40100
abbrev Reg.ETH_AUTH_FAIL_COUNT : Nat := 0x40104
abbrev Reg.ETH_REPLAY_COUNT : Nat := 0x40108
abbrev Reg.ETH_ROCE_NAK_COUNT : Nat := 0x4010C
abbrev Reg.MSEC_MODE : Nat := 0x41080
abbrev Reg.MSEC_STATUS : Nat := 0x41084
abbrev Reg.MSEC_REPLAY_WINDOW : Nat := 0x41088
abbrev Reg.MSEC_HELLO : Nat := 0x4108C
abbrev Reg.MSEC_UNPROTECTED_COUNT : Nat := 0x41090
abbrev Reg.MSEC_ICV_COUNT : Nat := 0x41094
abbrev Reg.MSEC_SAK_COUNT : Nat := 0x41098
abbrev Reg.KNK_COUNTER_LO : Nat := 0x42080
abbrev Reg.KNK_COUNTER_HI : Nat := 0x42084
abbrev Reg.KNK_ACCEPT_COUNT : Nat := 0x42088
abbrev Reg.KNK_REJECT_COUNT : Nat := 0x4208C
abbrev Reg.KNK_RATE_DROP_COUNT : Nat := 0x42090
abbrev Reg.KNK_LAST : Nat := 0x42094
abbrev Reg.PTP_STATE : Nat := 0x43080
abbrev Reg.PTP_DOMAIN : Nat := 0x43084
abbrev Reg.PTP_TRANSPORT : Nat := 0x43088
abbrev Reg.PTP_GM_LO : Nat := 0x4308C
abbrev Reg.PTP_GM_HI : Nat := 0x43090
abbrev Reg.PTP_OFFSET : Nat := 0x43094
abbrev Reg.PTP_LOCK_NS : Nat := 0x43098
abbrev Reg.PTP_CAL_LO : Nat := 0x4309C
abbrev Reg.PTP_CAL_HI : Nat := 0x430A0
abbrev Reg.PTP_STEP_COUNT : Nat := 0x430A4
abbrev Reg.MBX_SIGNAL_LO : Nat := 0x50080
abbrev Reg.MBX_SIGNAL_HI : Nat := 0x50084
abbrev Reg.MBX_NONEMPTY_LO : Nat := 0x50088
abbrev Reg.MBX_NONEMPTY_HI : Nat := 0x5008C
abbrev Reg.MBX_LATCH_TIMEOUT : Nat := 0x50090
abbrev Reg.MBX_CE_COUNT : Nat := 0x50094
abbrev Reg.MBX_UE_COUNT : Nat := 0x50098
abbrev Reg.MBX_FULL_COUNT : Nat := 0x5009C
abbrev Reg.MBX_DISCARD_COUNT : Nat := 0x500A0
abbrev Reg.MBX_LATCH_EXPIRED_COUNT : Nat := 0x500A4
abbrev Reg.MBX_DB_DROP_COUNT : Nat := 0x500A8
abbrev Reg.MBX_TX_POST : Nat := 0x50100
abbrev Reg.MBX_TX_REMOTE : Nat := 0x50104
abbrev Reg.MBX_TX_STATUS : Nat := 0x50108
abbrev Reg.MBX_TX_DATA : Nat := 0x50400
abbrev Reg.MBXM_LATCH : Nat := 0x50800
abbrev Reg.MBXM_RX : Nat := 0x50804
abbrev Reg.MBXM_DATA : Nat := 0x50808
abbrev Reg.MBXM_RXINFO : Nat := 0x5080C
abbrev Reg.MBXM_CFG : Nat := 0x50810
abbrev Reg.MBXM_STATE : Nat := 0x50814
abbrev Reg.MBXM_DB : Nat := 0x50818
abbrev Reg.MBXM_DBMASK : Nat := 0x5081C
abbrev Reg.SEC_LC : Nat := 0x58080
abbrev Reg.SEC_IDCODE : Nat := 0x58084
abbrev Reg.SEC_OWNER_ID0 : Nat := 0x58088
abbrev Reg.SEC_BINDING : Nat := 0x580A8
abbrev Reg.SEC_KEYS : Nat := 0x580AC
abbrev Reg.SEC_DELIVER_COUNT : Nat := 0x580B0
abbrev Reg.SEC_DELIVER_FAIL_COUNT : Nat := 0x580B4
abbrev Reg.SEC_DELIVER_LAST : Nat := 0x580B8
abbrev Reg.SEC_LC_FAIL_COUNT : Nat := 0x580BC
abbrev Reg.ATT_REPORT_COUNT : Nat := 0x5A080
abbrev Reg.ATT_UNSEALS : Nat := 0x5A084
abbrev Reg.ATT_M_PROG0 : Nat := 0x5A0C0
abbrev Reg.ATT_M_WEIGHT0 : Nat := 0x5A100
abbrev Reg.ATT_SR_DIGEST0 : Nat := 0x5A140
abbrev Reg.ATT_PARLOUR_DIGEST0 : Nat := 0x5A180
abbrev Reg.KEY_STORE_STATE : Nat := 0x59080
abbrev Reg.KEY_UNSEAL_STATE : Nat := 0x59084
abbrev Reg.KEY_RANGE : Nat := 0x59400
abbrev Reg.KEY_T : Nat := 0x59800
abbrev Reg.DBG_MODE : Nat := 0x5B080
abbrev Reg.DBG_LEASE_LEFT : Nat := 0x5B084
abbrev Reg.DBG_CHALLENGE0 : Nat := 0x5B088
abbrev Reg.DBG_UNLOCK_COUNT : Nat := 0x5B0A8
abbrev Reg.DBG_UNLOCK_FAIL_COUNT : Nat := 0x5B0AC
abbrev Reg.DBG_CORE_STATE : Nat := 0x5B0B0
abbrev Reg.TOC_ERRN : Nat := 0x60080
abbrev Reg.TOC_ERRN_PULSE : Nat := 0x60084
abbrev Reg.TOC_FAULT_COUNT : Nat := 0x60088
abbrev Reg.TOC_SEVERE_COUNT : Nat := 0x6008C
abbrev Reg.TOC_FIRST : Nat := 0x60090
abbrev Reg.TOC_LAST : Nat := 0x60094
abbrev Reg.TOC_RAILTEST : Nat := 0x60098
abbrev Reg.TOC_OVERRUN_LAST : Nat := 0x6009C
abbrev Reg.TOC_EVENT_COUNT : Nat := 0x600A0
abbrev Reg.TOC_SRC_CFG : Nat := 0x60400
abbrev Reg.TOC_SRC_STATE : Nat := 0x60800
abbrev Reg.TOC_PENDING : Nat := 0x60900
abbrev Reg.TOC_SRC_COUNT : Nat := 0x60C00
abbrev Reg.BEL_SWITCH : Nat := 0x68100
abbrev Reg.BEL_SWITCH_STATE : Nat := 0x68104
abbrev Reg.BEL_WATCHDOG : Nat := 0x68108
abbrev Reg.BEL_HEALTH : Nat := 0x6810C
abbrev Reg.BEL_HEALTH_AGE : Nat := 0x68110
abbrev Reg.BEL_HEALTH_LIMIT : Nat := 0x68114
abbrev Reg.BEL_SWITCH_COUNT : Nat := 0x68118
abbrev Reg.REC_PERM_FILL : Nat := 0x61080
abbrev Reg.REC_CIRC_HEAD : Nat := 0x61084
abbrev Reg.REC_NEXT_NUM_LO : Nat := 0x61088
abbrev Reg.REC_NEXT_NUM_HI : Nat := 0x6108C
abbrev Reg.REC_LOST_COUNT : Nat := 0x61090
abbrev Reg.REC_LOST_PENDING : Nat := 0x61094
abbrev Reg.REC_SCAN : Nat := 0x61098
abbrev Reg.REC_FREEZE_LIMIT : Nat := 0x6109C
abbrev Reg.REC_CLEAR_COUNT : Nat := 0x610A0
abbrev Reg.REC_READ_SEL : Nat := 0x610A4
abbrev Reg.REC_READ_DATA : Nat := 0x61100
abbrev Reg.REC_SW_DATA : Nat := 0x61140
abbrev Reg.REC_SW_APPEND : Nat := 0x61158
abbrev Reg.RST_REQUEST : Nat := 0x04080
abbrev Reg.RST_ACTIVE : Nat := 0x04084
abbrev Reg.RST_LAST : Nat := 0x04088
abbrev Reg.RST_M_COUNT : Nat := 0x0408C
abbrev Reg.RST_W_COUNT : Nat := 0x04090
abbrev Reg.RST_CT_COUNT : Nat := 0x04094
abbrev Reg.RST_RESETN_COUNT : Nat := 0x04098
abbrev Reg.PWR_STATE : Nat := 0x02080
abbrev Reg.PWR_TARGET : Nat := 0x02084
abbrev Reg.PWR_SCRUB : Nat := 0x02088
abbrev Reg.PWR_CHANGE_TIME : Nat := 0x0208C
abbrev Reg.MOD_FP_SHIP0 : Nat := 0x00200
abbrev Reg.MOD_FP_BOOT0 : Nat := 0x00240
abbrev Reg.MOD_FP_GRADE0 : Nat := 0x00280
abbrev Reg.MOD_FP_COUNT : Nat := 0x00300
abbrev Reg.MOD_BOOT : Nat := 0x00304
abbrev Reg.PWR_FEED_A : Nat := 0x02100
abbrev Reg.PWR_FEED_B : Nat := 0x02104
abbrev Reg.PWR_INPUT : Nat := 0x02108
abbrev Reg.PWR_PEAK : Nat := 0x0210C
abbrev Reg.PWR_FEED_STATE : Nat := 0x02110
abbrev Reg.PWR_FEED_LOSS_COUNT : Nat := 0x02114
abbrev Reg.THM_DIE : Nat := 0x03080
abbrev Reg.THM_WARN : Nat := 0x030A4
abbrev Reg.THM_CRITICAL : Nat := 0x030A8
abbrev Reg.THM_STATE : Nat := 0x030AC
abbrev Reg.THM_CAP_COUNT : Nat := 0x030B0
abbrev Reg.MSR_PERIOD : Nat := 0x6A080
abbrev Reg.MSR_NUMBER_LO : Nat := 0x6A084
abbrev Reg.MSR_NUMBER_HI : Nat := 0x6A088
abbrev Reg.MSR_SYNC_ACCEPT_COUNT : Nat := 0x6A08C
abbrev Reg.MSR_SYNC_REJECT_COUNT : Nat := 0x6A090
abbrev Reg.MSR_LAST_SHIFT : Nat := 0x6A094

end Sys2Proof.Machine
end

