-- ==== Sys2Proof/Machine/Bits.lean ====
section
/-! DEFINITION. Bit fields, byte order and the two checks the spec computes over bytes: CRC-32C (R209) and CRC-64
(R275). All of it works on natural numbers and lists of bytes, so that the kernel can evaluate it. -/

namespace Sys2Proof.Machine

/-- Bits [hi:lo] of a number (R10). -/
def bits (w hi lo : Nat) : Nat := (w >>> lo) % 2 ^ (hi + 1 - lo)

/-- Bit `i` of a number. -/
def bit (w i : Nat) : Bool := w.testBit i

/-- The number 1 or 0 for a flag. -/
def b2n (b : Bool) : Nat := if b then 1 else 0

/-- A number as 32-bit register contents. -/
def toWord (n : Nat) : Word := BitVec.ofNat 32 n

/-- `n` with bit `i` set. -/
def setBit (n i : Nat) : Nat := n ||| (1 <<< i)

/-- `n` with bit `i` clear. -/
def clearBit (n i : Nat) : Nat := if n.testBit i then n - 2 ^ i else n

/-- `n` with bits [hi:lo] replaced by `v`. -/
def setBits (n hi lo v : Nat) : Nat :=
  n - (bits n hi lo) <<< lo + (v % 2 ^ (hi + 1 - lo)) <<< lo

/-- The number of 1 bits among the lowest `k` bits. -/
def popCount : Nat → Nat → Nat
  | 0, _ => 0
  | k + 1, n => popCount k n + b2n (n.testBit k)

/-- The `k` lowest bytes of a number, least significant first (R10: little-endian). -/
def leBytes : Nat → Nat → List Byte
  | 0, _ => []
  | k + 1, n => BitVec.ofNat 8 n :: leBytes k (n / 256)

/-- The number a little-endian list of bytes spells. -/
def ofLE : List Byte → Nat
  | [] => 0
  | b :: bs => b.toNat + 256 * ofLE bs

/-- The number a big-endian list of bytes spells. -/
def ofBE (bs : List Byte) : Nat := ofLE bs.reverse

/-- The `k` lowest bytes of a number, most significant first. -/
def beBytes (k n : Nat) : List Byte := (leBytes k n).reverse

/-- `len` bytes of a list from `off`, missing ones 0. -/
def slice (bs : List Byte) (off len : Nat) : List Byte :=
  ((bs.drop off).take len) ++ List.replicate (len - ((bs.drop off).take len).length) 0

/-- The little-endian field of `len` bytes at `off`. -/
def field (bs : List Byte) (off len : Nat) : Nat := ofLE (slice bs off len)

/-- The first `k` bytes of a list, padded with zero bytes to `k`. -/
def padTo (k : Nat) (bs : List Byte) : List Byte := slice bs 0 k

/-- A two's complement number of `k` bits as an integer. -/
def signed (k n : Nat) : Int := if n.testBit (k - 1) then (n % 2 ^ k : Nat) - (2 ^ k : Int) else (n % 2 ^ k : Nat)

/-- An integer as the natural number of its `k`-bit two's complement form. -/
def unsigned (k : Nat) (x : Int) : Nat := (x % (2 ^ k : Int)).toNat

/-- Addition that stops at `2^k - 1`. -/
def satAdd (k a b : Nat) : Nat := min (a + b) (2 ^ k - 1)

/-- `k` shifts of a reflected CRC register. -/
def crcShift (poly : Nat) : Nat → Nat → Nat
  | 0, r => r
  | k + 1, r => crcShift poly k (if r.testBit 0 then (r >>> 1) ^^^ poly else r >>> 1)

/-- A reflected CRC register after a list of bytes. -/
def crcBytes (poly : Nat) : Nat → List Byte → Nat
  | r, [] => r
  | r, b :: bs => crcBytes poly (crcShift poly 8 (r ^^^ b.toNat)) bs

/-- CRC-32C as R209 and R481 use it: reflected polynomial 0x82F6_3B78, initial value 0xFFFF_FFFF, result
complemented. -/
def crc32c (bs : List Byte) : Nat := crcBytes 0x82F63B78 0xFFFFFFFF bs ^^^ 0xFFFFFFFF

/-- The first element a test names, and the list without it. -/
def takeFirst {α : Type} (p : α → Bool) : List α → Option (α × List α)
  | [] => none
  | x :: xs => if p x then some (x, xs) else (takeFirst p xs).map (fun r => (r.1, x :: r.2))

/-- A list with the first element a test names changed. -/
def mapFirst {α : Type} (p : α → Bool) (f : α → α) : List α → List α
  | [] => []
  | x :: xs => if p x then f x :: xs else x :: mapFirst p f xs

/-- The element of a list at an index, or a value when there is none. -/
def listAt {α : Type} (d : α) : List α → Nat → α
  | [], _ => d
  | a :: _, 0 => a
  | _ :: as, i + 1 => listAt d as i

/-- A list with the element at an index changed. -/
def listSet {α : Type} : List α → Nat → α → List α
  | [], _, _ => []
  | _ :: as, 0, b => b :: as
  | a :: as, i + 1, b => a :: listSet as i b

/-- The numbers from `a` upward, `n` of them. -/
def upFrom : Nat → Nat → List Nat
  | _, 0 => []
  | a, n + 1 => a :: upFrom (a + 1) n

end Sys2Proof.Machine
end

