-- ==== Sys2Proof/Machine/SMap.lean ====
section
/-! DEFINITION. Sparse maps: a list of key and value pairs in one canonical form (keys strictly rising, no entry equal
to what an unlisted key reads as), so that equal maps are equal data. The default is a function of the key that the
caller names; it is no part of the data. -/

namespace Sys2Proof.Machine

/-- A sparse map from natural keys. -/
abbrev SMap (α : Type) := List (Nat × α)

/-- The value at a key; `d` gives what an unlisted key reads as. -/
def SMap.get {α : Type} (d : Nat → α) : SMap α → Nat → α
  | [], k => d k
  | (j, v) :: m, k => if j = k then v else SMap.get d m k

/-- Remove the keys a test names: they read as their default again. -/
def SMap.erase {α : Type} (p : Nat → Bool) (m : SMap α) : SMap α := m.filter (fun e => !p e.1)

/-- The map with the value at one key replaced; a canonical map stays canonical. -/
def SMap.put {α : Type} [DecidableEq α] (d : Nat → α) : SMap α → Nat → α → SMap α
  | [], k, v => if v = d k then [] else [(k, v)]
  | (j, w) :: m, k, v =>
    if k < j then (if v = d k then SMap.erase (fun i => i == k) ((j, w) :: m) else (k, v) :: (j, w) :: m)
    else if k = j then (if v = d k then SMap.erase (fun i => i == k) m else (k, v) :: m)
    else (j, w) :: SMap.put d m k v

/-- Every key of a map lies above a bound and the keys rise. -/
def SMap.risesFrom {α : Type} : Nat → SMap α → Bool
  | _, [] => true
  | b, (j, _) :: m => decide (b ≤ j) && SMap.risesFrom (j + 1) m

/-- The canonical form: keys strictly rising and no entry that equals its key's default. -/
def SMap.wf {α : Type} [DecidableEq α] (d : Nat → α) (m : SMap α) : Bool :=
  SMap.risesFrom 0 m && m.all (fun p => decide (p.2 ≠ d p.1))

/-- Every listed value changed, in canonical form; an unlisted key keeps its default. -/
def SMap.mapVals {α : Type} [DecidableEq α] (d : Nat → α) (f : α → α) (m : SMap α) : SMap α :=
  (m.map (fun e => (e.1, f e.2))).filter (fun e => decide (e.2 ≠ d e.1))

/-- Every listed value changed as its key tells, in canonical form. -/
def SMap.mapKV {α : Type} [DecidableEq α] (d : Nat → α) (f : Nat → α → α) (m : SMap α) : SMap α :=
  (m.map (fun e => (e.1, f e.1 e.2))).filter (fun e => decide (e.2 ≠ d e.1))

/-- The keys listed. -/
def SMap.keys {α : Type} (m : SMap α) : List Nat := m.map (·.1)

end Sys2Proof.Machine
end

