-- ==== Sys2Proof/Machine/State.lean ====
section
/-! DEFINITION. The state of the block as plain data, its reset, and the ways a step may stop. A register that a
register table lists stands in `Dev.regs` under its key; what the spec gives the block beside its registers (queues,
tables, tiles, ports, records, keys) stands in the structures below. -/

namespace Sys2Proof.Machine

/-! ## Stops -/

/-- Why the block stops: no command of the spec makes the block itself stop, so no meaning raises a fault. -/
inductive Fault where
  /-- Raised by nothing today; safe. A repair may use it for an access the spec says does not exist. -/
  | noSuchAddress (addr : Nat)
  deriving DecidableEq, Repr

/-- Why a command has no meaning. -/
inductive Refusal where
  /-- Raised by the dispatch for a command whose meaning is not written yet; safe. -/
  | notModelled (mnemonic : String)
  deriving DecidableEq, Repr

/-! ## What the block sends -/

/-- One thing the block gives to the outside or to a part of it that no field of the state holds. The list `Dev.out`
keeps them in order, oldest first. -/
inductive Sent where
  /-- A management access completes at its master (R56, R57). -/
  | access (master addr status data : Nat)
  /-- A core takes an access-fault exception (R57). -/
  | coreException (core : Nat)
  /-- A core takes a non-maskable trap for a source (R455), or the trap of a switch-over (R468, source 1024). -/
  | coreTrap (core source : Nat)
  /-- A core's mailbox interrupt (R407). -/
  | mbxIrq (core mailbox : Nat)
  /-- The Hall forwards a request to its destination port. -/
  | hallForward (src dst tag : Nat)
  /-- The Hall answers a request at its source port. -/
  | hallReply (src dst tag status : Nat)
  /-- The sequencer's abandonment notice (R127). -/
  | abandon (opid status : Nat)
  /-- A GDDR7 controller answers a line request: status and data (R135). -/
  | line (addr status : Nat) (data : List Byte)
  /-- A DATA frame leaves a port: SEQ, VC, key generation, START, COUNT, payload; `replay` for a stored one (R192); and its codeword
  (R173). -/
  | dataFrame (port seq vc gen start count : Nat) (bytes : List Byte) (replay : Bool) (code : List Nat)
  /-- A CTRL frame leaves a port (R191), as its codeword too. -/
  | ctrlFrame (port seq ack : Nat) (nak rot rotack : Bool) (credits : List Nat) (gen nonce : Nat) (code : List Nat)
  /-- The rate word that every lane of a port sends in DETECT (R182). -/
  | rateWord (port word : Nat)
  /-- An introduction leaves a port (R183), as its codeword too. -/
  | intro (port : Nat) (i : Intro) (code : List Nat)
  /-- KX1, KX2 or KX3 leaves a port (R186): the message, and the codewords of the KEYX frames that carry its fragments. -/
  | keyMsg (port n : Nat) (message : List Byte) (code : List (List Nat))
  /-- Lane-change (with a mask) or lane-ready ordered sets leave a port (R195). -/
  | laneSets (port mask : Nat) (ready : Bool)
  /-- A Tosto message leaves the host port; its `src` names where it goes (R366). -/
  | tosto (m : TMsg)
  /-- An IMAGE GET leaves for the image server: kind, piece, offset (R375). -/
  | imageGet (kind piece off : Nat)
  /-- The hardware answers a frame: 0 ARP, 1 neighbour solicitation, 2 echo (R365). -/
  | ethAnswer (kind : Nat)
  /-- The RoCEv2 responder answers: ACK, NAK (0 PSN Sequence Error, 1 Invalid Request, 2 Remote Access Error, 3 Remote
  Operational Error), RNR NAK, READ responses by their data, or a CNP (R379, R381). -/
  | roceAck (qpn psn : Nat)
  | roceNak (qpn psn code : Nat)
  | roceRnr (qpn psn : Nat)
  | roceRead (qpn psn : Nat) (data : List Byte)
  | roceCnp (qpn : Nat)
  /-- A Knock reply (R386): addressee and the bytes of its payload. -/
  | knockReply (dest : Nat) (payload : List Byte)
  /-- Strongroom sends an MKA frame: 0 hello, 1 request for a new SAK, 2 installation answer (R376). -/
  | mka (kind : Nat)
  /-- The PTP block sends a Delay_Req (R382). -/
  | delayReq
  /-- Parlour or the agent reports to owner software or to the manager: 0 a bank released (R235), 1 EPOCH_STALE met (R238),
  2 discovery outcome, 3 blocked pairs, 4 slice state, 5 drain state, 6 the order to scrub a tenant at a member, 7 a port's entry to QUARANTINE or MISWIRED (R188), 8 the manager state
  as `Manager.copied` holds it is copied to the standby's SYSTEM window in C3 (R310), 9 a link of the fabric map (R354), with a
  subject and a value. -/
  | report (kind subject value : Nat)
  /-- A STANDBY write appoints a candidate (R310): its MA, the term. -/
  | appoint (ma term : Nat)
  /-- The PMBus target answers a command (R533): its code and the value's bytes; or releases the bus. -/
  | pmbus (code : Nat) (data : List Byte)
  | pmbusRelease
  /-- The debug port answers (R437, R438): a core's register, or what a JTAG instruction shifts out (IDCODE). -/
  | debugValue (what value : Nat)
  deriving DecidableEq, Repr

/-- The supplies of the power domains of R40: switch core, the base of each wing and each half-wing as bit maps. -/
structure Powered where
  aon : Bool
  core : Bool
  wings : Nat
  halves : Nat
  deriving DecidableEq, Repr

/-! ## Clocks, access path, Hall -/

/-- The two clocks of the always-on domain: `aon` counts its 100 MHz ticks since P and is never stepped (R36); `cal` is
the calendar time in ns (R382). -/
structure Clocks where
  aon : Nat
  cal : Nat
  deriving DecidableEq, Repr

/-- A management access that waits for its page, or behind an earlier one of its master to the same page (R38, R46, R56): `st` is
what checks 1-6 gave when it was issued, `entry` says that it is an entry of a Tosto message (R371), and `answer` is what its page has
answered when its message has not taken that up yet. -/
structure Access1 where
  master : Nat
  addr : Nat
  write : Bool
  width : Nat
  value : Nat
  st : Nat
  entry : Bool
  answer : Option Nat := none
  deriving DecidableEq, Repr

/-- One write of a message: address, width in bytes, value (R372). -/
structure RegEntry where
  addr : Nat
  width : Nat
  value : Nat
  deriving DecidableEq, Repr

/-- A Tosto request whose next entry waits for its page (R371, R373): the request, the master of its accesses, the entries from the
waiting one on (of a read, or of a write), the entries applied and the bytes of the reply so far. -/
structure MsgRun where
  msg : TMsg
  master : Nat
  reads : List (Nat × Nat)
  writes : List RegEntry
  applied : Nat
  reply : List Byte
  deriving DecidableEq, Repr

/-- The access path: the 64-bit policy entries (R55), accesses whose page has not answered, accesses already completed with TIMEOUT whose answer may
still come, the masters refused once in this measure (R57), and the Tosto requests whose next entry waits (R371). -/
structure AccessPath where
  policy : SMap Nat
  waiting : List Access1
  late : List Access1
  refused : List Nat
  runs : List MsgRun
  deriving DecidableEq, Repr

/-- The Hall's own state beside its registers: requests forwarded and not answered, for each destination port the place of
its weighted round robin (R29: last port served and what is left of its weight), and the requests and the responses with
their status that wait at the crossings while the Hall's island is stopped (R38). -/
structure Hall where
  fwd : List HallReq
  turn : SMap Nat
  left : SMap Nat
  waits : List HallReq
  late : List (HallReq × Nat)
  /-- Source ports and wings for which HALL_TIMEOUT has passed on an access of an engine that its memory has not answered (R31). -/
  expired : List (Nat × Nat)
  deriving DecidableEq, Repr

/-! ## Tocsin and recorder -/

/-- The states of a Tocsin source (R452). -/
inductive SrcState where
  | idle | fault | severe | rail
  deriving DecidableEq, Repr

/-- One Tocsin source: its state, its event count (TOC_SRC_COUNT), and its severity window when one is open: the events
in it and the N and W taken at its opening (R453). -/
structure TocSrc where
  st : SrcState
  count : Nat
  win : Option (Nat × Nat × Nat)
  deriving DecidableEq, Repr

/-- The collector. `pend` holds the toggles a page has still to send, keyed by block number x 32 + bit (R449); `cfg` the
configuration bytes that differ from their defaults, `cfgBad` those whose parity is wrong (R463); `traps` the
non-maskable traps not yet delivered (R456); `pulse` an ERR_N pulse in progress with its HOLD (R460). -/
structure Tocsin where
  src : SMap TocSrc
  pend : SMap Nat
  cfg : SMap Nat
  cfgBad : List Nat
  traps : List Nat
  pulse : Option Bool
  deriving DecidableEq, Repr

/-- What a record carries beside the fields formed at read time (R481). -/
structure RecBody where
  time : Nat
  num : Nat
  kind : Nat
  origin : Nat
  unsync : Bool
  perm : Bool
  source : Nat
  data : List Byte
  deriving DecidableEq, Repr

/-- One MRAM record slot: its five data words as a body, its seal word, and whether a word of it is uncorrectable
(R482). -/
structure RecSlot where
  body : RecBody
  sealWord : Nat
  ue : Bool
  deriving DecidableEq, Repr

/-- A clear in progress (R489): area 1 permanent or 2 both, the NUM of its CLEAR record when that is queued, and whether
the seal words are zeroed. -/
structure RecClear where
  area : Nat
  num : Option Nat
  removed : Nat
  deriving DecidableEq, Repr

/-- The recorder: MRAM slots, the append queue (oldest first), the records held when it was full (R487), and the state
of R484-R491. -/
structure Recorder where
  perm : SMap RecSlot
  circ : SMap RecSlot
  head : Nat
  wrapped : Bool
  nextNum : Nat
  numFloor : Nat
  clears : Nat
  queue : List RecBody
  held : List RecBody
  frozen : Bool
  freezeAt : Option Nat
  frozenLost : Nat
  lossNoted : Bool
  firstLost : Option (Nat × Nat)
  lastLost : Nat
  clear : Option RecClear
  flushing : Bool
  stopped : Bool
  ready : Bool
  deriving DecidableEq, Repr

/-! ## Memory -/

/-- What a 4 KiB Cellar unit holds: bytes written without encryption, data written under a key with a tweak (R152), or
contents the spec calls undefined (R157). -/
inductive CelUnit where
  | raw (bytes : List Byte)
  | enc (key tweak : Nat) (data : List Byte)
  | undef
  deriving DecidableEq, Repr

/-- The memories: GDDR7 by module physical address (R138) and Cellar units by port x 2^29 + unit (R152). -/
structure Mem where
  gd : List Host.Cell
  cel : SMap CelUnit
  deriving DecidableEq, Repr

/-- A line request that waits for its device's recalibration (R133). -/
inductive GdReq where
  | read (addr : Nat) (err : LineErr) (user : MemUser)
  | write (addr : Nat) (bytes : List Byte) (user : MemUser)
  deriving DecidableEq, Repr

/-- The GDDR7 controllers beside their registers: corrections counted by pin in this measure, keyed by wing, device,
channel and pin (R137), the device each wing recalibrates next (R133), the patrol's next line of each device (R163),
the lines found uncorrectable and not yet written whole (R143), and the requests a recalibration holds, by device; and the pins
that have exceeded GD_PIN_LIMIT in this measure (R137). -/
structure Gddr where
  pins : SMap Nat
  exceeded : List Nat
  recal : SMap Nat
  patrol : SMap Nat
  bad : List Nat
  waits : SMap (List GdReq)
  deriving DecidableEq, Repr

/-! ## Tiles and the array -/

/-- The states of TIL_STATUS.STATE (R90). -/
inductive TileSt where
  | off | clearing | idle | busy | disabled
  deriving DecidableEq, Repr

/-- Where a tile's output block lies: item, block row, block column, and for CHAIN which of the two products. -/
structure BlkPos where
  item : Nat
  bm : Nat
  bn : Nat
  second : Bool
  deriving DecidableEq, Repr

/-- The K-block sum registers of a cell (R72, R73, R76): the lower and the upper bank as 48-bit two's complement integers, and the
three flags beside them. -/
structure CellSum where
  lo : Nat
  hi : Nat
  nan : Bool
  pinf : Bool
  ninf : Bool
  deriving DecidableEq, Repr

/-- What a landing brings a port for one K-block (R26, R71): the packed elements of a row or column, and its block scale. -/
structure LandRow where
  bytes : List Byte
  scale : Nat
  deriving DecidableEq, Repr

/-- One tile (R59): state, PARKED as fixed at the last operation start (R91), the block it carries and the K-blocks it has
done; its accumulator bank (1,024 FP32 entries by row x 32 + column; none listed means +0) with the entries whose parity bit is
wrong; its K-block sum registers by cell; its SRAM (256-bit words by bank x 2,048 + word; none listed means zeros) with the words
that hold an uncorrectable error; and what its two landing ports brought last. -/
structure Tile where
  st : TileSt
  parked : Bool
  blk : Option BlkPos
  kdone : Nat
  acc : SMap Nat
  accBad : List Nat
  sums : SMap CellSum
  sram : SMap Nat
  sramBad : List Nat
  portA : List LandRow
  portB : List LandRow
  deriving DecidableEq, Repr

/-- One queued array operation: the 32 descriptor words read at submission, the descriptor address shifted right by 7,
its SEQ, the ETH_SLOT word of the host session that submitted it, 0 for any other master (R96, R99, R103), and whether a flush has
failed it (R126). -/
structure ArrOp where
  words : List Nat
  desc : Nat
  seq : Nat
  submitter : Nat
  dead : Bool
  deriving DecidableEq, Repr

/-- What a pass is (R111, R114, R116), or the row operation of a CHAIN between its two products (R107). -/
inductive PassKind where
  | main | fill | rowop
  deriving DecidableEq, Repr

/-- One pass: its kind and the blocks it gives to tiles; a row operation names the first row and the row count, and as blocks those
whose tiles take its flags. -/
structure ArrPass where
  kind : PassKind
  blocks : List (Nat × BlkPos)
  row : Nat
  rows : Nat
  deriving DecidableEq, Repr

/-- An output write (R118-R121): bytes at an address, bytes at a window offset, or runs of element codes of the
collective's operand. -/
inductive ArrWrite where
  | loc (addr : Nat) (bytes : List Byte)
  | window (offset : Nat) (bytes : List Byte)
  | collective (runs : List (Nat × List Nat))
  deriving DecidableEq, Repr

/-- An output write that its destination has not acknowledged: its number (for a window, its SEQ), the number of its
block, and what it writes. -/
structure ArrOut where
  n : Nat
  block : Nat
  what : ArrWrite
  deriving DecidableEq, Repr

/-- What the landings have carried in a pass (R26, R112): the operand block of a K-block - the side (A or B), the wings it is delivered
to, item, block row or column, K-block, and which product of a CHAIN - with its rows, each read once. -/
structure Landing where
  sideB : Bool
  group : Nat
  item : Nat
  blk : Nat
  kb : Nat
  second : Bool
  rows : List LandRow
  deriving DecidableEq, Repr

/-- The executing operation: the tiles it uses, the passes to come and the current one with the tiles that still work on
it, what the landings have carried in it, the flags so far, the time of its first operand read, its operation-table entry or that it waits for one, the writes
issued and not acknowledged, the blocks one of whose writes has failed, the numbers given to writes and blocks, the blocks
acknowledged, the passes done, the two matrices of a CHAIN (FP32 sums, codes and scales of P by row x 1,024 + column), and the status
it has failed with. -/
structure ArrExec where
  op : ArrOp
  tiles : List Nat
  passes : List ArrPass
  cur : Option ArrPass
  left : List Nat
  landed : List Landing
  flags : Nat
  began : Option Nat
  entry : Option Nat
  waitEntry : Bool
  unacked : List ArrOut
  broken : List Nat
  nextWrite : Nat
  nextBlock : Nat
  acked : Nat
  mainDone : Nat
  fillDone : Nat
  s : SMap Nat
  p : SMap Nat
  psc : SMap Nat
  failed : Option Nat
  deriving DecidableEq, Repr

/-- A completion record that waits for ring space: its 32 bytes, and whether the descriptor asks for the doorbell
(R99). -/
structure CplHeld where
  bytes : List Byte
  notify : Bool
  deriving DecidableEq, Repr

/-- The ARR sequencer beside its registers: the operations queued behind the executing one, the record that waits, and
the abandonment notices on their way to the collective engine (R127: OPID and status). -/
structure Arr where
  queue : List ArrOp
  exec : Option ArrExec
  held : Option CplHeld
  notices : List (Nat × Nat)
  deriving DecidableEq, Repr

/-! ## Cellar and copy engines -/

/-- A Cellar page entry (R149) that differs from all zeros; `bad` says it reads back uncorrectable (R151). -/
structure CelPage where
  valid : Bool
  epoch : Bool
  system : Bool
  tenant : Nat
  sweeping : Bool
  scrubbing : Bool
  bad : Bool
  deriving DecidableEq, Repr

/-- The key state of a Cellar owner (R153, R167): slot keys, current epoch, ROTATING and SWEEP_COUNT. -/
structure CelKey where
  key0 : Option Nat
  key1 : Option Nat
  cur : Bool
  rotating : Bool
  count : Nat
  deriving DecidableEq, Repr

/-- The sweep engine of a port beside CEL_SWEEP (R155): its staging buffer, the pages promoted to be next (R156), the
journal page's contents, and whether a reset of kind M interrupted it (R159). -/
structure Sweep where
  staging : Option CelUnit
  next : List Nat
  journal : Option CelUnit
  resume : Bool
  deriving DecidableEq, Repr

/-- A queued copy (R160): the 16 descriptor words, the descriptor's address. -/
structure CopyOp where
  words : List Nat
  addr : Nat
  deriving DecidableEq, Repr

/-- One copy engine: its queue, whether the head is running, the bytes of the head already moved, a Cellar unit read and
not yet written, the key that its write was allowed under when it began (R150), and the status the head failed with. -/
structure CopyEng where
  queue : List CopyOp
  running : Bool
  moved : Nat
  staging : Option (List Byte)
  granted : Option Nat
  failed : Option Nat
  deriving DecidableEq, Repr

/-- The Cellar beside its registers: timeouts of each port in this measure (R147), page entries, key states by tenant and
of SYSTEM, sweep engines, copy engines, and the CXL IDE key of each port (R146, R419). -/
structure Cellar where
  timeouts : SMap Nat
  pages : SMap CelPage
  keys : SMap CelKey
  sysKey : CelKey
  sweep : SMap Sweep
  eng : SMap CopyEng
  ide : SMap (Option Nat)
  deriving DecidableEq, Repr

/-! ## Mailboxes -/

/-- A message in a FIFO (R395). -/
structure MbxMsg where
  data : List Byte
  remote : Bool
  srcValid : Bool
  src : Nat
  system : Bool
  tenant : Nat
  sepoch : Nat
  deriving DecidableEq, Repr

/-- A local post that waits for FIFO space (R399); `entry` says that it is an entry of a Tosto message (R438). -/
structure MbxWait where
  master : Nat
  msg : MbxMsg
  bell : Option Nat
  entry : Bool := false
  deriving DecidableEq, Repr

/-- One mailbox beside its registers: FIFO, current message and cursor, whether the word whose lower half was read last is
uncorrectable (R402), latch holder (0 none), arbiter pointer, and posts that wait for space. -/
structure Mbx where
  fifo : List MbxMsg
  cur : Option MbxMsg
  cursor : Nat
  bad : Bool
  holder : Nat
  ptr : Nat
  waits : List MbxWait
  deriving DecidableEq, Repr

/-- A remote post in progress (R412): its MBX_POST packet, and its operation-table entry once it has one. -/
structure MbxOut where
  pkt : Packet
  entry : Option Nat
  deriving DecidableEq, Repr

/-- The mailbox page: mailboxes, sender epochs kept in MRAM by master ID (R411), and the remote posts in progress by
master. -/
structure Mailboxes where
  box : SMap Mbx
  epoch : SMap Nat
  remote : SMap (Option MbxOut)
  deriving DecidableEq, Repr

/-! ## Links -/

/-- The states of LNK_STATUS.STATE (R206). -/
inductive LnkSt where
  | down | detect | equalize | align | intro | keying | held | up | hold | quarantine | miswired
  deriving DecidableEq, Repr

/-- A DATA frame in the retry buffer (R190): its fields, and its 280 bytes encrypted as sent. -/
structure TxFrame where
  seq : Nat
  vc : Nat
  gen : Nat
  start : Nat
  count : Nat
  bytes : List Byte
  wire : List Byte
  deriving DecidableEq, Repr

/-- A link key and its salt (R186, R201). -/
structure LinkKey where
  key : Nat
  salt : Nat
  deriving DecidableEq, Repr

/-- The keys of one direction (R200): the generation in use, the two key slots (slot g mod 2 holds generation g), and, in the
transmit direction, the DATA and CTRL frames sent under the key in use (R180). -/
structure LinkKeys where
  gen : Nat
  slot0 : Option LinkKey
  slot1 : Option LinkKey
  dataCount : Nat
  ctrlCount : Nat
  deriving DecidableEq, Repr

/-- Where a lane change stands (R195): not begun, sets sent, lanes chosen, lane-ready sent. -/
inductive HoldStep where
  | none | sets | chosen | ready
  deriving DecidableEq, Repr

/-- One port beside its registers. `saved` is the state before HOLD; `good` the lanes this receiver found good and `bad`
those found bad since; `peerBad` the peer's mask; `intro` the introduction accepted in this attempt and `echoed` that the
peer's LANES echoed this side's own; `secret` the shared secret of a keying exchange this side has answered; `rot` the rotation that awaits ROTACK
(generation, nonce) and `rotSeen` the nonce this side answered a ROT with; credits granted by and to the peer, frames
sent and received by VC; sequence numbers, the expected SEQ, an outstanding NAK and its events; tag failures in this
measure; the retry buffer; the bytes of each VC not yet a packet; the 64-bit frame counts; training attempts since P; the transcript digest
of the keying exchange (R186); the frame slots since the last CTRL frame (R176); the SEQ that a replay under way began at and the
clock's tick when it ends (R192); and the symbols corrected on each lane in this measure (R195). -/
structure Lnk where
  st : LnkSt
  reason : Nat
  miswire : Nat
  compat : Bool
  slow : Bool
  width : Nat
  saved : LnkSt
  good : Nat
  bad : Nat
  peerBad : Nat
  change : HoldStep
  holdStart : Nat
  widening : Bool
  intro : Option Intro
  echoed : Bool
  secret : Option Nat
  tx : LinkKeys
  rx : LinkKeys
  rot : Option (Nat × Nat)
  rotSeen : Option (Nat × Nat)
  credIn : SMap Nat
  sentOn : SMap Nat
  credOut : SMap Nat
  recvOn : SMap Nat
  txSeq : Nat
  ctrlSeq : Nat
  ctrlRx : Option Nat
  expect : Nat
  nak : Bool
  events : Nat
  tags : Nat
  retry : List TxFrame
  stream : SMap (List Byte)
  txFrames : Nat
  rxFrames : Nat
  attempts : Nat
  trans : Nat
  sinceCtrl : Nat
  replaying : Option (Nat × Nat)
  laneCe : SMap Nat
  deriving DecidableEq, Repr

/-! ## Router -/

/-- A packet in an output queue: the packet, the input port and VC it came from (none: injected here), its bytes not yet
sent, and whether its first frame has been sent. -/
structure QPkt where
  pkt : Packet
  from_ : Option (Nat × Nat)
  left : List Byte
  started : Bool
  deriving DecidableEq, Repr

/-- What the router's check of an arriving packet's HCHK and LENGTH finds (R209). -/
inductive HdrCheck where
  | ok | hchk | length
  deriving DecidableEq, Repr

/-- A packet a link has delivered whole and verified (R212), and what the router's check of its header finds. -/
structure Arrival where
  port : Nat
  vc : Nat
  pkt : Packet
  chk : HdrCheck
  deriving DecidableEq, Repr

/-- A pair the destination tracks for positive acknowledgement (R217): source, OPID, packets not yet acknowledged, the
last SEQ, and what the ACK copies. -/
structure AckPair where
  src : Nat
  opid : Nat
  count : Nat
  seq : Nat
  ptype : Nat
  channel : Nat
  tenant : Nat
  system : Bool
  deriving DecidableEq, Repr

/-- An entry of the operation table (R296), with what the engine keeps beside it: the destination, the channel, the
packets sent, and whom it serves (0 remote-access engine, 1 array, 2 + m the mailbox post of master m, 1000 a
collective), and whether a read of it found an uncorrectable error (R297). -/
structure OptEntry where
  kind : Nat
  gen : Nat
  status : Nat
  state : Nat
  group : Nat
  cseq : Nat
  done : Nat
  total : Nat
  dest : Nat
  channel : Nat
  sent : Nat
  owner : Nat
  bad : Bool
  deriving DecidableEq, Repr

/-- A remote-access descriptor (R219): its words and address, its entry, whether it waits for one, and its final status. -/
structure RaJob where
  words : List Nat
  addr : Nat
  entry : Option Nat
  waiting : Bool
  ended : Option Nat
  deriving DecidableEq, Repr

/-- A packet delivered to this module that no engine has taken yet, and the input whose buffer it still fills: a port and VC; none for
one of this module's own (R240). -/
structure SinkPkt where
  pkt : Packet
  from_ : Option (Nat × Nat)
  deriving DecidableEq, Repr

/-- The router beside its registers: packets that engines offer, packets that arrived, packets to be consumed here,
output queues by port x 16 + VC, C0 packets that wait for a token by port, tokens used by port, the groups' turn of the
deficit round robin by port, packets that wait for old-epoch acknowledgements, unacknowledged packets by epoch bit x 256 +
channel, WRITE packets stored and READ_REQ answers not yet sent, acknowledgement pairs, window entries and what is staged
for them (bytes given as mask and value), route entries by bank x 2^15 + MA, set descriptors by bank x 16 + set, tenant
maps by bank x 512 + tenant, SYSTEM sets by bank, member lists by bank x 2^16 + index, ports that went DOWN since the LIVE
bank became live, remote-access descriptors, the congestion record's counts in this measure, the MCAST copies that failed their
check here (R233), the clock's ticks when the current drain began, C0 packets that wait at their input by output port (R240), the input served last
for each output queue (R224), and the most frames queued in each output queue in this measure (R245). -/
structure Router where
  offers : List Packet
  inbox : List Arrival
  sink : List SinkPkt
  outq : SMap (List QPkt)
  c0wait : SMap (List Packet)
  tokens : SMap Nat
  turn : SMap Nat
  held : List Packet
  unacked : SMap Nat
  stored : List Packet
  reads : List (Packet × List Byte)
  pairs : List AckPair
  windows : SMap Nat
  staged : SMap (Nat × Nat)
  routes : SMap Nat
  badRoutes : List Nat
  sets : SMap Nat
  tmap : SMap Nat
  sysSet : SMap Nat
  members : SMap Nat
  downSince : Nat
  ra : List RaJob
  aged : Nat
  overrun : Nat
  measure : Nat
  flipped : Bool
  mcastFailed : Nat
  drainAt : Nat
  c0in : SMap (List QPkt)
  lastIn : SMap Nat
  occ : SMap Nat
  deriving DecidableEq, Repr

/-! ## Collectives and the Pantry -/

/-- A group entry (R256), without its reserved bits. -/
structure Grp where
  valid : Bool
  system : Bool
  tenant : Nat
  first : Nat
  count : Nat
  nextSeq : Nat
  self : Nat
  digest : Nat
  deriving DecidableEq, Repr

/-- A collective descriptor read into the queue (R259): its 16 words and its address. -/
structure ColJob where
  words : List Nat
  addr : Nat
  deriving DecidableEq, Repr

/-- The packets of a chunk that have arrived, by OFF16, with the CRC they carry and how many there are (R271-R275). -/
structure ColRx where
  pkts : SMap (List Byte)
  crc : Nat
  need : Nat
  deriving DecidableEq, Repr

/-- One chunk of one tree at a member: its own buffer, the data in it as it would travel (input, then partial, then
result), the children combined, the logical indices granted a credit and the partials that came from them, packets being
gathered by sender, the parent's credit and whether the chunk went up, whether this member granted its parent the result's
credit, whether the data is the result, the children that credited it and those it was sent to, the writes (0 none, 1
issued, 2 acknowledged), and that the chunk has ended here. Where the tree's rotation places the node of this member's index on
another member (R265): the buffer of its own input (0 none, 1 held, 2 sent there), that input, and the credit for it; that the
input of its own node is asked for; and that its own node is done while its input is not yet sent. -/
structure ColChunk where
  own : Bool
  data : Option (List Byte)
  got : Nat
  granted : List Nat
  parts : SMap (Option (List Byte))
  rx : SMap ColRx
  upCredit : Bool
  sent : Bool
  asked : Bool
  final : Bool
  credits : List Nat
  down : List Nat
  wrote : Nat
  ended : Bool
  lend : Nat
  mine : Option (List Byte)
  lendCredit : Bool
  inAsked : Bool
  closed : Bool
  deriving DecidableEq, Repr

/-- A launched participation (R262): its descriptor, operation-table entry, the DETAIL it is refused with, CSEQ, quota and
the slots it reserves, the control children that opened, the lowest member found to differ, whether its OPEN is sent and
answered and how many are injected and unanswered (R232), GO, whether the verdict was passed on, its chunks, the elements the
array handed over (code + 1, by index) and their number, its packets so far, and its output flags. -/
structure ColPart where
  job : ColJob
  entry : Nat
  detail : Option Nat
  cseq : Nat
  quota : Nat
  slots : Nat
  opens : List Nat
  differ : Option Nat
  opened : Bool
  answered : Bool
  openOut : Nat
  go : Bool
  passed : Bool
  chunks : SMap ColChunk
  asm : SMap Nat
  handed : Nat
  seq : Nat
  sat : Bool
  nan : Bool
  deriving DecidableEq, Repr

/-- The end of a descriptor that waits for its memory (R38, R133, R263): the address of word 14, words 14 and 15, what the write carries,
and whether the descriptor asks for the doorbell. -/
structure ColEnd where
  addr : Nat
  word14 : Nat
  word15 : Nat
  user : MemUser
  notify : Bool
  deriving DecidableEq, Repr

/-- The collective engine: the ends that wait for memory, oldest first, the queue, what is known of its head (checked, its DETAIL, that it waited for an entry, its
entry), the participations in launch order, OPENs held for launches to come (R279), the control trees of participations that
ended without an abort (R283: root's rotation + 1, by group x 2^16 + CSEQ), the control children that had opened those that have
ended (R284), the group table with the bytes 0-3 staged (+ 1), and the
member pool. -/
structure Collective where
  ends : List ColEnd
  queue : List ColJob
  checked : Bool
  detail : Option Nat
  waited : Bool
  entry : Option Nat
  parts : List ColPart
  held : List Packet
  ended : SMap Nat
  opened : SMap (List Nat)
  groups : SMap Grp
  staged : SMap Nat
  pool : SMap Nat
  deriving DecidableEq, Repr

/-! ## Agent, Belfry and Peal -/

/-- An entry of the vote table (R316): the key, the voters heard, whether it was applied, and the message of the first voter that
waits for its answer until then, with the answer (R344, R351: a status and a count). -/
structure Vote where
  wseq : Nat
  addr : Nat
  width : Nat
  value : Nat
  voters : List Nat
  applied : Bool
  asked : Option TMsg
  result : Nat × Nat
  deriving DecidableEq, Repr

/-- The active plan (R318), decoded: candidates as serial, MA and rank; positions as serial and flags, by MA; exceptions
as MA, port, kind and argument; the allowed digests; and the first 16 bytes of its object's DIGEST. -/
structure Plan where
  trio : Bool
  compat : Bool
  lx : Nat
  ly : Nat
  lz : Nat
  minWidth : Nat
  id : Nat
  issued : Nat
  cands : List (Nat × Nat × Nat)
  posns : SMap (Nat × Nat)
  excs : List (Nat × Nat × Nat × Nat)
  digests : List Nat
  digest : Nat
  deriving DecidableEq, Repr

/-- The object a module receives (R327, R329): its pieces by number, whether the manifest's signature has verified, how often
it has failed, whether the object is VERIFIED, the module asked first for missing pieces (its line neighbour), the last
piece number that an END named, the pieces the neighbour reported not held, and whether the campaign is idle (R330). -/
structure PealRx where
  pieces : SMap (Option (List Byte))
  sigOk : Bool
  sigFails : Nat
  verified : Bool
  toward : Option Nat
  last : Option Nat
  notHeld : List Nat
  idle : Bool
  deriving DecidableEq, Repr

/-- A campaign of the manager (R331): number, KIND, pieces, the next to send (after the last, END), and whether its object was
VERIFIED here. `aim` names the one module a unicast campaign serves; `auto` a campaign of the manager's own; `done` one that has been
committed. -/
structure Campaign where
  num : Nat
  kind : Nat
  pieces : Nat
  next : Nat
  aim : Option Nat
  auto : Bool
  done : Bool
  deriving DecidableEq, Repr

/-- What a manager or voter keeps of a peer's heartbeats (R311-R313): highest HB_SEQ received, highest ACK_SEQ seen, whether a
good heartbeat and a newer ACK_SEQ came since the last tick, misses, periods without a newer ACK_SEQ, the PROBE that
waits, and whether a PROBE found it silent. -/
structure HbPeer where
  seq : Nat
  ack : Nat
  got : Bool
  acked : Bool
  misses : Nat
  unacked : Nat
  probe : Option Nat
  silent : Bool
  deriving DecidableEq, Repr

/-- The agent beside its registers: the receive queue of MGMT packets with whether their tags verify (R223), messages
delivered and not yet taken, votes by entry, the active plan, the object being received, the path that leads to the manager
by relay, the measures counted toward the next summary, the records of the last AGT_CMAP_PERIOD measures, newest first, empty where
one was lost (R353), the MGMT packets dropped because the queue was full, and the pieces of the object that the active plan
came in, by number (R303, R328). -/
structure Agent where
  rxq : List (Packet × Bool)
  msgs : List TMsg
  votes : SMap (Option Vote)
  plan : Option Plan
  peal : PealRx
  path : Option (List Nat)
  cmapCount : Nat
  cmap : List (List Byte)
  dropped : Nat
  planObj : SMap (Option (List Byte))
  deriving DecidableEq, Repr

/-- The Belfry complex beside its registers: a CLAIM stagger running (R309), periods since BEL_ALIVE was written (R311), the
next HB_SEQ, peers by MA, the active manager a standby watches or the standby an active one has, the highest COUNT seen in a
heartbeat, the digests of the running Parlour (none: ROM stage) and extension with their VERSIONs, the active core (none, A or
B), and the age of the last BEL_HEALTH write: its ticks and what is added to them in us (R467). -/
structure Belfry where
  stagger : Bool
  silent : Nat
  hbSeq : Nat
  peers : SMap HbPeer
  mate : Option Nat
  seenCount : Nat
  parlour : Option Nat
  extension : Option Nat
  parlourVer : Nat
  extensionVer : Nat
  active : Option Bool
  healthAt : Nat
  healthAge : Nat
  deriving DecidableEq, Repr

/-! ## The manager's records -/

/-- A module the manager knows (R322-R326): relay path, serial, AGT_STATE as last reported, position outcome (1 AGREES,
2 DUPLICATE, 3 SUBSTITUTED, 4 DIGEST, 5 COMPAT; 0 none yet), CLAIM_ACK in this term, what DISCOVER_REPLY said of its ports
(peer serial, STATE, peer port, width, proto, digest prefix), lost, single-fed, register values it reported by key, its
last CMAP_SUMMARY, and the digest prefix of its own Parlour. A position with outcome 6 EXTRA holds a module and is not addressed. -/
structure MgrMod where
  path : List Nat
  serial : Nat
  agt : Nat
  outcome : Nat
  acked : Bool
  ports : List (Nat × Nat × Nat × Nat × Nat × Nat)
  lost : Bool
  singleFed : Bool
  seen : SMap Nat
  cmap : List Byte
  dig : Nat
  deriving DecidableEq, Repr

/-- One message the manager sends to a member: family, code and body. -/
structure MgrSend where
  ma : Nat
  family : Nat
  code : Nat
  body : List Byte
  deriving DecidableEq, Repr

/-- What a script works for: an installation, the wait for its bank to be LIVE everywhere and for the release of the old bank (R345,
R349), the reading of what the last term left in the route banks (R239, R307), the reading of a campaign's outcome, the reading of
the members' scrubs before a slice is created (R350), or the setup or teardown of a tenant's slice. -/
inductive MgrJob where
  | install
  | live
  | release
  | check (tenant : Nat)
  | resolve
  | peal
  | setup (tenant : Nat)
  | teardown (tenant : Nat)
  deriving DecidableEq, Repr

/-- A script: stages of messages, each stage sent when every message of the one before it was answered; the messages that
still wait for an answer, by tag. -/
structure Script where
  job : MgrJob
  stages : List (List MgrSend)
  waits : List (Nat × MgrSend)
  deriving DecidableEq, Repr

/-- A contained slice in a bank: its tenant, its members, and those of them that its set holds (R341, R348). -/
structure ContSet where
  tenant : Nat
  members : List Nat
  set : List Nat
  deriving DecidableEq, Repr

/-- The intermediate sets of a bank (R348): the open set, and those of the contained slices. -/
structure BankSets where
  opened : List Nat
  contained : List ContSet
  deriving DecidableEq, Repr

/-- An installation (R345): its epoch, the modules it covers, whether FLIP has been sent, the sets it gives the bank, the stages that
follow the TABLES campaign of step 4, that campaign's number once it runs, and whether the bank is LIVE at the other modules. -/
structure Install where
  epoch : Nat
  mods : List Nat
  flipped : Bool
  sets : Option BankSets
  rest : List (List MgrSend)
  tables : Option Nat
  live : Bool
  deriving DecidableEq, Repr

/-- A slice (R347-R349): 1 PREPARING, 2 ACTIVE, 3 DEGRADED, 4 RELEASING, 5 PREPARING with only its installation left; kind
contained; members; setup records by 24 bytes; last status. -/
structure Slice where
  st : Nat
  contained : Bool
  members : List Nat
  records : List (List Byte)
  last : Nat
  deriving DecidableEq, Repr

/-- A slice assembly (R374), with the SLICE_COMMIT that waits until the members' scrubs have been read. -/
structure SliceAsm where
  contained : Bool
  count : Nat
  recCount : Nat
  members : SMap (Option Nat)
  records : SMap (Option (List Byte))
  waiting : Option TMsg
  deriving DecidableEq, Repr

/-- The manager state that the standby holds a copy of (R310): plan, discovery results, route state, slices. -/
structure MgrCopy where
  plan : Option Plan
  mods : SMap (Option MgrMod)
  epoch : Nat
  excluded : List Nat
  install : Option Install
  slices : SMap (Option Slice)
  deriving DecidableEq, Repr

/-- The manager (R322, R326, R338-R358): modules by MA, relay paths claimed and not answered, next request tag, scripts,
installation, excluded MAs, drains by MA (1 DRAINING, 2 DRAINED), slices and assemblies by tenant, the tenant + 1 of the assembly
that each session slot began last, whether a failure settles,
Peal pieces by number, the campaign and the last campaign number; since a takeover whose banks are not resolved yet (R307), the MA
of the manager before; what the standby's copy holds (R310); and whether modules that discovery met are still to be sent the plan
(R303); the sets of the LIVE bank, when this manager installed them (R345); and by
8 x MA + n, one more than what it wrote to the masks of the module's lines (n = 0 to 2), to RTR_DATELINE (3) and to RTB_DIMS (4), 0 where
that is not known. -/
structure Manager where
  mods : SMap (Option MgrMod)
  frontier : List (List Nat)
  tag : Nat
  scripts : List Script
  install : Option Install
  again : Bool
  excluded : List Nat
  drains : SMap Nat
  slices : SMap (Option Slice)
  asms : SMap (Option SliceAsm)
  begun : SMap Nat
  settling : Bool
  pieces : SMap (Option (List Byte))
  campaign : Option Campaign
  lastCampaign : Nat
  taken : Option Nat
  copied : Option MgrCopy
  planDue : Bool
  sets : Option BankSets
  masks : SMap Nat
  deriving DecidableEq, Repr

/-! ## The host port -/

/-- A session slot (R368-R371): 0 free, 1 reserved, 2 open; its principal (tenant, or none for the owner), nonces, highest SEQ
accepted and the 64 below it as a bit map, the last 16 replies, and the requests that wait. -/
structure Session where
  st : Nat
  tenant : Option Nat
  nonceH : Nat
  nonceM : Nat
  high : Nat
  seen : Nat
  cache : List TMsg
  queue : List TMsg
  deriving DecidableEq, Repr

/-- A RoCEv2 QP (R380): tenant or SYSTEM, path MTU, mailbox, doorbell, R_Key tag, remote QPN and address, expected PSN, and when its
last CNP left, by the always-on clock (R379). -/
structure Qp where
  tenant : Nat
  system : Bool
  pmtu : Nat
  mailbox : Nat
  doorbell : Nat
  rkey : Nat
  remote : Nat
  psn : Nat
  addr : List Byte
  cnp : Option Nat
  deriving DecidableEq, Repr

/-- The fetch of an image or a plan (R301, R303, R375): the object's KIND, GETs outstanding as piece and offset, the quarters
gathered by piece x 4 + quarter, whether an attempt over the host port runs, whether the manifest's signature has verified, and
the attempts over the host port and over the fabric. -/
structure Fetch where
  kind : Nat
  gets : List (Nat × Nat)
  quarters : SMap (List Byte)
  running : Bool
  sigOk : Bool
  tries : Nat
  fabTries : Nat
  deriving DecidableEq, Repr

/-- What a RoCEv2 request asks of the responder (R379): its R_Key, its offset and its data or length (`outstanding` READs of the QP are in
progress already), or a SEND's payload. -/
inductive RdmaOp where
  | write (rkey va : Nat) (data : List Byte)
  | read (rkey va len outstanding : Nat)
  | send (data : List Byte)
  deriving DecidableEq, Repr

/-- A CAK and its name CKN (R427). -/
structure Cak where
  ckn : List Byte
  key : Nat
  deriving DecidableEq, Repr

/-- The host port beside its registers: sessions by slot, requests without a session that wait, the slot served last (R371), QPs by
number, the RoCEv2 requests that wait for memory, oldest first (R38, R133), the fetch, MACsec
(the CAK held, the clock's ticks when it was delivered, whether the peer is live, the association numbers receive SAs are
installed for, each with the lowest packet number not seen yet, newest first, and the transmit SA's), the quanta of the last flow control
frame honoured, and PTP (the time transmitter followed, Syncs in
lock, the receive time of a two-step Sync that waits, the last Sync's receive time less its origin time, the path delay, and
the offset still to slew). -/
structure HostPort where
  sess : SMap Session
  clients : List TMsg
  turn : Nat
  qps : SMap (Option Qp)
  rdma : List (RoceReq × RdmaOp)
  fetch : Option Fetch
  cak : Option Cak
  cakAt : Nat
  mkaPeer : Bool
  rxSa : List (Nat × Nat)
  txSa : Option Nat
  paused : Nat
  gm : Option Nat
  inLock : Nat
  sync : Option Int
  gap : Int
  delay : Int
  slew : Int
  deriving DecidableEq, Repr

/-! ## Reset and power -/

/-- A reset that is scheduled, runs, or is held after RESET_TIMEOUT (R507): KIND 0 T, 1 C, 2 W, 3 L, 4 B, 5 M; TARGET; CAUSE as
RST_LAST has it. -/
structure ResetRun where
  kind : Nat
  target : Nat
  cause : Nat
  deriving DecidableEq, Repr

/-- Reset and power beside their registers: resets of kind M that are to begin, resets that run, scopes held, and whether the
reset part of an M is done that RESET_N holds (R510); the tenants to scrub with the running one first (R515); power waves in
progress as direction and next wave (R499); where a way out of Transit stands (1 waves, 2 GDDR7 training, 3 zero fill, 4 tile
test; R512); whether a change stopped for a scrub waits for its end; whether SRAM_INIT found a fault and TILE_TEST has ended
since P; the UCIe modules trained since their wing's power-up, by wing and module; the input pins as filtered; and the clusters whose PLL has lost
lock since the last reset that relocks it (R94). -/
structure Power where
  due : List ResetRun
  running : List ResetRun
  held : List ResetRun
  mDone : Bool
  scrubs : List Nat
  wave : Option (Bool × Nat)
  phase : Nat
  changeAt : Nat
  scrubFirst : Bool
  sramBad : Bool
  tested : Bool
  ucie : Nat
  resetN : Bool
  thermN : Bool
  unlocked : List Nat
  deriving DecidableEq, Repr

/-! ## Security (chapter 13) -/

/-- An owner or maker configuration (R427 OWNER_CONFIG): the owner session key, the fabric management key, the knock key,
MIN_GEN, the image server's IPv6 address and UDP port, the module's own addresses, and the two certificates. -/
structure OwnerConfig where
  session : Nat
  fabric : Nat
  knock : Nat
  minGen : Nat
  server : List Byte
  port : Nat
  ipv4 : List Byte
  ipv6 : List Byte
  certs : List Byte
  deriving DecidableEq, Repr

/-- What an owner slot's fuses hold (R417): the OWNER_ID the module was shipped with, or one that a CLAIM named. -/
inductive OwnerFuse where
  | shipped
  | claimed (id : Nat)
  deriving DecidableEq, Repr

/-- The key that seals the persistent store (R419), by what it is derived from: the seed by the number of the free value it was
drawn as, the OWNER_ID's fuses (none: unfused, zero) and GEN. -/
structure Kek where
  seed : Option Nat
  owner : Option OwnerFuse
  gen : Nat
  deriving DecidableEq, Repr

/-- A weight key (R430): its KEY_ID, owner, mode SINGLE, SET_DIGEST and key. -/
structure WeightKey where
  id : Nat
  tenant : Nat
  system : Bool
  single : Bool
  digest : Nat
  key : Nat
  deriving DecidableEq, Repr

/-- A kept report (R423): its NONCE, its bytes, and whether a delivery has consumed it. -/
structure AttReport where
  nonce : Nat
  data : List Byte
  used : Bool
  deriving DecidableEq, Repr

/-- A package or token being reassembled (R426, R438): its source, DID, number of parts and the parts by number; `token`
says that it is an unlock token. -/
structure Delivery where
  src : MsgSrc
  did : Nat
  parts : Nat
  data : SMap (Option (List Byte))
  token : Bool
  deriving DecidableEq, Repr

/-- An unseal that runs (R431): the request, SRC, DST, the object's identity, length and PT_DIGEST, and its weight key. -/
structure UnsealJob where
  req : TMsg
  src : Nat
  dst : Nat
  object : Nat
  len : Nat
  digest : Nat
  key : WeightKey
  deriving DecidableEq, Repr

/-- A life-cycle transition whose actions run (R418): target state and generation, the OWNER_ID it fuses, and the message to
answer. -/
structure Transition where
  target : Nat
  gen : Nat
  owner : Option Nat
  req : TMsg
  deriving DecidableEq, Repr

/-- Strongroom and the key store beside their registers: the fuses of life cycle, generation, owner slots, seed (the number of the
free value it was drawn as) and seed-kill (R417); the configuration in the key store, and whether the Voheic certificates are; what
MRAM holds sealed, each with the KEK it was sealed under (R419, R420); tenant session keys; weight keys; kept reports,
and the clock's ticks when the last new NONCE was accepted; packages being reassembled; the unseal and the transition that run;
the numbers of the free values that DBG_CHALLENGE and the AKEM were drawn as; the registers of halted cores as the debugger
wrote them (core x 2^16 + register); whether a JTAG instruction drives the pins in DEPLOY (R437), and the clock's ticks when the lease began. -/
structure Security where
  lc : Nat
  gen : Nat
  owners : SMap (Option OwnerFuse)
  seed : Option Nat
  killed : Bool
  config : Option OwnerConfig
  certs : Bool
  sealedCerts : Option Kek
  sealedConfig : Option (OwnerConfig × Kek)
  sealedCak : Option (Cak × Kek)
  sessKeys : SMap (Option Nat)
  weights : List WeightKey
  reports : List AttReport
  lastNonce : Option Nat
  deliveries : List Delivery
  unsealing : Option UnsealJob
  transition : Option Transition
  challenge : Nat
  akem : Nat
  coreRegs : SMap (Option Nat)
  pinsDriven : Bool
  leaseAt : Nat
  deriving DecidableEq, Repr

/-- The measure in progress (R531): the period it runs by in us, its length in ns when a SYNC_IN pulse has moved its end, and
whether it is the first after a reset. -/
structure Measure where
  period : Nat
  shift : Option Nat
  first : Bool
  deriving DecidableEq, Repr

/-! ## The whole -/

/-- Everything of the block but its memories and its queue of commands. -/
structure Dev where
  clk : Clocks
  free : Nat
  regs : SMap Word
  out : List Sent
  stopped : List Island
  powered : Powered
  acc : AccessPath
  hall : Hall
  toc : Tocsin
  recd : Recorder
  gddr : Gddr
  tiles : SMap Tile
  arr : Arr
  cel : Cellar
  mbx : Mailboxes
  lnk : SMap Lnk
  rtr : Router
  opt : SMap OptEntry
  optGen : SMap Nat
  optSince : SMap Nat
  col : Collective
  agt : Agent
  bel : Belfry
  mgr : Manager
  host : HostPort
  pwr : Power
  sec : Security
  msr : Measure
  deriving DecidableEq, Repr

/-- The state of the block: the commands that wait, first in first out, the memories and the device. -/
structure State where
  pending : List Instr
  mem : Mem
  dev : Dev
  deriving DecidableEq, Repr

/-! ## Reset -/

/-- No object being received. -/
def PealRx.none_ : PealRx := ⟨[], false, 0, false, none, none, [], false⟩

/-- The agent, the Belfry, the manager's records and the host port after a reset of kind P. -/
def Agent.reset : Agent := ⟨[], [], [], none, PealRx.none_, none, 0, [], 0, []⟩
def Belfry.reset : Belfry := ⟨false, 2, 0, [], none, 0, none, none, 0, 0, none, 0, 0⟩
def Manager.reset : Manager := ⟨[], [], 0, [], none, false, [], [], [], [], [], false, [], none, 0, none, none, false, none, []⟩
def HostPort.reset : HostPort := ⟨[], [], 15, [], [], none, none, 0, false, [], none, 0, none, 0, none, 0, 0, 0⟩

/-- Nothing is to be reset and no power change runs. -/
def Power.reset : Power := ⟨[], [], [], false, [], none, 0, 0, false, false, false, 0, false, false, []⟩

/-- A module in DEPLOY, generation 0, with nothing delivered to it (log entry 21). -/
def Security.reset : Security :=
  ⟨2, 0, [(0, some .shipped)], some 2, false, none, true, some ⟨some 2, some .shipped, 0⟩, none, none, [], [], [], none, [], none, none, 0, 1,
    [], false, 0⟩

/-- The device right after a reset of kind P: every register at its default, nothing queued, nothing powered but the
always-on domain (R32, R47, R496). -/
def Dev.reset : Dev where
  clk := ⟨0, 0⟩
  free := 3
  regs := []
  out := []
  stopped := []
  powered := ⟨true, false, 0, 0⟩
  acc := ⟨[], [], [], [], []⟩
  hall := ⟨[], [], [], [], [], []⟩
  toc := ⟨[], [], [], [], [], none⟩
  recd := ⟨[], [], 0, false, 0, 0, 0, [], [], false, none, 0, false, none, 0, none, false, false, false⟩
  gddr := ⟨[], [], [], [], [], []⟩
  tiles := []
  arr := ⟨[], none, none, []⟩
  cel := ⟨[], [], [], ⟨none, none, false, false, 0⟩, [], [], []⟩
  mbx := ⟨[], [], []⟩
  lnk := []
  rtr := ⟨[], [], [], [], [], [], [], [], [], [], [], [], [], [], [], [], [], [], [], [], 0, [], 0, 0, 0, false, 0, 0, [], [], []⟩
  opt := []
  optGen := []
  optSince := []
  col := ⟨[], [], false, none, false, none, [], [], [], [], [], [], []⟩
  agt := Agent.reset
  bel := Belfry.reset
  mgr := Manager.reset
  host := HostPort.reset
  pwr := Power.reset
  sec := Security.reset
  msr := ⟨100, none, true⟩

/-- The state right after a reset of kind P: no command waits and every memory reads as its unlisted contents. -/
def State.reset : State where
  pending := []
  mem := ⟨[], []⟩
  dev := Dev.reset

end Sys2Proof.Machine
end

