-- ==== Sys2Proof/Machine/Flags.lean ====
section
/-! DEFINITION. The error bits of the pages and the words computed from state: which Tocsin source an error bit feeds
(R448), which bits ERR_FORCE and ERR_INVCHK reach (R48 with the pages' error-source tables), the defaults of the header
and of every register (R47), CAP words, and the default configuration bytes (R477). -/

namespace Sys2Proof.Machine

/-- The Tocsin source that bit `n` of the page of block `b` feeds (R448). -/
def sourceOf (b n : Nat) : Option Nat :=
  match pageOf b with
  | some .til => if n ≤ 5 then some ((b - 0x400) / 8) else none
  | some .clu => if n = 0 then some (b - 0x600) else none
  | some .mod => if n = 0 then some 64 else none
  | some .clk => if n ≤ 2 then some (72 + n) else none
  | some .pwr => if n ≤ 7 then some (80 + n) else none
  | some .thm => if n ≤ 3 then some (88 + n) else none
  | some .rst => if n ≤ 1 then some (96 + n) else none
  | some .hall => if n ≤ 3 then some (104 + n) else none
  | some .wng => if n = 8 then some (112 + (b - 0x008)) else none
  | some .msr => if n = 0 then some 120 else none
  | some .gd => if n ≤ 4 then some (128 + 8 * (b - 0x090) + n) else none
  | some .lnk => if n ≤ 10 then some (192 + 16 * (b - 0x020) + n) else none
  | some .rtr => if n ≤ 8 then some (288 + n) else none
  | some .rtb => if n ≤ 3 then some (304 + n) else none
  | some .cmap => if n = 0 then some 312 else none
  | some .col => if n ≤ 8 then some (320 + n) else none
  | some .pan => if n ≤ 1 then some (336 + n) else none
  | some .grp => if n ≤ 2 then some (344 + n) else none
  | some .opt => if n ≤ 2 then some (352 + n) else none
  | some .cel => if n ≤ 7 then some (360 + n) else none
  | some .eth => if n ≤ 3 then some (368 + n) else none
  | some .msec => if n ≤ 1 then some (376 + n) else none
  | some .knk => if n ≤ 1 then some (384 + n) else none
  | some .ptp => if n ≤ 1 then some (392 + n) else none
  | some .mbx => if n ≤ 5 then some (400 + n) else none
  | some .sec => if n ≤ 2 then some (408 + n) else none
  | some .key => if n ≤ 2 then some (416 + n) else none
  | some .att => if n = 0 then some 424 else none
  | some .dbg => if n ≤ 2 then some (432 + n) else none
  | some .toc => if n ≤ 2 then some (440 + n) else none
  | some .recorder => if n ≤ 3 then some (448 + n) else none
  | some .bel => if n ≤ 9 then some (456 + n) else none
  | some .agt => if n ≤ 7 then some (472 + n) else none
  | some .arr => if n ≤ 3 then some (480 + n) else none
  | _ => none

/-- The bits of a page whose sources are control or protocol sources: ERR_FORCE raises these. RTB bit 3 is GEN_FAULT
(R363). -/
def forceBits : Page → Nat
  | .mod => 0x1 | .clk => 0x7 | .pwr => 0xFF | .thm => 0xF | .rst => 0x3 | .hall => 0xF | .wng => 0x100
  | .msr => 0x1 | .gd => 0x1C | .lnk => 0x7F0 | .rtr => 0x1F9 | .rtb => 0xC | .cmap => 0x1 | .col => 0x1FB
  | .pan => 0x0 | .grp => 0x4 | .opt => 0x4 | .cel => 0xE7 | .eth => 0xF | .msec => 0x2 | .knk => 0x3 | .ptp => 0x3
  | .mbx => 0x3C | .sec => 0x7 | .key => 0x6 | .att => 0x1 | .dbg => 0x7 | .toc => 0x5 | .recorder => 0xC
  | .bel => 0x3FF | .agt => 0xFF | .arr => 0xF | .til => 0x38 | .clu => 0x1
  | .vca => 0 | .cxl => 0

/-- The bits of a page whose sources are data checkers: ERR_INVCHK arms these. -/
def checkBits : Page → Nat
  | .til => 0x7 | .gd => 0x3 | .lnk => 0xF | .rtr => 0x6 | .rtb => 0x3 | .col => 0x4 | .pan => 0x3 | .grp => 0x3
  | .opt => 0x3 | .cel => 0x18 | .msec => 0x1 | .mbx => 0x3 | .key => 0x1 | .toc => 0x2 | .recorder => 0x3
  | _ => 0

/-- The BLOCK_CAP bits of a page: those the spec gives (R90, R130, R206, R414, R476); 0 where it gives none (log
entry 5). -/
def blockCap : Page → Nat
  | .til => 0x3FF | .arr => 0x40 | .lnk => 0x38 | .mbx => 0x40 | .toc => 0x1E8 | _ => 0

/-- The CAP word of a page (R47). -/
def capWord (p : Page) : Nat :=
  (if forceBits p = 0 then 0 else 0x80000000) + (if checkBits p = 0 then 0 else 0x40000000) +
    (if slotsOf p = [] then 0 else 0x20000000) + blockCap p

/-- The default and the writable bits of a page's CTRL (R47 with the pages' CTRL tables). -/
def ctrlDefault : Page → Nat
  | .lnk => 0x11 | _ => 0
def ctrlMask : Page → Nat
  | .til => 0x1 | .arr => 0x2 | .lnk => 0x11 | .col => 0x2 | .cmap => 0x1 | .recorder => 0x1 | _ => 0

/-- The own reset kind of a page as a bit of LASTRESET's KIND (R45). -/
def ownKind : Page → Nat
  | .wng => 4 | .gd => 4 | .lnk => 32 | .bel => 64 | .til => 16 | .clu => 8 | _ => 0

/-- The default configuration byte of a source (R477). -/
def defaultCfg (s : Nat) : Nat :=
  if s = 83 ∨ s = 84 ∨ s = 85 ∨ s = 86 ∨ s = 87 ∨ s = 89 ∨ s = 72 then 0x55
  else if s = 80 ∨ s = 81 ∨ s = 82 ∨ s = 88 ∨ s = 107 ∨ s = 440 ∨ s = 441 then 0x11
  else if 192 ≤ s ∧ s < 288 ∧ s % 16 = 1 ∧ s < 192 + 16 * 6 then 0x11
  else if 128 ≤ s ∧ s < 192 ∧ s % 8 = 1 then 0x11
  else if s = 290 ∨ s = 305 ∨ s = 337 ∨ s = 345 ∨ s = 353 ∨ s = 364 ∨ s = 401 ∨ s = 416 ∨ s = 449 then 0x11
  else if s = 461 ∨ s = 462 then 0x30
  else if 192 ≤ s ∧ s < 288 ∧ s % 16 = 0 then 0x00
  else if (s ≤ 63) ∨ (sourceAssigned s) then 0x10
  else 0
where
  /-- The source numbers from 64 up that R448 assigns. -/
  sourceAssigned (s : Nat) : Bool :=
    s == 64 || (72 ≤ s && s ≤ 74) || (80 ≤ s && s ≤ 91) || s == 96 || s == 97 || (104 ≤ s && s ≤ 107) ||
    (112 ≤ s && s ≤ 119) || s == 120 || (128 ≤ s && s < 192 && s % 8 ≤ 4) || (192 ≤ s && s < 288 && s % 16 ≤ 10) ||
    (288 ≤ s && s ≤ 296) || (304 ≤ s && s ≤ 307) || s == 312 || (320 ≤ s && s ≤ 328) || s == 336 || s == 337 ||
    (344 ≤ s && s ≤ 346) || (352 ≤ s && s ≤ 354) || (360 ≤ s && s ≤ 367) || (368 ≤ s && s ≤ 371) ||
    s == 376 || s == 377 || s == 384 || s == 385 || s == 392 || s == 393 || (400 ≤ s && s ≤ 405) ||
    (408 ≤ s && s ≤ 410) || (416 ≤ s && s ≤ 418) || s == 424 || (432 ≤ s && s ≤ 434) || (440 ≤ s && s ≤ 442) ||
    (448 ≤ s && s ≤ 451) || (456 ≤ s && s ≤ 465) || (472 ≤ s && s ≤ 479) || (480 ≤ s && s ≤ 483)

/-- Whether R448 assigns a source number. -/
def sourceKnown (s : Nat) : Bool := decide (s ≤ 63) || defaultCfg.sourceAssigned s

/-- The page that holds a source's ERR_SEVERE and ERR_MASK, and the source's bit in it; for a cluster source the CLU
page (R453). -/
def sourcePage (s : Nat) : Nat × Nat :=
  if s ≤ 63 then (0x600 + s, 0)
  else if s < 72 then (0x000, s - 64) else if s < 80 then (0x001, s - 72) else if s < 88 then (0x002, s - 80)
  else if s < 96 then (0x003, s - 88) else if s < 104 then (0x004, s - 96) else if s < 112 then (0x010, s - 104)
  else if s < 120 then (0x008 + (s - 112), 8) else if s < 128 then (0x06A, s - 120)
  else if s < 192 then (0x090 + (s - 128) / 8, (s - 128) % 8)
  else if s < 288 then (0x020 + (s - 192) / 16, (s - 192) % 16)
  else if s < 304 then (0x028, s - 288) else if s < 312 then (0x029, s - 304) else if s < 320 then (0x02B, s - 312)
  else if s < 336 then (0x030, s - 320) else if s < 344 then (0x031, s - 336) else if s < 352 then (0x032, s - 344)
  else if s < 360 then (0x038, s - 352) else if s < 368 then (0x04C, s - 360) else if s < 376 then (0x040, s - 368)
  else if s < 384 then (0x041, s - 376) else if s < 392 then (0x042, s - 384) else if s < 400 then (0x043, s - 392)
  else if s < 408 then (0x050, s - 400) else if s < 416 then (0x058, s - 408) else if s < 424 then (0x059, s - 416)
  else if s < 432 then (0x05A, s - 424) else if s < 440 then (0x05B, s - 432) else if s < 448 then (0x060, s - 440)
  else if s < 456 then (0x061, s - 448) else if s < 472 then (0x068, s - 456) else if s < 480 then (0x069, s - 472)
  else (0x080, s - 480)

/-- The register of a page that an offset names, with its index among the registers of its row. -/
def descAt (rs : List RegDesc) (off : Nat) : Option RegDesc :=
  rs.find? (fun r => decide (r.off ≤ off ∧ off < r.off + r.stride * r.count ∧ (off - r.off) % r.stride = 0))

/-- The default of the word at a register key: header registers under R47, the others from their table; TOC_SRC_CFG
under R477. A banked register's key carries its bank above bit 24. -/
def regDefault (key : Nat) : Word :=
  let k := key % 2 ^ 24
  let b := k / 0x1000
  let off := k % 0x1000
  match pageOf b with
  | none => 0
  | some p =>
    if off < 0x80 then
      (if off = 0x000 then toWord (pageType b * 2 ^ 24 + b * 2 ^ 12 + 1)
       else if off = 0x008 then toWord (capWord p)
       else if off = 0x00C then 0x00010001
       else if off = 0x010 then toWord (ctrlDefault p)
       else if off = 0x034 then 0x000FA010
       else 0)
    else if p = .toc ∧ 0x400 ≤ off ∧ off < 0x800 then
      toWord (ofLE ((upFrom (off - 0x400) 4).map (fun s => BitVec.ofNat 8 (defaultCfg s))))
    else match descAt (pageRegs p) off with
      | some r => r.dflt
      | none => 0

/-- The header registers that a reset of the page's kinds restores (R47), as LASTRESET kind bits; WLOCK by P and M
only; ERR_FORCE by none. -/
def restoredBy (key : Nat) : Nat :=
  let k := key % 2 ^ 24
  let b := k / 0x1000
  let off := k % 0x1000
  match pageOf b with
  | none => 0
  | some p =>
    if off < 0x80 then
      (if off = 0x018 then 3
       else if off = 0x010 ∨ off = 0x014 ∨ off = 0x020 ∨ off = 0x024 ∨ off = 0x02C ∨ off = 0x030 ∨ off = 0x034 then
         3 + ownKind p
       else 0)
    else match descAt (pageRegs p) off with
      | some r => r.restored
      | none => 0

end Sys2Proof.Machine
end

