-- ==== Sys2Proof/Machine/Ops.lean ====
section
/-! DEFINITION. The named operations that every family shares: registers and counters, what the block sends, free
values, raising an error source (R48, R449), appending a record (R484-R486), ringing a doorbell (R407, R408), and the
status codes. -/

namespace Sys2Proof.Machine

/-! ## Status codes (R16 and the chapters) -/

abbrev OK : Nat := 0x00
abbrev EMPTY : Nat := 0x01
abbrev TIMEOUT : Nat := 0x02
abbrev WINDOW_FAULT : Nat := 0x03
abbrev MISMATCH : Nat := 0x04
abbrev MBX_FULL : Nat := 0x05
abbrev RECEIVER_RESET : Nat := 0x06
abbrev TILE_RESET : Nat := 0x07
abbrev WING_RESET : Nat := 0x08
abbrev GROUP_INVALID : Nat := 0x09
abbrev CRC_FAIL : Nat := 0x0A
abbrev EPOCH_STALE : Nat := 0x0B
abbrev TERM_STALE : Nat := 0x0C
abbrev SCRUB : Nat := 0x0D
abbrev QUARANTINE : Nat := 0x0E
abbrev MISWIRED : Nat := 0x0F
abbrev NO_PAGE : Nat := 0x10
abbrev BAD_ACCESS : Nat := 0x11
abbrev ACCESS_DENIED : Nat := 0x12
abbrev LOCKED : Nat := 0x13
abbrev OUT_OF_RANGE : Nat := 0x14
abbrev TILE_ECC : Nat := 0x20
abbrev DESC_INVALID : Nat := 0x21
abbrev QUEUE_FULL : Nat := 0x22
abbrev ABORTED : Nat := 0x23
abbrev NO_TILES : Nat := 0x24
abbrev MEM_UE : Nat := 0x30
abbrev MEM_PROTECT : Nat := 0x31
abbrev CELLAR_UE : Nat := 0x32
abbrev CELLAR_FAULT : Nat := 0x33
abbrev KEY_ABSENT : Nat := 0x34
abbrev KEY_BUSY : Nat := 0x35
abbrev COPY_INVALID : Nat := 0x36
abbrev UNREACHABLE : Nat := 0x40
abbrev CLASS_INVALID : Nat := 0x41
abbrev PORT_REFUSED : Nat := 0x42
abbrev AGED : Nat := 0x43
abbrev ROUTER_UE : Nat := 0x44
abbrev RA_INVALID : Nat := 0x45
abbrev COL_INVALID : Nat := 0x50
abbrev GROUP_BUSY : Nat := 0x51
abbrev COL_REFUSED : Nat := 0x52
abbrev PANTRY_UE : Nat := 0x53
abbrev NOT_HELD : Nat := 0x60
abbrev SIG_INVALID : Nat := 0x61
abbrev PLAN_INVALID : Nat := 0x62
abbrev NO_CLAIM : Nat := 0x63
abbrev NOT_VOTER : Nat := 0x64
abbrev VOTE_FULL : Nat := 0x65
abbrev SLICE_INVALID : Nat := 0x70
abbrev SLICE_BUSY : Nat := 0x71
abbrev SESSION_FULL : Nat := 0x80
abbrev AUTH_FAIL : Nat := 0x81
abbrev NO_SESSION : Nat := 0x82
abbrev BAD_MESSAGE : Nat := 0x83
abbrev NOT_MANAGER : Nat := 0x84
abbrev BAD_ARG : Nat := 0x85
abbrev LC_REFUSED : Nat := 0xA0
abbrev CERT_INVALID : Nat := 0xA1
abbrev NONCE_STALE : Nat := 0xA2
abbrev DEBUG_ACTIVE : Nat := 0xA3
abbrev NOT_BOUND : Nat := 0xA4
abbrev UNSEAL_FAIL : Nat := 0xA5
abbrev POWER_OFF : Nat := 0xA6
abbrev WEIGHT_FULL : Nat := 0xA7
abbrev MBX_LATCHED : Nat := 0x90
abbrev MBX_UE : Nat := 0x91
abbrev SWITCH_REFUSED : Nat := 0xB0
abbrev REC_FROZEN : Nat := 0xC0
abbrev REC_BUSY : Nat := 0xC1
abbrev PWR_BUSY : Nat := 0xD0

/-! ## Registers -/

/-- The value of the register with a key. -/
def Dev.rd (d : Dev) (key : Nat) : Nat := (SMap.get regDefault d.regs key).toNat

/-- The register with a key set to the low 32 bits of a value. -/
def Dev.wr (d : Dev) (key v : Nat) : Dev := { d with regs := SMap.put regDefault d.regs key (toWord v) }

/-- The key of offset `off` in the page of block `b`. -/
def rkey (b off : Nat) : Nat := b * 0x1000 + off

/-- The key of a register banked by master ID (R58, R412, R485). -/
def bankKey (master key : Nat) : Nat := (master + 1) * 2 ^ 24 + key

/-- A counter that saturates at 0xFFFF_FFFF, advanced by `n`. -/
def Dev.countBy (d : Dev) (key n : Nat) : Dev := d.wr key (satAdd 32 (d.rd key) n)

/-- A counter that saturates at 0xFFFF_FFFF, advanced by one. -/
def Dev.count (d : Dev) (key : Nat) : Dev := d.countBy key 1

/-- A counter that wraps at 2^32, advanced by one. -/
def Dev.bump (d : Dev) (key : Nat) : Dev := d.wr key (d.rd key + 1)

/-- Every register of the pages a test names that a reset of the given kinds restores, at its default (R15). -/
def Dev.restore (d : Dev) (kinds : Nat) (blocks : Nat → Bool) : Dev :=
  { d with regs := SMap.erase (fun k => blocks ((k % 2 ^ 24) / 0x1000) && (restoredBy k &&& kinds != 0)) d.regs }

/-- LASTRESET of a page after a reset of a kind (R47): COUNT saturates at 0xFFFF; a P sets it to 1. -/
def Dev.lastReset (d : Dev) (kindBit b : Nat) : Dev :=
  let k := rkey b 0x00C
  if kindBit = 0 then d.wr k 0x00010001
  else d.wr k (satAdd 16 (bits (d.rd k) 31 16) 1 * 2 ^ 16 + 2 ^ kindBit)

/-- The same for a list of blocks. -/
def Dev.lastResets (d : Dev) (kindBit : Nat) : List Nat → Dev
  | [] => d
  | b :: bs => Dev.lastResets (d.lastReset kindBit b) kindBit bs

/-! ## Sending and free values -/

/-- One more thing sent. -/
def Dev.send (d : Dev) (x : Sent) : Dev := { d with out := d.out ++ [x] }

/-- The next free value. -/
def Dev.fresh (d : Dev) : Nat := Config.free d.free

/-- The device after a free value was used. -/
def Dev.used (d : Dev) : Dev := { d with free := d.free + 1 }

/-! ## Power (R40, R451) -/

/-- Whether the power domain of a page is on (R22, R40). DESIGN CHOICE (log entry 192): the MSR page, and the ETH and MSEC pages whole,
lie in the always-on domain, and the switch-controller registers of the BEL page in the switch core with the rest of that page. -/
def Dev.domainOn (d : Dev) (b : Nat) : Bool :=
  match pageOf b with
  | none => false
  | some .wng => d.powered.wings.testBit (b - 0x008)
  | some .gd => d.powered.wings.testBit (b - 0x090)
  | some .til => d.powered.halves.testBit ((b - 0x400) / 32)
  | some .clu => d.powered.halves.testBit ((b - 0x600) / 4)
  | some .mod | some .clk | some .pwr | some .thm | some .rst | some .knk | some .ptp | some .sec | some .key
  | some .att | some .dbg | some .toc | some .recorder | some .msr | some .eth | some .msec => d.powered.aon
  | some _ => d.powered.core

/-! ## Stopped islands (R38) -/

/-- The core that is a master has its island stopped, or a debugger has halted it (R439): it issues no access (master 1 the Keep core,
2 and 3 cores A and B). -/
def Dev.coreStopped (d : Dev) (master : Nat) : Bool :=
  let halted (c : Nat) : Bool := (d.rd Reg.DBG_CORE_STATE).testBit c
  (master == 1 && (d.stopped.contains .keep || halted 2)) || (master == 2 && (d.stopped.contains .coreA || halted 0)) ||
    (master == 3 && (d.stopped.contains .coreB || halted 1))

/-- The island of a GDDR7 controller, of a wing's landings, of a UCIe module, or of a CXL port, is stopped. -/
def Dev.gdStopped (d : Dev) (w dev : Nat) : Bool :=
  d.stopped.any (fun i => match i with | .gddr x y => x.val == w && y.val == dev | _ => false)
def Dev.landingStopped (d : Dev) (w : Nat) : Bool :=
  d.stopped.any (fun i => match i with | .landing x => x.val == w | _ => false)
def Dev.ucieStopped (d : Dev) (w m : Nat) : Bool :=
  d.stopped.any (fun i => match i with | .ucie x y => x.val == w && y.val == m | _ => false)
def Dev.cxlStopped (d : Dev) (p : Nat) : Bool :=
  d.stopped.any (fun i => match i with | .cxl q => q.val == p | _ => false)

/-! ## Records (R481-R486) -/

/-- PTP_STATE is FREE or ACQUIRING: the record's UNSYNC flag (R481). -/
def Dev.unsync (d : Dev) : Bool := decide (d.rd Reg.PTP_STATE ≤ 1)

/-- A record's body with the TIME and NUM it takes at entry (R484). -/
def Dev.recordBody (d : Dev) (kind origin source : Nat) (data : List Byte) : RecBody :=
  ⟨d.clk.cal, d.recd.nextNum, kind, origin, d.unsync, false, source, padTo 22 data⟩

/-- An entry into the append queue. -/
def Dev.enqueue (d : Dev) (b : RecBody) : Dev :=
  { d with recd := { d.recd with queue := d.recd.queue ++ [b], nextNum := d.recd.nextNum + 1 } }

/-- One event of a source in its page, without the OVERRUN that a full toggle count raises: its ERR_STATUS bit, the
page's ERR_COUNT, and one toggle to send (R48, R449). Nothing arises while the page's domain is off (R451). -/
def Dev.raise0 (d : Dev) (b n : Nat) : Dev :=
  if d.domainOn b then
    let d := d.wr (rkey b 0x020) (setBit (d.rd (rkey b 0x020)) n)
    let d := d.count (rkey b 0x030)
    let k := b * 32 + n
    let p := SMap.get (fun _ => 0) d.toc.pend k
    { d with toc := { d.toc with pend := SMap.put (fun _ => 0) d.toc.pend k (min 255 (p + 1)) } }
  else d

/-- Whether another event of a source would exceed its toggle count (R449). -/
def Dev.overruns (d : Dev) (b n : Nat) : Bool :=
  d.domainOn b && decide (SMap.get (fun _ => 0) d.toc.pend (b * 32 + n) = 255)

/-- A hardware append: it enters the queue, or is lost and counted when 64 entries wait (R486). After POWER_LOSS no
append is taken or counted (R490). The first loss since the queue was empty raises APPEND_DROP, but not for a record of
a REC source. -/
def Dev.append (d : Dev) (kind origin source : Nat) (data : List Byte) : Dev :=
  if d.recd.stopped ∨ d.recd.flushing then d
  else if d.recd.queue.length < 64 ∧ d.recd.held = [] then d.enqueue (d.recordBody kind origin source data)
  else
    let noted := d.recd.lossNoted
    let d := d.count Reg.REC_LOST_COUNT
    let d := d.count Reg.REC_LOST_PENDING
    let d := { d with recd := { d.recd with
      lossNoted := true
      lastLost := source
      frozenLost := d.recd.frozenLost + b2n d.recd.frozen
      firstLost := match d.recd.firstLost with
        | none => some (source, d.clk.cal)
        | some f => some f } }
    if noted ∨ (kind = 0x01 ∧ 448 ≤ source ∧ source ≤ 451) then d else d.raise0 0x061 3

/-- An append that is held and never lost: FREEZE, RELEASE and CLEAR (R487, R489). It takes its NUM now. -/
def Dev.appendHeld (d : Dev) (kind origin source : Nat) (data : List Byte) : Dev :=
  if d.recd.stopped ∨ d.recd.flushing then d
  else if d.recd.queue.length < 64 ∧ d.recd.held = [] then d.enqueue (d.recordBody kind origin source data)
  else { d with recd := { d.recd with
    held := d.recd.held ++ [d.recordBody kind origin source data], nextNum := d.recd.nextNum + 1 } }

/-- The source number of a page's error bit, 0 where R448 gives none. -/
def srcNum (b n : Nat) : Nat := (sourceOf b n).getD 0

/-- One event of a source (R48, R449). A toggle count that is full stays full: OVERRUN is raised, TOC_OVERRUN_LAST
records the source, and the collector appends a record (R457). -/
def Dev.raise (d : Dev) (b n : Nat) : Dev :=
  if d.overruns b n then
    let s := srcNum b n
    let d := (d.raise0 b n).wr Reg.TOC_OVERRUN_LAST (2 ^ 31 + s)
    let d := if b = 0x060 ∧ n = 2 then d else d.raise0 0x060 2
    d.append 0x01 0 s [3, 0, 0, 0]
  else d.raise0 b n

/-- The error bits of a page whose inverted check is armed. -/
def Dev.armed (d : Dev) (b n : Nat) : Bool := (d.rd (rkey b 0x02C)).testBit n

/-- An armed inverted check is taken: the hardware clears its bit (R48). -/
def Dev.disarm (d : Dev) (b n : Nat) : Dev := d.wr (rkey b 0x02C) (clearBit (d.rd (rkey b 0x02C)) n)

/-- The lowest of some checker bits that is armed: the one the next word that checker checks takes (R48). -/
def Dev.armedFirst (d : Dev) (b : Nat) : List Nat → Option Nat
  | [] => none
  | n :: ns => if d.armed b n then some n else Dev.armedFirst d b ns

/-! ## Doorbells (R407, R408) -/

/-- The key of a register of mailbox `m`, given by the key of mailbox 0's. -/
def mbxKey (base m : Nat) : Nat := base + 0x20 * m

/-- A mailbox that nothing has used. -/
def Mbx.empty : Mbx := ⟨[], none, 0, false, 0, 0, []⟩

/-- The mailbox with a number. -/
def Dev.mbox (d : Dev) (m : Nat) : Mbx := SMap.get (fun _ => Mbx.empty) d.mbx.box m

/-- The mailbox with a number replaced. -/
def Dev.setMbox (d : Dev) (m : Nat) (x : Mbx) : Dev :=
  { d with mbx := { d.mbx with box := SMap.put (fun _ => Mbx.empty) d.mbx.box m x } }

/-- Mailbox `m` signals (R407). -/
def Dev.mbxSignals (d : Dev) (m : Nat) : Bool :=
  (d.rd (mbxKey Reg.MBXM_DB m) &&& d.rd (mbxKey Reg.MBXM_DBMASK m) != 0) ||
  ((d.rd (mbxKey Reg.MBXM_CFG m)).testBit 27 && (d.mbox m).fifo != [])

/-- The mailbox interrupt of the consumer core of a mailbox that signals (R407). -/
def Dev.mbxInterrupt (d : Dev) (m : Nat) : Dev :=
  let c := bits (d.rd (mbxKey Reg.MBXM_CFG m)) 23 16
  if d.mbxSignals m ∧ (c = 1 ∨ c = 2 ∨ c = 3) then d.send (.mbxIrq c m) else d

/-- A ring of doorbell bit `n` of mailbox `m`; dropped and counted while ENABLE is 0 (R408). -/
def Dev.ring (d : Dev) (m n : Nat) : Dev :=
  if (d.rd (mbxKey Reg.MBXM_CFG m)).testBit 31 then
    (d.wr (mbxKey Reg.MBXM_DB m) (setBit (d.rd (mbxKey Reg.MBXM_DB m)) n)).mbxInterrupt m
  else (d.count Reg.MBX_DB_DROP_COUNT).raise 0x050 4

/-- An engine's notify through a NOTIFY register: [31] EN, [13:8] mailbox, [4:0] doorbell bit. -/
def Dev.notify (d : Dev) (key : Nat) : Dev :=
  let v := d.rd key
  if v.testBit 31 then d.ring (bits v 13 8) (bits v 4 0) else d

/-! ## Lifting to the state -/

/-- A change of the device alone. -/
def State.onDev (s : State) (f : Dev → Dev) : State := { s with dev := f s.dev }

/-- A command's next state. -/
def done (s : State) : Host.Outcome State Fault Refusal := .next s

/-- The next state of a command that changes the device alone. -/
def doneDev (s : State) (f : Dev → Dev) : Host.Outcome State Fault Refusal := .next (s.onDev f)

end Sys2Proof.Machine
end

