-- ==== Sys2Proof/Machine/Access.lean ====
section
/-! DEFINITION. The management access path: where an address leads (R44, R45, R52), the checks of R56 in their order,
what a refusal does (R57), the ranges of the registers, and a write to a register without behaviour of its own (R13,
R14). -/

namespace Sys2Proof.Machine

/-- Where a management address leads (R44). -/
inductive MTarget where
  | page (b off : Nat)
  | slot (s off : Nat)
  | nowhere
  deriving DecidableEq, Repr

/-- Decode of a 40-bit management address: a page whose block number R45 lists, an assigned slot, or nowhere. -/
def mTarget (addr : Nat) : MTarget :=
  if 0x0100000000 ≤ addr ∧ addr < 0x0101000000 then
    let b := (addr - 0x0100000000) / 0x1000
    if (pageOf b).isSome then .page b (addr % 0x1000) else .nowhere
  else if 0x0200000000 ≤ addr ∧ addr < 0x1000000000 then
    let s := (addr - 0x0200000000) / 0x10000000
    if s ≤ 6 then .slot s ((addr - 0x0200000000) % 0x10000000) else .nowhere
  else .nowhere

/-- The management address of a register key. -/
def mAddr (key : Nat) : Nat := 0x0100000000 + key

/-- The block that owns a table-window slot (R52). -/
def slotOwner (s : Nat) : Nat :=
  match s with
  | 0 => 0x029 | 1 => 0x029 | 2 => 0x032 | 3 => 0x028 | 4 => 0x04C | 5 => 0x038 | _ => 0x058

/-- The block an address belongs to, for policy and locks. -/
def MTarget.block : MTarget → Nat
  | .page b _ => b
  | .slot s _ => slotOwner s
  | .nowhere => 0

/-- The block number that MOD_ACCESS_LAST shows of an address (R58): that of the page in register space, listed or not, and a
slot's owner; DESIGN CHOICE (log entry 196): 0 for an address that has none. -/
def accessBlock (addr : Nat) : Nat :=
  if 0x0100000000 ≤ addr ∧ addr < 0x0101000000 then (addr - 0x0100000000) / 0x1000 else (mTarget addr).block

/-- Two addresses lie in one page or in one slot (R46). -/
def sameSpace (a b : Nat) : Bool :=
  match mTarget a, mTarget b with
  | .page x _, .page y _ => x == y
  | .slot x _, .slot y _ => x == y
  | _, _ => false

/-- R56 check 2: pages take aligned 32-bit accesses, slots aligned 32-bit and 64-bit ones (R46). -/
def widthOk (t : MTarget) (width addr : Nat) : Bool :=
  match t with
  | .page _ _ => width == 32 && addr % 4 == 0
  | .slot _ _ => (width == 32 && addr % 4 == 0) || (width == 64 && addr % 8 == 0)
  | .nowhere => false

/-- A policy entry matches a master and a block (R55). -/
def policyMatches (e master b : Nat) : Bool :=
  e.testBit 15 && decide (bits e 55 48 ≤ master ∧ master ≤ bits e 63 56 ∧ bits e 35 24 ≤ b ∧ b ≤ bits e 47 36)

/-- The first valid entry that matches decides; none denies (R55). -/
def policySearch (pol : SMap Nat) (master b : Nat) (write slot : Bool) : Nat → Nat → Bool
  | 0, _ => false
  | n + 1, i =>
    let e := SMap.get (fun _ => 0) pol i
    if policyMatches e master b then
      (if write then e.testBit 13 else e.testBit 14) && (!slot || e.testBit 12)
    else policySearch pol master b write slot n (i + 1)

/-- The policy allows the access. -/
def policyAllows (d : Dev) (master : Nat) (t : MTarget) (write : Bool) : Bool :=
  policySearch d.acc.policy master t.block write
    (match t with | .slot _ _ => true | _ => false) 256 0

/-- DBG_MODE (R437). -/
def dbgMode (d : Dev) : Nat := bits (d.rd Reg.DBG_MODE) 1 0

/-- The master is a host session whose slot has KIND tenant (R434). -/
def isTenantSession (d : Dev) (master : Nat) : Bool :=
  decide (0x10 ≤ master ∧ master ≤ 0x1F) && (d.rd (Reg.ETH_SLOT + 4 * (master - 0x10))).testBit 30

/-- The tenant that a master reads for: a host session whose slot has KIND tenant. -/
def tenantMaster (d : Dev) (master : Nat) : Option Nat :=
  if isTenantSession d master then some (bits (d.rd (Reg.ETH_SLOT + 4 * (master - 0x10))) 8 0) else none

/-- SEC_BINDING names a tenant (R414). -/
def boundTo (d : Dev) (t : Nat) : Bool :=
  (d.rd Reg.SEC_BINDING).testBit 15 && bits (d.rd Reg.SEC_BINDING) 8 0 == t

/-- What R434 and R508 forbid a tenant session, beside R54. -/
def tenantForbidden (t : MTarget) (write : Bool) : Bool :=
  write &&
  match t with
  | .slot _ _ => true
  | .page b off =>
    decide (off < 0x80) ||
    decide (rkey b off = Reg.ARR_TENANT ∨ rkey b off = Reg.COL_TENANT ∨ rkey b off = Reg.RTR_RA_TENANT) ||
    (b == 0x04C && decide (0x100 ≤ off ∧ off < 0x180 ∧ off % 0x10 = 4)) ||
    (decide (0x008 ≤ b ∧ b ≤ 0x00F) && decide (0x080 ≤ off ∧ off < 0x100)) ||
    [0x040, 0x041, 0x043, 0x042, 0x028, 0x029, 0x02A, 0x068, 0x069, 0x060, 0x061, 0x002, 0x004].contains b
  | .nowhere => true

/-- The fixed rules of R54 for a master other than the Keep core, with the debug gate (R437) and R434. -/
def fixedAllows (d : Dev) (master : Nat) (t : MTarget) (write : Bool) : Bool :=
  (match t, write with
    | .page b _, false => b != 0x059
    | .page b off, true => !(decide (0x058 ≤ b ∧ b ≤ 0x05B)) && off != 0x018
    | .slot s _, true => s != 6
    | _, _ => true) &&
  (master != 0x07 || (if write then decide (2 ≤ dbgMode d) else decide (1 ≤ dbgMode d))) &&
  !(isTenantSession d master && tenantForbidden t write) &&
  (master == 0x02 || master == 0x03 || master == 0x07 || decide (0x10 ≤ master ∧ master ≤ 0x1F) ||
    decide (0x80 ≤ master ∧ master ≤ 0xFF))

/-- R56 check 3. -/
def accessAllowed (d : Dev) (master : Nat) (t : MTarget) (write : Bool) : Bool :=
  master == 0x01 || (fixedAllows d master t write && policyAllows d master t write)

/-- R56 check 4: a lock of R50 covers the write. WLOCK, ERR_STATUS and ERR_COUNT are never locked, nor is anything for
the Keep core. -/
def lockCovers (d : Dev) (master : Nat) (t : MTarget) : Bool :=
  let w := d.rd (rkey t.block 0x018)
  master != 0x01 &&
  match t with
  | .page _ off =>
    (w.testBit 31 && (off == 0x010 || off == 0x024 || off == 0x028 || off == 0x02C || off == 0x034)) ||
    (w.testBit 30 && writable t.block off)
  | .slot _ _ => w.testBit 30
  | .nowhere => false
where
  /-- A block-specific register that takes writes. -/
  writable (b off : Nat) : Bool :=
    decide (0x080 ≤ off) &&
    match pageOf b with
    | none => false
    | some p => match descAt (pageRegs p) off with
      | none => false
      | some r => r.access != .ro && r.access != .rc

/-- The wing of a WNG, GD, TIL or CLU page. -/
def wingOfPage (b : Nat) : Option Nat :=
  match pageOf b with
  | some .wng => some (b - 0x008)
  | some .gd => some (b - 0x090)
  | some .til => some ((b - 0x400) / 64)
  | some .clu => some ((b - 0x600) / 8)
  | _ => none

/-- HALL_WING_STATE of a wing: 0 OFF, 1 ACTIVE, 2 ABSORB (R43). -/
def wingState (d : Dev) (w : Nat) : Nat := bits (d.rd Reg.HALL_WING_STATE) (2 * w + 1) (2 * w)

/-- The wing's Hall port is ACTIVE. -/
def wingActive (d : Dev) (w : Nat) : Bool := wingState d w == 1

/-- Widths a port runs at (R3). -/
def widthLadder : List Nat := [1, 2, 4, 8, 12, 16, 20, 24]

/-- R56 check 6: the written value lies in the register's range. Beside each row's bounds: ERR_SEVERE (R49), and the
registers whose table gives a set of values or a relation to another register. RTB_MAX_HOPS is checked after its bank's state
(R250). -/
def rangeOk (d : Dev) (key v : Nat) : Bool :=
  let b := key / 0x1000
  let off := key % 0x1000
  if off = 0x034 then decide (1 ≤ bits v 7 0 ∧ 1 ≤ bits v 31 10 ∧ bits v 31 10 ≤ 3600000)
  else if off < 0x080 then true
  else match pageOf b with
  | none => true
  | some p =>
    match descAt (pageRegs p) off with
    | none => true
    | some r =>
      let x := v &&& r.wmask.toNat
      (r.access != .rw || key == Reg.RTB_MAX_HOPS0 || key == Reg.RTB_MAX_HOPS1 || decide (r.lo ≤ x ∧ x ≤ r.hi)) &&
      (if key = Reg.ARR_CPL_SIZE then x == 0 || decide (4 ≤ x ∧ x ≤ 12)
       else if key = Reg.ARR_CPL_TAIL then
         decide ((d.rd Reg.ARR_CPL_HEAD + 2 ^ 32 - x) % 2 ^ 32 < 2 ^ 31)
       else if p = .lnk ∧ off = Reg.LNK_MIN_WIDTH then widthLadder.contains x
       else if p = .lnk ∧ off = Reg.LNK_EXPECT_CTRL then decide (bits x 2 0 ≤ 5)
       else if p = .wng ∧ off < 0x100 ∧ off % 8 = 0 then decide (bits v 31 16 ≤ 5720 ∧ bits v 31 16 + bits v 15 0 ≤ 5721)
       else if key = Reg.RTR_VC_MAX then decide (d.rd Reg.RTR_VC_MIN ≤ x)
       else if key = Reg.RTR_ACK then
         decide (50 ≤ bits v 31 16 ∧ bits v 31 16 ≤ 10000 ∧ 1 ≤ bits v 7 0 ∧ bits v 7 0 ≤ 64)
       else if key = Reg.RTB_DIMS then
         decide (1 ≤ bits v 4 0 ∧ 1 ≤ bits v 9 5 ∧ 1 ≤ bits v 14 10)
       else if key = Reg.BEL_FENCE_MISS then
         decide (d.rd Reg.BEL_HB_MISS < x) && overlapOk (d.rd Reg.BEL_HB_MISS) x (d.rd Reg.BEL_HB_PERIOD) (d.rd Reg.BEL_PROBE_TIMEOUT)
       else if key = Reg.BEL_HB_MISS then
         decide (x < d.rd Reg.BEL_FENCE_MISS) && overlapOk x (d.rd Reg.BEL_FENCE_MISS) (d.rd Reg.BEL_HB_PERIOD) (d.rd Reg.BEL_PROBE_TIMEOUT)
       else if key = Reg.BEL_HB_PERIOD then
         overlapOk (d.rd Reg.BEL_HB_MISS) (d.rd Reg.BEL_FENCE_MISS) x (d.rd Reg.BEL_PROBE_TIMEOUT)
       else if key = Reg.BEL_PROBE_TIMEOUT then
         overlapOk (d.rd Reg.BEL_HB_MISS) (d.rd Reg.BEL_FENCE_MISS) (d.rd Reg.BEL_HB_PERIOD) x
       else if key = Reg.BEL_WATCHDOG then x == 0 || decide (20 ≤ x)
       else if key = Reg.GD_PATROL_PERIOD then true
       else if key = Reg.AGT_PORT_PLAN then
         !(x.testBit 31 && x.testBit 30) && (upFrom 0 6).all (fun p => bits x (2 * p + 1) (2 * p) != 3)
       else true)
where
  /-- The bound of R314 stays at or below 250 us. -/
  overlapOk (miss fence period probe : Nat) : Bool := decide ((fence + 1 - miss) * period + 5 ≤ 250 + probe)

/-- R56 checks 1-6 of an access; `OK` when all pass. A page whose domain is off answers POWER_OFF (R440), a wing's
page WING_RESET. DESIGN CHOICE (log entry 237): POWER_OFF stands in the place of WING_RESET, after LOCKED and before OUT_OF_RANGE. -/
def accessCheck (d : Dev) (master addr width : Nat) (write : Bool) (v : Nat) : Nat :=
  let t := mTarget addr
  if t = .nowhere then NO_PAGE
  else if ¬ widthOk t width addr then BAD_ACCESS
  else if ¬ accessAllowed d master t write then ACCESS_DENIED
  else if write ∧ lockCovers d master t then LOCKED
  else match t with
  | .page b off =>
    (match wingOfPage b with
      | some w => if ¬ wingActive d w then WING_RESET
                  else if write ∧ ¬ rangeOk d (rkey b off) v then OUT_OF_RANGE else OK
      | none => if ¬ d.domainOn b then POWER_OFF
                else if write ∧ ¬ rangeOk d (rkey b off) v then OUT_OF_RANGE else OK)
  | .slot s _ => if ¬ d.domainOn (slotOwner s) then POWER_OFF else OK
  | .nowhere => NO_PAGE

/-- The statuses that make an access refused (R57). -/
def isRefusal (st : Nat) : Bool :=
  st == NO_PAGE || st == BAD_ACCESS || st == ACCESS_DENIED || st == LOCKED || st == WING_RESET ||
  st == OUT_OF_RANGE || st == TIMEOUT

/-- The effects of a refused access (R57): the count, MOD_ACCESS_LAST, the exception of a core, and the MOD event at the
master's first refusal in the measure. -/
def Dev.refuse (d : Dev) (master addr st : Nat) : Dev :=
  let d := d.count Reg.MOD_ACCESS_FAULT_COUNT
  let d := d.wr Reg.MOD_ACCESS_LAST (master * 2 ^ 24 + st * 2 ^ 16 + accessBlock addr * 2 ^ 4)
  let d := if master = 1 ∨ master = 2 ∨ master = 3 then d.send (.coreException master) else d
  if d.acc.refused.contains master then d
  else { d with acc := { d.acc with refused := master :: d.acc.refused } }.raise 0x000 0

/-- A status stands in the master's MOD_ACCESS_STATUS, and a refusal has its effects (R57, R58). -/
def Dev.settleStatus (d : Dev) (master addr st : Nat) : Dev :=
  (if isRefusal st then d.refuse master addr st else d).wr (bankKey master Reg.MOD_ACCESS_STATUS) st

/-- An access completes at its master with a status and data; a refused read returns 0 (R57, R58). -/
def Dev.complete (d : Dev) (master addr st data : Nat) : Dev :=
  (d.settleStatus master addr st).send (.access master addr st (if st = OK then data else 0))

/-- A post of a master waits for FIFO space (R399). -/
def mbxWaiting (d : Dev) (master : Nat) : Bool := d.mbx.box.any (fun x => x.2.waits.any (fun w => w.master == master))

/-- The island that a block runs in is stopped (R38). Which island the blocks that the table *Clock islands* does not name run in is a
DESIGN CHOICE (log entry 200). -/
def blockStopped (d : Dev) (b : Nat) : Bool :=
  match pageOf b with
  | some .til => d.stopped.any (fun i => match i with | .tile t => t.val == b - 0x400 | _ => false)
  | some .wng => d.stopped.any (fun i => match i with | .landing w => w.val == b - 0x008 | _ => false)
  | some .gd => d.stopped.any (fun i => match i with | .gddr w _ => w.val == b - 0x090 | _ => false)
  | some .hall | some .pan | some .cel | some .arr | some .col | some .grp | some .opt => d.stopped.contains .hall
  | some .rtr | some .rtb | some .vca | some .cmap | some .lnk => d.stopped.contains .router
  | some .cxl => d.stopped.any (fun i => match i with | .cxl p => p.val == b - 0x048 | _ => false)
  | some .eth | some .msec => d.stopped.contains .host
  | some .bel | some .agt | some .mbx => d.stopped.contains .keep
  | _ => false

/-- The register of a mailbox, by the key of mailbox 0's, that an address is. -/
def isMbxReg (addr key : Nat) : Bool := decide (mAddr key ≤ addr ∧ addr < mAddr key + 0x800) && (addr - mAddr key) % 0x20 == 0

/-- The page does not answer an access: its block's island is stopped; but a read of a latch completes in every condition (R404). -/
def pageSilent (d : Dev) (addr : Nat) (write : Bool) : Bool :=
  blockStopped d (mTarget addr).block && (write || !isMbxReg addr Reg.MBXM_LATCH)

/-- An access of the master to the same page or slot is among some. -/
def heldBefore (ws : List Access1) (master addr : Nat) : Bool := ws.any (fun a => a.master == master && sameSpace a.addr addr)

/-- The MBX page holds a post of the master that waits for FIFO space (R399). -/
def postBehind (d : Dev) (master addr : Nat) : Bool := (mTarget addr).block == 0x050 && mbxWaiting d master

/-- An earlier access of the master to the same page or slot has not completed (R46, R399). -/
def accessBehind (d : Dev) (master addr : Nat) : Bool := heldBefore d.acc.waiting master addr || postBehind d master addr

/-- An access that passed its checks waits: its core is stopped, for its page, or behind an earlier one of its master (R38, R46). -/
def accessHeld (d : Dev) (master addr : Nat) (write : Bool) : Bool :=
  d.coreStopped master || (pageSilent d addr write || accessBehind d master addr)

/-- The flag that an RWO register has been written since a reset restored it (R13): it stands beside the register, so that what
restores the register clears it. -/
def rwoFlag (k : Nat) : Nat := 2 ^ 33 + k
def Dev.rwoWritten (d : Dev) (k : Nat) : Bool := d.rd (rwoFlag k) != (regDefault k).toNat

/-- A write of a register with no behaviour of its own: each access code as R13 says, reserved bits unchanged (R14). DESIGN CHOICE
(log entry 194): a bit of ERR_MASK that names no source is a reserved bit, as R48 says it of ERR_INVCHK. -/
def Dev.plainWrite (d : Dev) (master key v : Nat) : Dev :=
  let b := key / 0x1000
  let off := key % 0x1000
  match pageOf b with
  | none => d
  | some p =>
    if off < 0x080 then
      (if off = 0x010 then d.wr key (merge (d.rd key) (ctrlMask p) v)
       else if off = 0x020 then d.wr key (d.rd key &&& (0xFFFFFFFF ^^^ v))
       else if off = 0x024 then d.wr key (v &&& (forceBits p ||| checkBits p))
       else if off = 0x034 then d.wr key (v &&& 0xFFFFFCFF)
       else d)
    else match descAt (pageRegs p) off with
    | none => d
    | some r =>
      let k := if banked key then bankKey master key else key
      let m := r.wmask.toNat
      match r.access with
      | .rw => d.wr k (merge (d.rd k) m v)
      | .rw1c => d.wr k (d.rd k &&& (0xFFFFFFFF ^^^ (v &&& m)))
      | .rw1s => d.wr k (d.rd k ||| (v &&& m))
      | .rwo => if d.rwoWritten k then d else (d.wr k (merge (d.rd k) m v)).wr (rwoFlag k) ((regDefault k).toNat + 1)
      | .ro | .rc | .wo => d
where
  /-- The old value with the bits of a mask taken from the new one. -/
  merge (old m v : Nat) : Nat := (old &&& (0xFFFFFFFF ^^^ m)) ||| (v &&& m)
  /-- The registers that stand once per master (R412, R485). -/
  banked (key : Nat) : Bool :=
    key == Reg.MBX_TX_REMOTE || decide (Reg.MBX_TX_DATA ≤ key ∧ key < Reg.MBX_TX_DATA + 0x100) ||
    decide (Reg.REC_SW_DATA ≤ key ∧ key < Reg.REC_SW_DATA + 0x18)

/-- An access waits at its page. -/
def Dev.holdAccess (d : Dev) (a : Access1) : Dev := { d with acc := { d.acc with waiting := d.acc.waiting ++ [a] } }

/-- What an effect answers that waits for memory which does not answer (R38, R133): no status of the spec, all of which are bytes. -/
abbrev WAITS : Nat := 256

/-- An access is issued (R56): behind an earlier one of its master to the same page it waits with what its checks gave (R46); a
refused one completes; one that its page does not answer waits (check 7), unless check 6 as its effect makes it refuses it; one whose
effect waits for memory waits with it; any other has its effect. `would` is what the effect would answer. A stopped core issues none
(R38, R439). -/
def issue (a : Access1) (would : Nat) (effect : State → State) (s : State) : State :=
  if s.dev.coreStopped a.master then s
  else if accessBehind s.dev a.master a.addr then s.onDev (fun d => d.holdAccess a)
  else if a.st ≠ OK then s.onDev (fun d => d.complete a.master a.addr a.st 0)
  else if pageSilent s.dev a.addr a.write then
    s.onDev (fun d => if would = OUT_OF_RANGE then d.complete a.master a.addr OUT_OF_RANGE 0 else d.holdAccess a)
  else if would = WAITS then s.onDev (fun d => d.holdAccess a)
  else effect s

/-- A management write: the checks of R56, then the register's effect, which answers the status the access completes
with. -/
def mgmtWrite (master addr width v : Nat) (effect : State → Nat × State) (s : State) : State :=
  issue { master, addr, write := true, width, value := v, st := accessCheck s.dev master addr width true v, entry := false } (effect s).1 (fun s =>
    let r := effect s
    r.2.onDev (fun d => d.complete master addr r.1 0)) s

/-! ## Accesses that wait (R38, R46, R51, R56) -/

/-- The status a waiting access completes with before its page is asked: what its checks gave, or that by now a lock covers it, or the
page's domain or wing is gone. -/
def heldStatus (d : Dev) (a : Access1) : Nat :=
  let st := accessCheck d a.master a.addr a.width a.write a.value
  if a.st ≠ OK then a.st else if st = POWER_OFF ∨ st = WING_RESET ∨ st = LOCKED then st else OK

/-- A waiting access may complete: no post of its master waits before it, and its page answers, its checks refused it, its domain is
gone, or it is answered already. -/
def mayComplete (d : Dev) (a : Access1) : Bool :=
  a.answer.isSome || (!postBehind d a.master a.addr && (!pageSilent d a.addr a.write || heldStatus d a != OK))

/-- The first waiting access that a test names and that no other of its master to the same page waits before, and the others. -/
def takeHeld (p : Access1 → Bool) : List Access1 → List Access1 → Option (Access1 × List Access1)
  | _, [] => none
  | before, a :: rest =>
    if p a && !heldBefore before a.master a.addr then some (a, before ++ rest) else takeHeld p (before ++ [a]) rest

/-! ## The header's error and lock registers -/

/-- An event of every control or protocol source that a written mask names (R48). -/
def Dev.forceErrors (d : Dev) (b v : Nat) : List Nat → Dev
  | [] => d
  | n :: ns =>
    let force := match pageOf b with | some p => (forceBits p).testBit n && v.testBit n | none => false
    Dev.forceErrors (if force then d.raise b n else d) b v ns

/-- Inverted checks are armed: only the bits of data checkers (R48). -/
def Dev.armChecks (d : Dev) (b v : Nat) : Dev :=
  let m := match pageOf b with | some p => checkBits p | none => 0
  d.wr (rkey b 0x02C) (d.rd (rkey b 0x02C) ||| (v &&& m))

/-- Lock bits are set; a lock bit never clears by a write (R50). -/
def Dev.setLocks (d : Dev) (b v : Nat) : Dev := d.wr (rkey b 0x018) (d.rd (rkey b 0x018) ||| (v &&& 0xC0000000))

/-- A write of a header register other than a CTRL with behaviour of its own. -/
def Dev.headerWrite (d : Dev) (master b off v : Nat) : Dev :=
  if off = 0x018 then d.setLocks b v
  else if off = 0x028 then d.forceErrors b v (upFrom 0 32)
  else if off = 0x02C then d.armChecks b v
  else d.plainWrite master (rkey b off) v

/-! ## Words of the header -/

/-- VERSION of a page (R47): the die, its stepping and the block's revision. DESIGN CHOICE (log entry 195): the compute dies have
one stepping. -/
def versionWord (b : Nat) : Nat :=
  let die := match pageOf b with | some .wng | some .gd | some .til | some .clu => 2 | _ => 1
  die * 2 ^ 24 + (Config.stepping die % 256) * 2 ^ 16 + Config.blockRev b % 2 ^ 16

/-- The JTAG IDCODE: stepping, 0x1600, Voheic's JEDEC identity and 1 (R437). -/
def idcodeWord : Nat := Config.idStepping % 2 ^ 4 * 2 ^ 28 + 0x1600 * 2 ^ 12 + Config.jedecId % 2 ^ 11 * 2 + 1

/-- A source of a page is in the Tocsin fault state: STATUS.FAULT (R47). -/
def pageFault (d : Dev) (b : Nat) : Bool :=
  d.toc.src.any (fun x => x.2.st != .idle && (upFrom 0 11).any (fun n => sourceOf b n == some x.1))

/-- STATUS of a page with its block's own bits (R47). -/
def statusWord (d : Dev) (b own : Nat) : Nat :=
  let w := d.rd (rkey b 0x018)
  b2n (w.testBit 31 || w.testBit 30) * 2 ^ 31 + b2n (pageFault d b) * 2 ^ 30 +
    b2n (d.rd (rkey b 0x020) &&& (0xFFFFFFFF ^^^ d.rd (rkey b 0x024)) != 0) * 2 ^ 29 + own

/-- A read of a register with no behaviour of its own (R13, R47): the value, and the device after a read that clears. -/
def Dev.plainRead (d : Dev) (master key : Nat) : Nat × Dev :=
  let b := key / 0x1000
  let off := key % 0x1000
  match pageOf b with
  | none => (0, d)
  | some p =>
    if off = 0x004 then (versionWord b, d)
    else if off = 0x014 then (statusWord d b 0, d)
    else if off = 0x024 ∨ off = 0x018 ∨ off = 0x02C ∨ off = 0x034 ∨ off = 0x000 ∨ off = 0x008 ∨ off = 0x00C ∨ off = 0x010 ∨
        off = 0x020 then (d.rd key, d)
    else if off = 0x030 then (d.rd key, d.wr key 0)
    else if off < 0x080 then (0, d)
    else match descAt (pageRegs p) off with
    | none => (0, d)
    | some r =>
      let k := if Dev.plainWrite.banked key then bankKey master key else key
      match r.access with
      | .wo => (0, d)
      | .rc => (d.rd k, d.wr k r.dflt.toNat)
      | _ => (d.rd k, d)

/-- A management read: the checks of R56, then the register's effect, which answers status and data. -/
def mgmtRead (master addr width : Nat) (effect : State → Nat × Nat × State) (s : State) : State :=
  issue { master, addr, write := false, width, value := 0, st := accessCheck s.dev master addr width false 0, entry := false } OK (fun s =>
    let r := effect s
    r.2.2.onDev (fun d => d.complete master addr r.1 r.2.1)) s

/-- A read effect on the device alone. -/
def devReadEffect (f : Dev → Nat × Nat × Dev) (s : State) : Nat × Nat × State :=
  let r := f s.dev
  (r.1, r.2.1, { s with dev := r.2.2 })

/-- An effect on the device alone, as an effect on the state. -/
def devEffect (f : Dev → Nat × Dev) (s : State) : Nat × State :=
  let r := f s.dev
  (r.1, { s with dev := r.2 })

/-- The effect of a register with no behaviour of its own. -/
def plainEffect (master key v : Nat) (s : State) : Nat × State := (OK, s.onDev (fun d => d.plainWrite master key v))

end Sys2Proof.Machine
end

