-- ==== Sys2Proof/Machine/Memory.lean ====
section
/-! DEFINITION. GDDR7: where an address lies (R138, R139), who may reach it (R141, R142, R432), reads and writes by
lines with their errors (R134-R137, R143, R144), training, recalibration and patrol (R133, R163). -/

namespace Sys2Proof.Machine

/-! ## Addresses -/

/-- Bytes of one wing's GDDR7 (R138). -/
def gdSize : Nat := 0x2CB200000

/-- The wing whose GDDR7 holds a whole access, none where some byte lies outside (R138). -/
def gdWing (addr len : Nat) : Option Nat :=
  if addr / 2 ^ 34 < 8 ∧ addr % 2 ^ 34 + len ≤ gdSize then some (addr / 2 ^ 34) else none

/-- The device of an address within its wing (R139). -/
def gdDevice (addr : Nat) : Nat := ((addr % 2 ^ 34) >>> 8) % 3

/-- Two address ranges share a byte. -/
def overlap (a la b lb : Nat) : Bool := decide (0 < la ∧ 0 < lb ∧ a < b + lb ∧ b < a + la)

/-! ## Bytes -/

/-- What a GDDR7 byte that nothing has written reads as: the memory test leaves zeros (R501; log entry 3). -/
def gdDefault (_ : Nat) : Byte := 0

/-- The byte at an address. -/
def Mem.byte (m : Mem) (a : Nat) : Byte := SMap.get gdDefault m.gd a

/-- The bytes of a range. -/
def Mem.bytes (m : Mem) (a n : Nat) : List Byte := (upFrom a n).map m.byte

/-- The cells of a GDDR7 after bytes are stored from an address. -/
def gdStore : List Host.Cell → Nat → List Byte → List Host.Cell
  | g, _, [] => g
  | g, a, b :: bs => gdStore (SMap.put gdDefault g a b) (a + 1) bs

/-- The memory after bytes are stored from an address. -/
def Mem.store (m : Mem) (a : Nat) (bs : List Byte) : Mem := { m with gd := gdStore m.gd a bs }

/-- A range with every byte 0. -/
def Mem.zero (m : Mem) (a n : Nat) : Mem :=
  { m with gd := SMap.erase (fun k => decide (a ≤ k ∧ k < a + n)) m.gd }

/-- Byte `i` of the free value with number `n`. -/
def freeByte (n i : Nat) : Byte := BitVec.ofNat 8 (Config.free n >>> (8 * i))

/-- A range whose contents the spec calls undefined: free bytes (R124, R157). A range that is not in GDDR7 holds none. -/
def State.havoc (s : State) (a n : Nat) : State :=
  if n = 0 ∨ gdWing a n = none then s
  else { s with mem := s.mem.store a ((upFrom 0 n).map (freeByte s.dev.free)), dev := s.dev.used }

/-! ## Who may reach it -/

/-- A range of wing `w` lies inside one enabled region of a tenant (R141, R142). -/
def regionAllows (d : Dev) (w tenant off len : Nat) : Bool :=
  (upFrom 0 16).any (fun n =>
    let b := d.rd (rkey (0x008 + w) 0x080 + 8 * n)
    let o := d.rd (rkey (0x008 + w) 0x084 + 8 * n)
    let first := bits b 31 16 * 2 ^ 21
    decide (bits b 15 0 ≠ 0 ∧ first ≤ off ∧ off + len ≤ first + bits b 15 0 * 2 ^ 21) &&
      !o.testBit 9 && bits o 8 0 == tenant)

/-- Word `i` of weight range `r` (KEY_RANGE, R443). -/
def keyRange (d : Dev) (r i : Nat) : Nat := d.rd (Reg.KEY_RANGE + 16 * r + 4 * i)

/-- The start of a weight range, its length, and whether it is recorded. -/
def keyRangeStart (d : Dev) (r : Nat) : Nat := keyRange d r 0 + bits (keyRange d r 1) 15 0 * 2 ^ 32
def keyRangeLen (d : Dev) (r : Nat) : Nat := keyRange d r 2
def keyRangeValid (d : Dev) (r : Nat) : Bool := (keyRange d r 3).testBit 31

/-- A weight range is an owner's. -/
def rangeOwned (d : Dev) (sys : Bool) (t r : Nat) : Bool :=
  let o := keyRange d r 3
  o.testBit 9 == sys && (sys || bits o 8 0 == t)

/-- The first weight range that shares a byte with an access. -/
def weightRangeAt (d : Dev) (addr len : Nat) : Option Nat :=
  (upFrom 0 64).find? (fun r => keyRangeValid d r && overlap addr len (keyRangeStart d r) (keyRangeLen d r))

/-- Weight ranges that a test names end. -/
def Dev.dropRanges (d : Dev) (p : Nat → Bool) : Dev :=
  let gone (k : Nat) : Bool := decide (Reg.KEY_RANGE ≤ k ∧ k < Reg.KEY_RANGE + 0x400) && p ((k - Reg.KEY_RANGE) / 16)
  { d with regs := SMap.erase gone d.regs }

/-- What the address, the wing port, the weight ranges and the regions say to an access, in that order (R138, R32, R432,
R142). An access of no bytes is checked against nothing. -/
def gdCheck (d : Dev) (u : MemUser) (addr len : Nat) : Nat :=
  if len = 0 then OK
  else match gdWing addr len with
  | none => NO_PAGE
  | some w =>
    if ¬ wingActive d w then WING_RESET
    else if (weightRangeAt d addr len).isSome ∧ ¬ u.keyed then MEM_PROTECT
    else if u.system ∨ regionAllows d w u.tenant (addr % 2 ^ 34) len then OK
    else MEM_PROTECT

/-- Two Hall ports are the same source. The ports of the wings count as one: which of them carries a read of the array that several
wings share the spec does not say (R26, R28). -/
def sameSource (p q : Nat) : Bool := p == q || (decide (p < 8) && decide (q < 8))

/-- The counts and the events of a refused access (R142, R32, R447); one that completed with TIMEOUT is counted already (R31). -/
def Dev.gdRefuse (d : Dev) (u : MemUser) (addr len st : Nat) : Dev :=
  let w := addr / 2 ^ 34
  if st = MEM_PROTECT then
    let d := if (weightRangeAt d addr len).isSome ∧ ¬ u.keyed then d.raise 0x059 2 else d
    ((d.count (rkey (0x008 + w) 0x100)).wr (rkey (0x008 + w) 0x104)
      (2 ^ 31 + b2n u.system * 2 ^ 22 + (u.tenant % 512) * 2 ^ 13 + (addr % 2 ^ 34) / 2 ^ 21)).raise (0x008 + w) 8
  else if st = WING_RESET then d.count Reg.HALL_WING_RESET_COUNT
  else if st = TIMEOUT then
    { d with hall := { d.hall with expired := d.hall.expired.filter (fun e => !(sameSource u.port e.1 && e.2 == w)) } }
  else d

/-! ## Memory that does not answer (R38, R133) -/

/-- Bits [1:0] of GD_STATE for a device of a wing: 0 UNTRAINED, 1 READY, 2 RETRAINING, 3 FAILED. -/
def gdState (d : Dev) (w dev : Nat) : Nat := bits (d.rd (rkey (0x090 + w) 0x080)) (2 * dev + 1) (2 * dev)

/-- A UCIe module of a wing is out of use (R27). -/
def ucieOut (d : Dev) (w m : Nat) : Bool := (d.rd Reg.HALL_UCIE_STATE).testBit (2 * w + m)

/-- The islands of the UCIe modules that a wing has in use are stopped: nothing crosses to it or from it (R38). -/
def wingCut (d : Dev) (w : Nat) : Bool :=
  (upFrom 0 2).any (fun m => d.ucieStopped w m) && (upFrom 0 2).all (fun m => d.ucieStopped w m || ucieOut d w m)

/-- The device that an address's requests wait for, when it is in recalibration (R133) or its controller's island is stopped
(R38). -/
def recalibrating (d : Dev) (addr : Nat) : Option Nat :=
  let w := addr / 2 ^ 34
  if w < 8 ∧ (gdState d w (gdDevice addr) = 2 ∨ d.gdStopped w (gdDevice addr)) then some (w * 3 + gdDevice addr) else none

/-- The first device that a range's requests wait for: 256 bytes lie on one device, the next 256 on the next (R139). -/
def rangeWaits (d : Dev) (addr len : Nat) : Option Nat :=
  if len = 0 then none
  else (upFrom 0 (min 3 ((addr + len - 1) / 256 - addr / 256 + 1))).findSome? (fun i => recalibrating d ((addr / 256 + i) * 256))

/-- A range does not answer: the Hall's island is stopped, or the wing's crossings, or a device of the range (R38, R133). A wing
whose port is not ACTIVE answers at once (R32). -/
def gdHeld (d : Dev) (addr len : Nat) : Bool :=
  len != 0 &&
    (d.stopped.contains .hall ||
      (wingActive d (addr / 2 ^ 34) && (wingCut d (addr / 2 ^ 34) || (rangeWaits d addr len).isSome)))

/-- HALL_TIMEOUT has passed for an access that a user's source port has at the memory of an address's wing (R31). -/
def gdExpired (d : Dev) (u : MemUser) (addr : Nat) : Bool :=
  d.hall.expired.any (fun e => sameSource u.port e.1 && e.2 == addr / 2 ^ 34)

/-- An engine's access to a range waits until the range answers or HALL_TIMEOUT passes (R31, R38, R133). -/
def gdWaits (d : Dev) (u : MemUser) (addr len : Nat) : Bool := gdHeld d addr len && !gdExpired d u addr

/-- What a range that does not answer gives an access: TIMEOUT once HALL_TIMEOUT has passed, which uses up that one request, until
then nothing. -/
def Dev.gdUnanswered (d : Dev) (u : MemUser) (addr len : Nat) : Nat × Dev :=
  if gdExpired d u addr then (TIMEOUT, d.gdRefuse u addr len TIMEOUT) else (WAITS, d)

/-! ## Lines (R134-R137, R143) -/

/-- A correction of one pin: counted, and PIN_LIMIT at the first correction beyond the limit in the measure (R137). -/
def Dev.pinCorrected (d : Dev) (w dev ch pin : Nat) : Dev :=
  let k := ((w * 3 + dev) * 4 + ch) * 16 + pin
  let n := SMap.get (fun _ => 0) d.gddr.pins k + 1
  let d := { d with gddr := { d.gddr with pins := SMap.put (fun _ => 0) d.gddr.pins k n } }
  if d.rd (rkey (0x090 + w) 0x098) < n ∧ ¬ d.gddr.exceeded.contains k then
    ({ d with gddr := { d.gddr with exceeded := k :: d.gddr.exceeded } }.wr (rkey (0x090 + w) 0x094)
      (2 ^ 31 + dev * 2 ^ 8 + ch * 2 ^ 6 + pin)).raise (0x090 + w) 3
  else d

/-- A corrected line (R135): the count, the event and the pin. -/
def Dev.lineCE (d : Dev) (addr ch pin : Nat) : Dev :=
  let w := addr / 2 ^ 34
  ((d.count (rkey (0x090 + w) 0x084)).raise (0x090 + w) 0).pinCorrected w (gdDevice addr) ch pin

/-- An uncorrectable line (R143): the count, its address and the event. -/
def Dev.lineUE (d : Dev) (addr : Nat) : Dev :=
  let w := addr / 2 ^ 34
  let a := addr / 64 * 64
  (((d.count (rkey (0x090 + w) 0x088)).wr (rkey (0x090 + w) 0x08C) a).wr (rkey (0x090 + w) 0x090)
    (2 ^ 31 + a / 2 ^ 32 % 2 ^ 16)).raise (0x090 + w) 1

/-- An on-die correction reported by a device (R134, R168). -/
def Dev.lineOnDie (d : Dev) (addr : Nat) : Dev :=
  let w := addr / 2 ^ 34
  (d.count (rkey (0x090 + w) 0x09C)).raise (0x090 + w) 4

/-- One line is read with what it decodes to: false when no data may be delivered. A line once found uncorrectable stays
so until it is written whole (R143); an armed check spoils the line read next (R168). -/
def Dev.readLine (d : Dev) (addr : Nat) (err : LineErr) : Bool × Dev :=
  let b := 0x090 + addr / 2 ^ 34
  let line := addr / 64
  let inj := d.armedFirst b [0, 1]
  let d := match inj with | some n => d.disarm b n | none => d
  if d.gddr.bad.contains line then (false, d.lineUE addr)
  else if inj = some 1 then (false, d.lineUE addr)
  else match err with
  | .uncorrectable => (false, { d with gddr := { d.gddr with bad := d.gddr.bad ++ [line] } }.lineUE addr)
  | .onePin ch pin od =>
    let d := if od then d.lineOnDie addr else d
    if inj = some 0 then (false, { d with gddr := { d.gddr with bad := d.gddr.bad ++ [line] } }.lineUE addr)
    else (true, d.lineCE addr ch.val pin.val)
  | .onDie =>
    let d := d.lineOnDie addr
    (true, if inj = some 0 then d.used.lineCE addr (d.fresh % 4) 8 else d)
  | .clean => (true, if inj = some 0 then d.used.lineCE addr (d.fresh % 4) 8 else d)

/-- The lines of a range are read in ascending order until one is uncorrectable. -/
def Dev.readLines (d : Dev) : List Nat → Bool × Dev
  | [] => (true, d)
  | l :: ls =>
    let r := d.readLine (l * 64) .clean
    if r.1 then Dev.readLines r.2 ls else r

/-- The lines that a range touches. -/
def linesOf (addr len : Nat) : List Nat :=
  if len = 0 then [] else upFrom (addr / 64) ((addr + len - 1) / 64 - addr / 64 + 1)

/-- The lines of a range that need reading at all: those the errors or an armed check of its wing concern. With none the
read is clean, whatever its length. -/
def suspectLines (d : Dev) (addr len : Nat) : List Nat :=
  if (d.armedFirst (0x090 + addr / 2 ^ 34) [0, 1]).isSome then linesOf addr len
  else if d.gddr.bad.any (fun l => decide (addr / 64 ≤ l ∧ l * 64 < addr + len)) then linesOf addr len
  else []

/-- A read of GDDR7 that answers: its status and the device with what it counted. -/
def gdReadNow (d : Dev) (u : MemUser) (addr len : Nat) : Nat × Dev :=
  let st := gdCheck d u addr len
  if st ≠ OK then (st, d.gdRefuse u addr len st)
  else
    let r := d.readLines (suspectLines d addr len)
    (if r.1 then OK else MEM_UE, r.2)

/-- An engine's read of GDDR7, `WAITS` while the range does not answer. Its data is `Mem.bytes` when the status is OK. -/
def gdRead (d : Dev) (u : MemUser) (addr len : Nat) : Nat × Dev :=
  if gdHeld d addr len then d.gdUnanswered u addr len else gdReadNow d u addr len

/-- Lines written whole hold good data again (R143). -/
def Dev.wroteLines (d : Dev) (lo hi : Nat) : Dev :=
  { d with gddr := { d.gddr with bad := d.gddr.bad.filter (fun l => !decide (lo ≤ l ∧ l < hi)) } }

/-- The lines of a write that are read and merged: its first and its last when partial (R144). -/
def partialLines (addr len : Nat) : Option Nat × Option Nat :=
  let first := addr / 64
  let last := (addr + len - 1) / 64
  let p1 := addr % 64 ≠ 0 ∨ (first = last ∧ (addr + len) % 64 ≠ 0)
  let p2 := first ≠ last ∧ (addr + len) % 64 ≠ 0
  (if p1 then some first else none, if p2 then some last else none)

/-- Reads the line of a partial write, when there is one. -/
def Dev.mergeRead (d : Dev) : Option Nat → Bool × Dev
  | none => (true, d)
  | some l => d.readLine (l * 64) .clean

/-- The lines of an allowed write are written in ascending order, its partial ones after reading them (R144): the status,
how many leading bytes are stored, and the device. -/
def Dev.writeLines (d : Dev) (addr len : Nat) : Nat × Nat × Dev :=
  let p := partialLines addr len
  let r1 := d.mergeRead p.1
  if ¬ r1.1 then (MEM_UE, 0, r1.2)
  else
    let r2 := r1.2.mergeRead p.2
    let lo := if p.1.isSome then addr / 64 + 1 else addr / 64
    let hi := (addr + len) / 64
    let d := r2.2.wroteLines lo hi
    if ¬ r2.1 then (MEM_UE, hi * 64 - addr, d) else (OK, len, d)

/-- A write of GDDR7 that carries a user and answers (R142, R144): the status and the state after it. -/
def gdWriteNow (s : State) (u : MemUser) (addr : Nat) (bytes : List Byte) : Nat × State :=
  let st := gdCheck s.dev u addr bytes.length
  if st ≠ OK then (st, s.onDev (fun d => d.gdRefuse u addr bytes.length st))
  else if bytes = [] then (OK, s)
  else
    let r := s.dev.writeLines addr bytes.length
    (r.1, { s with mem := s.mem.store addr (bytes.take r.2.1), dev := r.2.2 })

/-- An engine's write of GDDR7, `WAITS` while the range does not answer. -/
def gdWrite (s : State) (u : MemUser) (addr : Nat) (bytes : List Byte) : Nat × State :=
  if gdHeld s.dev addr bytes.length then
    let r := s.dev.gdUnanswered u addr bytes.length
    (r.1, { s with dev := r.2 })
  else gdWriteNow s u addr bytes

/-! ## The controllers' commands -/

/-- A device's field of GD_STATE replaced. -/
def Dev.setGdState (d : Dev) (w dev v : Nat) : Dev :=
  d.wr (rkey (0x090 + w) 0x080) (setBits (d.rd (rkey (0x090 + w) 0x080)) (2 * dev + 1) (2 * dev) v)

/-- A wing port takes a state, with the event of R43 (source 106) when it changes. -/
def Dev.setWingState (d : Dev) (w v : Nat) : Dev :=
  if wingState d w = v then d
  else (d.wr Reg.HALL_WING_STATE (setBits (d.rd Reg.HALL_WING_STATE) (2 * w + 1) (2 * w) v)).raise 0x010 2

/-- The next trained device of a wing, in turn, begins recalibration: RETRAINING, when no device of the wing is in recalibration
(R133). -/
def execGdRetrainPeriod (w : Fin 8) (s : State) : Host.Outcome State Fault Refusal :=
  doneDev s (fun d =>
    let n := SMap.get (fun _ => 0) d.gddr.recal w.val
    match ((upFrom n 3).map (· % 3)).find? (fun i => gdState d w.val i == 1) with
    | some i =>
      if (upFrom 0 3).all (fun i => gdState d w.val i != 2) then
        { d.setGdState w.val i 2 with
          gddr := { d.gddr with recal := SMap.put (fun _ => 0) d.gddr.recal w.val ((i + 1) % 3) } }
      else d
    | none => d)

/-- One line read at a controller (R135): the access checks, then the line; the answer goes to the requester. -/
def readLineRequest (s : State) (addr : Nat) (err : LineErr) (u : MemUser) : State :=
  let st := gdCheck s.dev u addr 64
  if st ≠ OK then s.onDev (fun d => (d.gdRefuse u addr 64 st).send (.line addr st []))
  else
    let r := s.dev.readLine addr err
    let x := if r.1 then Sent.line addr OK (s.mem.bytes (addr / 64 * 64) 64) else Sent.line addr MEM_UE []
    s.onDev (fun _ => r.2.send x)

/-- One write at a controller (R144), answered to the requester. -/
def writeLineRequest (s : State) (addr : Nat) (bytes : List Byte) (u : MemUser) : State :=
  let r := gdWriteNow s u addr bytes
  r.2.onDev (fun d => d.send (.line addr r.1 []))

/-- A request joins those a device in recalibration holds. -/
def Dev.holdReq (d : Dev) (k : Nat) (r : GdReq) : Dev :=
  { d with gddr := { d.gddr with
      waits := SMap.put (fun _ => []) d.gddr.waits k (SMap.get (fun _ => []) d.gddr.waits k ++ [r]) } }

/-- A line request is served, or joins those that wait for a device of it. -/
def lineRequest (s : State) (q : GdReq) : State :=
  match q with
  | .read a e u => (match rangeWaits s.dev a 64 with
    | some k => s.onDev (fun d => d.holdReq k q)
    | none => readLineRequest s a e u)
  | .write a b u => (match rangeWaits s.dev a b.length with
    | some k => s.onDev (fun d => d.holdReq k q)
    | none => writeLineRequest s a b u)

/-- The requests a recalibration held proceed in their order. -/
def runReqs (s : State) : List GdReq → State
  | [] => s
  | q :: qs => runReqs (lineRequest s q) qs

/-- The requests that wait for a device proceed. -/
def gdProceed (s : State) (w dev : Nat) : State :=
  let k := w * 3 + dev
  let rs := SMap.get (fun _ => []) s.dev.gddr.waits k
  runReqs (s.onDev (fun d => { d with
    gddr := { d.gddr with waits := SMap.put (fun _ => []) d.gddr.waits k [] }
    hall := { d.hall with expired := d.hall.expired.filter (fun e => e.2 != w) } })) rs

/-- A controller reads the line that holds an address (R135). -/
def execGdLineRead (addr : BitVec 48) (err : LineErr) (user : MemUser) (s : State) :
    Host.Outcome State Fault Refusal :=
  done (lineRequest s (.read (addr.toNat / 64 * 64) err user))

/-- A write of GDDR7 bytes from an address (R144). -/
def execGdLineWrite (addr : BitVec 48) (bytes : List Byte) (user : MemUser) (s : State) :
    Host.Outcome State Fault Refusal :=
  done (lineRequest s (.write addr.toNat bytes user))

/-- The module physical address of a device address (R139, read backwards). -/
def gdAddress (w dev da : Nat) : Nat := w * 2 ^ 34 + (((da >>> 8) * 3 + dev) * 256 + da % 256)

/-- The patrol reads the next line of a device, when patrol is on and the device READY; it fails no operation (R163). -/
def execGdPatrol (w : Fin 8) (dev : Fin 3) (err : LineErr) (s : State) : Host.Outcome State Fault Refusal :=
  doneDev s (fun d =>
    if d.rd (rkey (0x090 + w.val) 0x0A0) ≠ 0 ∧ gdState d w.val dev.val = 1 ∧ ¬ d.gdStopped w.val dev.val then
      let k := w.val * 3 + dev.val
      let n := SMap.get (fun _ => 0) d.gddr.patrol k
      let d := (d.readLine (gdAddress w.val dev.val (n * 64)) err).2
      { d with gddr := { d.gddr with
          patrol := SMap.put (fun _ => 0) d.gddr.patrol k ((n + 1) % (3999268864 / 64)) } }
    else d)

/-- A write of a region's BOUND or OWNER (R141): granules beyond the wing fail with OUT_OF_RANGE, under R56. -/
def execWngRegionWrite (master : Byte) (w : Fin 8) (n : Fin 16) (owner : Bool) (value : Word) (s : State) :
    Host.Outcome State Fault Refusal :=
  let key := rkey (0x008 + w.val) ((if owner then 0x084 else 0x080) + 8 * n.val)
  done (mgmtWrite master.toNat (mAddr key) 32 value.toNat (plainEffect master.toNat key value.toNat) s)

end Sys2Proof.Machine
end

