-- ==== Sys2Proof/Machine/Float.lean ====
section
/-! DEFINITION. The numbers of the array and of the collectives: the formats of R64-R67, exact values, rounding to
nearest with ties to even, the FP32 operations of R74, R75, R108 and R109, and the functions of R110. Everything is
integer arithmetic, so that the kernel can evaluate it. -/

namespace Sys2Proof.Machine

/-- A number in a floating-point or integer format: NaN, an infinity, or a finite (-1)^neg x m x 2^e. -/
inductive FVal where
  | nan
  | inf (neg : Bool)
  | fin (neg : Bool) (m : Nat) (e : Int)
  deriving DecidableEq, Repr

/-- How a format spells infinities and NaNs (R65, R67). -/
inductive Specials where
  | ieee    -- exponent all ones: infinity, NaN
  | oneNaN  -- E4M3: all ones below the sign is NaN, no infinity
  | none
  deriving DecidableEq, Repr

/-- The layout of a floating-point format. -/
structure FFmt where
  ebits : Nat
  mbits : Nat
  bias : Nat
  specials : Specials
  deriving DecidableEq, Repr

def fp32 : FFmt := ⟨8, 23, 127, .ieee⟩
def bf16 : FFmt := ⟨8, 7, 127, .ieee⟩
def fp16 : FFmt := ⟨5, 10, 15, .ieee⟩
def e4m3 : FFmt := ⟨4, 3, 7, .oneNaN⟩
def e5m2 : FFmt := ⟨5, 2, 15, .ieee⟩
def e2m3 : FFmt := ⟨2, 3, 1, .none⟩
def e3m2 : FFmt := ⟨3, 2, 3, .none⟩
def e2m1 : FFmt := ⟨2, 1, 1, .none⟩

/-- The exponent of a format's quantum, its smallest subnormal. -/
def FFmt.quantum (f : FFmt) : Int := 1 - (f.bias : Int) - (f.mbits : Int)

/-- The code of the largest finite magnitude (R65). -/
def FFmt.maxCode (f : FFmt) : Nat :=
  match f.specials with
  | .ieee => (2 ^ f.ebits - 1) * 2 ^ f.mbits - 1
  | .oneNaN => 2 ^ (f.ebits + f.mbits) - 2
  | .none => 2 ^ (f.ebits + f.mbits) - 1

/-- The bit that holds the sign. -/
def FFmt.signBit (f : FFmt) : Nat := f.ebits + f.mbits

/-- The value of a code. -/
def FFmt.decode (f : FFmt) (c : Nat) : FVal :=
  let neg := c.testBit f.signBit
  let mag := c % 2 ^ f.signBit
  let ex := mag / 2 ^ f.mbits
  let fr := mag % 2 ^ f.mbits
  if f.maxCode < mag then
    (match f.specials with
      | .ieee => if fr = 0 then .inf neg else .nan
      | _ => .nan)
  else if ex = 0 then .fin neg fr f.quantum
  else .fin neg (2 ^ f.mbits + fr) (f.quantum + ex - 1)

/-- `m / 2^s`, rounded to nearest with ties to even. -/
def rneShr (m s : Nat) : Nat :=
  if s = 0 then m
  else
    let q := m >>> s
    let r := m % 2 ^ s
    let half := 2 ^ (s - 1)
    if half < r ∨ (r = half ∧ q % 2 = 1) then q + 1 else q

/-- The magnitude code nearest to m x 2^e in a format, ties to even, with subnormals; a code above `maxCode` says that
the rounded magnitude exceeds the largest finite value. -/
def FFmt.roundMag (f : FFmt) (m : Nat) (e : Int) : Nat :=
  if m = 0 then 0
  else
    let top : Int := (Nat.log2 m : Int) + e
    let e' : Int := max f.quantum (top - f.mbits)
    let q := if e' ≤ e then m <<< (e - e').toNat else rneShr m (e' - e).toNat
    (e' - f.quantum).toNat * 2 ^ f.mbits + q

/-- The sign bit of a code. -/
def FFmt.sign (f : FFmt) (neg : Bool) : Nat := if neg then 2 ^ f.signBit else 0

/-- The canonical NaN of FP32 (R78). -/
def nan32 : Nat := 0x7FC00000

/-- The FP32 infinity of a sign. -/
def inf32 (neg : Bool) : Nat := if neg then 0xFF800000 else 0x7F800000

/-- A finite value rounded once to FP32; a magnitude that rounds above the largest finite value becomes an infinity
(R74). A zero keeps its sign. -/
def round32 (neg : Bool) (m : Nat) (e : Int) : Nat :=
  let c := fp32.roundMag m e
  if fp32.maxCode < c then inf32 neg else fp32.sign neg + c

/-- An exact value as FP32. -/
def FVal.to32 : FVal → Nat
  | .nan => nan32
  | .inf n => inf32 n
  | .fin n m e => round32 n m e

/-- The value of an FP32 code. -/
def val32 (c : Nat) : FVal := fp32.decode c

/-- Whether a code is an infinity. -/
def isInf32 (c : Nat) : Bool := c % 2 ^ 31 == 0x7F800000

/-- Whether a code is a NaN. -/
def isNaN32 (c : Nat) : Bool := decide (0x7F800000 < c % 2 ^ 31)

/-- Whether a code is finite. -/
def isFin32 (c : Nat) : Bool := decide (c % 2 ^ 31 < 0x7F800000)

/-- A rounding turned finite values into an infinity (OVERFLOW of TIL_SPECIAL, R90). -/
def overflowed (ins : List Nat) (r : Nat) : Bool := ins.all isFin32 && isInf32 r

/-- A finite value as an integer multiple of 2^q (q at most its exponent). -/
def scaledInt (neg : Bool) (m : Nat) (e q : Int) : Int :=
  let v : Int := (m <<< (e - q).toNat : Nat)
  if neg then -v else v

/-- The FP32 nearest to an exact integer multiple of 2^q; an exact zero is +0. -/
def roundInt32 (x : Int) (q : Int) : Nat := round32 (decide (x < 0)) x.natAbs q

/-- IEEE 754-2019 addition on FP32, to nearest with ties to even, canonical NaN. -/
def add32 (a b : Nat) : Nat :=
  match val32 a, val32 b with
  | .nan, _ => nan32
  | _, .nan => nan32
  | .inf s, .inf t => if s = t then inf32 s else nan32
  | .inf s, _ => inf32 s
  | _, .inf t => inf32 t
  | .fin s m e, .fin t n f =>
    if m = 0 ∧ n = 0 then fp32.sign (s && t)
    else
      let q := min e f
      roundInt32 (scaledInt s m e q + scaledInt t n f q) q

/-- IEEE 754-2019 multiplication on FP32. -/
def mul32 (a b : Nat) : Nat :=
  match val32 a, val32 b with
  | .nan, _ => nan32
  | _, .nan => nan32
  | .inf s, .inf t => inf32 (s != t)
  | .inf s, .fin t n _ => if n = 0 then nan32 else inf32 (s != t)
  | .fin s m _, .inf t => if m = 0 then nan32 else inf32 (s != t)
  | .fin s m e, .fin t n f => round32 (s != t) (m * n) (e + f)

/-- IEEE 754-2019 fusedMultiplyAdd on FP32: `a x b + c`, rounded once. -/
def fma32 (a b c : Nat) : Nat :=
  match val32 a, val32 b with
  | .fin s m e, .fin t n f =>
    (match val32 c with
      | .fin u k g =>
        if m * n = 0 ∧ k = 0 then fp32.sign ((s != t) && u)
        else
          let q := min (e + f) g
          roundInt32 (scaledInt (s != t) (m * n) (e + f) q + scaledInt u k g q) q
      | .inf u => inf32 u
      | .nan => nan32)
  | _, _ => add32 (mul32 a b) c

/-- A zero of either sign becomes +0 (R75, R77). -/
def posZero (c : Nat) : Nat := if c % 2 ^ 31 = 0 then 0 else c

/-- The FP32 nearest to num / den (den not 0). -/
def ratio32 (num den : Nat) (e : Int) : Nat :=
  let q := (num <<< 128) / den
  round32 false (2 * q + b2n (decide ((num <<< 128) % den ≠ 0))) (e - 129)

/-- The FP32 nearest to 1 / x for a positive finite x; IEEE 754-2019 otherwise. -/
def recip32 (x : Nat) : Nat :=
  match val32 x with
  | .nan => nan32
  | .inf s => fp32.sign s
  | .fin s m e => if m = 0 then inf32 s else fp32.sign s + ratio32 1 m (-e)

/-- Whether `a` is greater than `b`, both finite FP32 codes. -/
def gt32 (a b : Nat) : Bool :=
  let sa := a.testBit 31
  let sb := b.testBit 31
  let ma := a % 2 ^ 31
  let mb := b % 2 ^ 31
  match sa, sb with
  | false, false => decide (mb < ma)
  | true, true => decide (ma < mb)
  | false, true => decide (ma ≠ 0 ∨ mb ≠ 0)
  | true, false => false

/-! ## The functions of R110

`fxBits` fractional bits carry the intermediate values. A value of the functions at a non-zero argument is
transcendental, so it is no tie; that no FP32 argument comes closer to one than the working precision is
UNVERIFIED (log entry 4). -/

/-- Fractional bits of the fixed-point working values. -/
def fxBits : Nat := 240

/-- The fixed-point number 1. -/
def fxOne : Int := 2 ^ fxBits

/-- The fixed-point product. -/
def fxMul (a b : Int) : Int := (a * b) / fxOne

/-- The terms x^k/k! of the exponential series from a given one on. -/
def expTerms (x : Int) : Nat → Nat → Int → Int
  | 0, _, _ => 0
  | n + 1, k, t => t + expTerms x n (k + 1) (fxMul t x / (k + 1 : Nat))

/-- Squared `n` times. -/
def fxSquares : Nat → Int → Int
  | 0, x => x
  | n + 1, x => fxSquares n (fxMul x x)

/-- e^x of a fixed-point argument of magnitude at most 64. -/
def fxExp (x : Int) : Int := fxSquares 12 (expTerms (x / 2 ^ 12) 40 0 fxOne)

/-- The terms 1/((2k+1) 3^(2k+1)) of the series of log 2. -/
def ln2Terms : Nat → Nat → Int → Int
  | 0, _, _ => 0
  | n + 1, k, p => p / (2 * k + 1 : Nat) + ln2Terms n (k + 1) (p / 9)

/-- log 2 in fixed point. -/
def fxLn2 : Int := 2 * ln2Terms 80 0 (fxOne / 3)

/-- A finite FP32 value in fixed point. -/
def toFx (neg : Bool) (m : Nat) (e : Int) : Int :=
  let v : Int :=
    if 0 ≤ e + fxBits then (m <<< (e + fxBits).toNat : Nat) else (m >>> (-(e + fxBits)).toNat : Nat)
  if neg then -v else v

/-- The FP32 nearest to a fixed-point value times 2^e. -/
def ofFx (x : Int) (e : Int) : Nat := round32 (decide (x < 0)) x.natAbs (e - fxBits)

/-- x / (1 + e^-z) for x = (-1)^neg m 2^e and a fixed-point z. -/
def logisticTimes (neg : Bool) (m : Nat) (e : Int) (z : Int) : Nat :=
  let s := (fxOne * fxOne) / (fxOne + fxExp (-z))
  fp32.sign neg + fp32.roundMag (m * s.natAbs) (e - fxBits)

/-- GELU of R110: 0.5x(1 + tanh(0.79788456(x + 0.044715x^3))), which is x / (1 + e^-2u). -/
def gelu32 (x : Nat) : Nat :=
  match val32 x with
  | .nan => nan32
  | .inf s => if s then 0 else inf32 false
  | .fin s m e =>
    if m = 0 then 0
    else if ¬ gt32 0x41000000 (x % 2 ^ 31) then (if s then 0 else x)   -- |x| ≥ 8
    else
      let v := toFx s m e
      let cube := fxMul (fxMul v v) v
      let z := (2 * 79788456 * (v * 1000000 + 44715 * cube)) / (100000000 * 1000000)
      logisticTimes s m e z

/-- SiLU of R110: x / (1 + e^-x). -/
def silu32 (x : Nat) : Nat :=
  match val32 x with
  | .nan => nan32
  | .inf s => if s then 0 else inf32 false
  | .fin s m e =>
    if m = 0 then 0
    else if ¬ gt32 0x41800000 (x % 2 ^ 31) then (if s then 0 else x)   -- |x| ≥ 16
    else logisticTimes s m e (toFx s m e)

/-- ReLU of R110. -/
def relu32 (x : Nat) : Nat := if isNaN32 x then nan32 else if x.testBit 31 then 0 else x

/-- exp2_tab of R110, for arguments of at most 0 (softmax gives no other). -/
def exp2Tab (x : Nat) : Nat :=
  match val32 x with
  | .nan => nan32
  | .inf s => if s then 0 else inf32 false
  | .fin s m e =>
    if m = 0 then 0x3F800000
    else if s ∧ gt32 (x % 2 ^ 31) 0x42FC0000 then 0                     -- below -126
    else
      let v := toFx s m e
      let n := v / fxOne                                                  -- floor
      let f := v - n * fxOne
      ofFx (fxExp (fxMul f fxLn2)) n

end Sys2Proof.Machine
end

