-- ==== Sys2Proof/Machine/Operands.lean ====
section
/-! DEFINITION. The operand forms of the array: format codes and pairs (R64, R69), packing (R68), the fields of an array
descriptor (R101), one K-block of a cell (R72-R77), and output conversion (R81-R83). -/

namespace Sys2Proof.Machine

/-! ## Formats -/

/-- Bits of one element of a format code (R64); 0 for a reserved code. -/
def fmtBits (f : Nat) : Nat :=
  match f with
  | 0 => 32 | 1 => 16 | 2 => 16 | 3 => 8 | 4 => 8 | 5 => 6 | 6 => 6 | 7 => 4 | 8 => 8 | 9 => 4 | _ => 0

/-- The layout of a floating-point format code. -/
def fmtFloat (f : Nat) : Option FFmt :=
  match f with
  | 0 => some fp32 | 1 => some bf16 | 2 => some fp16 | 3 => some e4m3 | 4 => some e5m2 | 5 => some e2m3
  | 6 => some e3m2 | 7 => some e2m1 | _ => none

/-- The value of an element's code (R65-R67). -/
def elemVal (f code : Nat) : FVal :=
  match fmtFloat f with
  | some x => x.decode code
  | none =>
    let v := signed (fmtBits f) code
    .fin (decide (v < 0)) v.natAbs 0

/-- A wide input format (BF16, FP16). -/
def fmtWide (f : Nat) : Bool := f == 1 || f == 2

/-- A narrow format: 8 bits or fewer. -/
def fmtNarrow (f : Nat) : Bool := decide (3 ≤ f ∧ f ≤ 9)

/-- The input pairs of R69. -/
def pairOk (a b : Nat) : Bool :=
  (a == 1 && b == 1) || (a == 2 && b == 2) ||
  (decide (3 ≤ a ∧ a ≤ 7) && decide (3 ≤ b ∧ b ≤ 7)) ||
  (decide (8 ≤ a ∧ a ≤ 9) && decide (8 ≤ b ∧ b ≤ 9))

/-- An output format with a scaling choice (R64). -/
def outOk (f : Nat) (scaled : Bool) : Bool :=
  if scaled then decide (3 ≤ f ∧ f ≤ 9) else decide (f ≤ 4) || f == 8 || f == 9

/-- Bytes that hold `n` packed elements (R68). -/
def packedBytes (f n : Nat) : Nat := (n * fmtBits f + 7) / 8

/-- The codes of `n` packed elements: with little-endian bytes every packing of R68 is one little-endian number. -/
def unpack (f n : Nat) (bs : List Byte) : List Nat :=
  let x := ofLE bs
  (upFrom 0 n).map (fun j => (x >>> (j * fmtBits f)) % 2 ^ fmtBits f)

/-- The number that packed codes spell. -/
def packNat (b : Nat) : List Nat → Nat
  | [] => 0
  | c :: cs => c % 2 ^ b + 2 ^ b * packNat b cs

/-- Codes packed into bytes. -/
def pack (f : Nat) (cs : List Nat) : List Byte := leBytes (packedBytes f cs.length) (packNat (fmtBits f) cs)

/-! ## Flags of TIL_SPECIAL (R90) -/

abbrev flNanIn : Nat := 1
abbrev flInfIn : Nat := 2
abbrev flOverflow : Nat := 4
abbrev flOutNan : Nat := 8
abbrev flOutSat : Nat := 16

/-- The input flags of one value. -/
def inFlags (v : FVal) : Nat :=
  match v with
  | .nan => flNanIn
  | .inf _ => flInfIn
  | .fin _ _ _ => 0

/-- The flags of several values. -/
def orAll (xs : List Nat) : Nat := xs.foldl (fun a b => a ||| b) 0

/-! ## One K-block of one cell -/

/-- What the products of a narrow K-block give: the exact sum as a lower bank in units of 2^-32 and, of a pair with E5M2 (`two`), an
upper bank in units of 1 (R72, R73), and the three flags of R76. -/
structure KSum where
  two : Bool
  sum : Int
  up : Int
  nan : Bool
  pinf : Bool
  ninf : Bool
  deriving DecidableEq, Repr

/-- No product yet. -/
def KSum.zero (two : Bool) : KSum := ⟨two, 0, 0, false, false, false⟩

/-- The exact sum, in units of 2^-32. -/
def KSum.exact (k : KSum) : Int := k.sum + k.up * 2 ^ 32

/-- One product more. DESIGN CHOICE (log entry 193): a product of two infinities, which R76 does not name, sets PINF or NINF by its
sign. -/
def KSum.add (k : KSum) (a b : FVal) : KSum :=
  match a, b with
  | .nan, _ => { k with nan := true }
  | _, .nan => { k with nan := true }
  | .inf s, .inf t => if s = t then { k with pinf := true } else { k with ninf := true }
  | .inf s, .fin t n _ =>
    if n = 0 then { k with nan := true } else if s = t then { k with pinf := true } else { k with ninf := true }
  | .fin s m _, .inf t =>
    if m = 0 then { k with nan := true } else if s = t then { k with pinf := true } else { k with ninf := true }
  | .fin s m e, .fin t n f =>
    let x := scaledInt (s != t) (m * n) (e + f) (-32)
    if k.two ∧ 2 ^ 40 ≤ x.natAbs then { k with up := k.up + x / 2 ^ 32 } else { k with sum := k.sum + x }

/-- The sum of the products of two lists of elements. -/
def ksum : KSum → List FVal → List FVal → KSum
  | k, a :: as, b :: bs => ksum (k.add a b) as bs
  | k, _, _ => k

/-- The block value of a narrow K-block (R74 rounding point 1, R76): FP32 code and whether the rounding overflowed. -/
def blockValue (k : KSum) (sa sb : Nat) : Nat × Bool :=
  if sa = 0xFF ∨ sb = 0xFF ∨ k.nan ∨ (k.pinf ∧ k.ninf) then (nan32, false)
  else if k.pinf then (inf32 false, false)
  else if k.ninf then (inf32 true, false)
  else
    let r := posZero (roundInt32 k.exact ((sa : Int) + (sb : Int) - 254 - 32))
    (r, isInf32 r)

/-- One K-block of a cell on the narrow path (R74): the accumulator after it and the flags. -/
def cellNarrow (acc : Nat) (k : KSum) (sa sb : Nat) : Nat × Nat :=
  let b := blockValue k sa sb
  let r := posZero (add32 acc b.1)
  (r, if b.2 || overflowed [acc, b.1] r then flOverflow else 0)

/-- One K-block of a cell on the wide path (R75). -/
def cellWide : Nat → Nat → List FVal → List FVal → Nat × Nat
  | acc, fl, a :: as, b :: bs =>
    let r := posZero (fma32 a.to32 b.to32 acc)
    cellWide r (if overflowed [a.to32, b.to32, acc] r then fl ||| flOverflow else fl) as bs
  | acc, fl, _, _ => (acc, fl)

/-! ## Output conversion -/

/-- A finite magnitude as an integer, to nearest with ties to even. -/
def roundNat (m : Nat) (e : Int) : Nat := if 0 ≤ e then m <<< e.toNat else rneShr m (-e).toNat

/-- A rounded integer clamped into an integer format: code and whether it was clamped (R81, R82). -/
def intCode (f : Nat) (neg : Bool) (n : Nat) : Nat × Bool :=
  let b := fmtBits f
  if neg then (if 2 ^ (b - 1) < n then (2 ^ (b - 1), true) else (unsigned b (-(n : Int)), false))
  else (if 2 ^ (b - 1) - 1 < n then (2 ^ (b - 1) - 1, true) else (n, false))

/-- The end of an integer format's range with a sign. -/
def intEnd (f : Nat) (neg : Bool) : Nat := if neg then 2 ^ (fmtBits f - 1) else 2 ^ (fmtBits f - 1) - 1

/-- Unscaled conversion of one FP32 value (R81): code and flags. -/
def convert (f : Nat) (sat : Bool) (x : Nat) : Nat × Nat :=
  match fmtFloat f with
  | none =>
    (match val32 x with
      | .nan => (0, flOutNan)
      | .inf s => (intEnd f s, flOutSat)
      | .fin s m e => let r := intCode f s (roundNat m e); (r.1, if r.2 then flOutSat else 0))
  | some g =>
    if f = 0 then (if isNaN32 x then (nan32, flOutNan) else (x, 0))
    else
      let beyond (s : Bool) : Nat × Nat :=
        match g.specials with
        | .ieee => if f = 4 ∧ sat then (g.sign s + g.maxCode, flOutSat) else (g.sign s + g.maxCode + 1, 0)
        | _ => if sat then (g.sign s + g.maxCode, flOutSat) else (0x7F, flOutNan)
      match val32 x with
      | .nan =>
        (match f with
          | 1 => (0x7FC0, flOutNan)
          | 2 => (0x7E00, flOutNan)
          | _ => (0x7F, flOutNan))
      | .inf s => beyond s
      | .fin s m e => let c := g.roundMag m e; if g.maxCode < c then beyond s else (g.sign s + c, 0)

/-- E_max of a scaled output format (R82). -/
def scaleEmax (f : Nat) : Int :=
  match f with
  | 3 => 8 | 4 => 15 | 5 => 2 | 6 => 4 | 7 => 2 | 8 => 6 | _ => 2

/-- floor(log2) of a finite non-zero FP32 value, none for others. -/
def log2Of (x : Nat) : Option Int :=
  match val32 x with
  | .fin _ m e => if m = 0 then none else some ((Nat.log2 m : Int) + e)
  | _ => none

/-- The largest of some exponents. -/
def maxLog : List Nat → Option Int
  | [] => none
  | x :: xs =>
    match log2Of x, maxLog xs with
    | some a, some b => some (max a b)
    | some a, none => some a
    | none, r => r

/-- One element of a scaled row with shared exponent `e` (R82). -/
def scaledElem (f : Nat) (sat : Bool) (e : Int) (x : Nat) : Nat × Nat :=
  match fmtFloat f, val32 x with
  | none, .fin s m q => let r := intCode f s (roundNat m (q - e)); (r.1, if r.2 then flOutSat else 0)
  | none, .inf s => (intEnd f s, flOutSat)
  | none, .nan => (0, 0)
  | some g, .fin s m q =>
    let c := g.roundMag m (q - e)
    if g.maxCode < c then (g.sign s + g.maxCode, flOutSat) else (g.sign s + c, 0)
  | some g, .inf s => if sat then (g.sign s + g.maxCode, flOutSat) else (g.sign s + g.maxCode + 1, 0)
  | some _, .nan => (0, 0)

/-- Scaled conversion of one row of a block (R82): scale code, element codes, flags. -/
def convertRow (f : Nat) (sat : Bool) (xs : List Nat) : Nat × List Nat × Nat :=
  if xs.any isNaN32 ∨ (xs.any isInf32 ∧ ¬ sat ∧ f ≠ 4) then (0xFF, xs.map (fun _ => 0), flOutNan)
  else
    let e : Int := match maxLog xs with
      | none => 0
      | some l => max (-127) (min 127 (l - scaleEmax f))
    let rs := xs.map (scaledElem f sat e)
    ((e + 127).toNat, rs.map (·.1), orAll (rs.map (·.2)))

/-! ## Descriptor fields (R101) -/

/-- Word `i` of a descriptor. -/
def dw (ws : List Nat) (i : Nat) : Nat := listAt 0 ws i

/-- A 48-bit address whose low word is word `i`, and the pitch in the upper half of the next word, in bytes. -/
def dAddr (ws : List Nat) (i : Nat) : Nat := dw ws i + bits (dw ws (i + 1)) 15 0 * 2 ^ 32
def dPitch (ws : List Nat) (i : Nat) : Nat := bits (dw ws (i + 1)) 31 16 * 64

/-- The fields of an array descriptor that its meaning uses. -/
structure ArrDesc where
  code : Nat
  afmt : Nat
  bfmt : Nat
  ofmt : Nat
  sat : Bool
  aunit : Bool
  bunit : Bool
  oscaled : Bool
  dest : Nat
  notify : Bool
  tag : Nat
  m : Nat
  n : Nat
  k : Nat
  batch : Nat
  act : Nat
  biasEn : Bool
  scaleEn : Bool
  scaleVec : Bool
  resEn : Bool
  resfmt : Nat
  n2 : Nat
  rowop : Nat
  pfmt : Nat
  deriving DecidableEq, Repr

/-- A descriptor read. -/
def arrDesc (ws : List Nat) : ArrDesc where
  code := bits (dw ws 0) 31 28
  afmt := bits (dw ws 0) 27 24
  bfmt := bits (dw ws 0) 23 20
  ofmt := bits (dw ws 0) 19 16
  sat := (dw ws 0).testBit 15
  aunit := (dw ws 0).testBit 14
  bunit := (dw ws 0).testBit 13
  oscaled := (dw ws 0).testBit 12
  dest := bits (dw ws 0) 11 10
  notify := (dw ws 0).testBit 9
  tag := bits (dw ws 0) 7 0
  m := bits (dw ws 1) 23 0
  n := bits (dw ws 2) 23 0
  k := bits (dw ws 3) 23 0
  batch := bits (dw ws 4) 31 16
  act := bits (dw ws 4) 15 12
  biasEn := (dw ws 4).testBit 11
  scaleEn := (dw ws 4).testBit 10
  scaleVec := (dw ws 4).testBit 9
  resEn := (dw ws 4).testBit 8
  resfmt := bits (dw ws 4) 7 4
  n2 := bits (dw ws 27) 23 0
  rowop := bits (dw ws 27) 31 28
  pfmt := bits (dw ws 27) 27 24

/-- Items, columns and block counts of the operation's output. -/
def ArrDesc.items (x : ArrDesc) : Nat := if x.code = 2 then x.batch else 1
def ArrDesc.cols (x : ArrDesc) : Nat := if x.code = 4 then x.n2 else x.n
def ArrDesc.noOutput (x : ArrDesc) : Bool := x.m == 0 || x.cols == 0 || x.items == 0
def ArrDesc.elements (x : ArrDesc) : Nat := x.items * x.m * x.cols

/-- The geometry of a CONV (R106). -/
structure ConvGeo where
  fh : Nat
  fw : Nat
  sh : Nat
  sw : Nat
  ph : Nat
  pw : Nat
  h : Nat
  w : Nat
  deriving DecidableEq, Repr

def convGeo (ws : List Nat) : ConvGeo :=
  ⟨bits (dw ws 27) 31 24, bits (dw ws 27) 23 16, bits (dw ws 27) 15 12, bits (dw ws 27) 11 8, bits (dw ws 27) 7 4,
   bits (dw ws 27) 3 0, bits (dw ws 28) 31 16, bits (dw ws 28) 15 0⟩

def ConvGeo.cin (g : ConvGeo) (k : Nat) : Nat := k / (g.fh * g.fw)
def ConvGeo.ho (g : ConvGeo) : Nat := (g.h + 2 * g.ph - g.fh) / g.sh + 1
def ConvGeo.wo (g : ConvGeo) : Nat := (g.w + 2 * g.pw - g.fw) / g.sw + 1
def ConvGeo.images (g : ConvGeo) (m : Nat) : Nat := m / (g.ho * g.wo)

/-- The geometry is consistent (R106, R104). -/
def ConvGeo.ok (g : ConvGeo) (m k : Nat) : Bool :=
  g.fh != 0 && g.fw != 0 && g.sh != 0 && g.sw != 0 && g.h != 0 && g.w != 0 &&
  k % (g.fh * g.fw) == 0 && g.cin k % 32 == 0 &&
  decide (g.fh ≤ g.h + 2 * g.ph ∧ g.fw ≤ g.w + 2 * g.pw) && m % (g.ho * g.wo) == 0

end Sys2Proof.Machine
end

