-- ==== Sys2Proof/Machine/Reduce.lean ====
section
/-! DEFINITION. What collectives compute: element types and reduction (R266-R269), the trees (R264, R265), the fields of a
descriptor (R259), chunks (R271), CRC-64 (R275), and the participations and groups as the state holds them. -/

namespace Sys2Proof.Machine

/-! ## CRC-64 (R275) -/

/-- CRC-64 with the reflected ECMA-182 polynomial. -/
def crc64 (bs : List Byte) : Nat :=
  crcBytes 0xC96C5795D7870F42 0xFFFFFFFFFFFFFFFF bs ^^^ 0xFFFFFFFFFFFFFFFF

/-! ## Element types (R259) -/

/-- Bits of an element of a type: the formats of R64, INT16 and INT32. -/
def colBits (ty : Nat) : Nat := if ty = 0xA then 16 else if ty = 0xB then 32 else fmtBits ty

/-- The value of an element's code. -/
def colVal (ty code : Nat) : FVal :=
  match fmtFloat ty with
  | some x => x.decode code
  | none =>
    let v := signed (colBits ty) code
    .fin (decide (v < 0)) v.natAbs 0

/-- The canonical NaN of a type (R78, R266); an integer type has none. -/
def colNaN (ty : Nat) : Nat :=
  match ty with
  | 0 => nan32 | 1 => 0x7FC0 | 2 => 0x7E00 | 3 => 0x7F | 4 => 0x7F | _ => 0

/-- A reduced element: its code, whether a value was clamped or saturated, and whether it is a NaN (R269). -/
structure Red where
  code : Nat
  sat : Bool
  nan : Bool
  deriving DecidableEq, Repr

/-- An infinity, or a magnitude beyond the largest, as R81 gives it with SAT. -/
def colOver (ty : Nat) (g : FFmt) (sat neg : Bool) : Red :=
  if ty = 3 then (if sat then ⟨g.sign neg + g.maxCode, true, false⟩ else ⟨0x7F, false, true⟩)
  else if ty = 4 ∧ sat then ⟨g.sign neg + g.maxCode, true, false⟩
  else ⟨g.sign neg + g.maxCode + 1, false, false⟩

/-- An integer saturated to a type's range. -/
def colInt (ty : Nat) (v : Int) : Red :=
  let b := colBits ty
  if v < -(2 ^ (b - 1) : Int) then ⟨2 ^ (b - 1), true, false⟩
  else if (2 ^ (b - 1) : Int) ≤ v then ⟨2 ^ (b - 1) - 1, true, false⟩
  else ⟨unsigned b v, false, false⟩

/-- A value as an element of a type (R266, R269): rounded once, to nearest with ties to even. -/
def colForm (ty : Nat) (sat : Bool) (v : FVal) : Red :=
  match fmtFloat ty, v with
  | none, .fin s m e => colInt ty (if s then -(roundNat m e : Int) else (roundNat m e : Int))
  | none, _ => ⟨0, false, true⟩
  | some _, .nan => ⟨colNaN ty, false, true⟩
  | some g, .inf s => colOver ty g sat s
  | some g, .fin s m e =>
    let c := g.roundMag m e
    if g.maxCode < c then colOver ty g sat s else ⟨g.sign s + c, false, false⟩

/-- The exact sum of two values; an exact zero is -0 when both are -0, else +0. -/
def exactSum (a b : FVal) : FVal :=
  match a, b with
  | .nan, _ => .nan
  | _, .nan => .nan
  | .inf s, .inf t => if s = t then .inf s else .nan
  | .inf s, _ => .inf s
  | _, .inf t => .inf t
  | .fin s m e, .fin t n f =>
    let q := min e f
    let x := scaledInt s m e q + scaledInt t n f q
    .fin (if x = 0 then s && t && m == 0 && n == 0 else decide (x < 0)) x.natAbs q

/-- Whether one value lies below another, -0 below +0; neither is a NaN. -/
def below (a b : FVal) : Bool :=
  match a, b with
  | .inf s, .inf t => s && !t
  | .inf s, _ => s
  | _, .inf t => !t
  | .fin s m e, .fin t n f =>
    let q := min e f
    let x := scaledInt s m e q
    let y := scaledInt t n f q
    decide (x < y) || (x == y && s && !t && m == 0)
  | _, _ => false

/-- The maximum or minimum of two values, any NaN giving NaN. -/
def extreme (maxi : Bool) (a b : FVal) : FVal :=
  match a, b with
  | .nan, _ => .nan
  | _, .nan => .nan
  | _, _ => if below a b = maxi then b else a

/-- combine() of R266 on two codes. -/
def combineCodes (ty op : Nat) (sat : Bool) (a b : Nat) : Red :=
  let x := colVal ty a
  let y := colVal ty b
  colForm ty sat (if op = 0 then exactSum x y else extreme (op == 1) x y)

/-! ## Exact mode (R267-R269) -/

/-- An exact partial: a multiple of the type's quantum and the three flags. -/
structure ExAcc where
  v : Int
  nan : Bool
  pinf : Bool
  ninf : Bool
  deriving DecidableEq, Repr

/-- The exponent of a type's quantum (R268). -/
def quantumOf (ty : Nat) : Int := if ty = 2 then -24 else if ty = 4 then -16 else if ty = 3 then -9 else 0

/-- An input element as a partial. -/
def exOf (ty code : Nat) : ExAcc :=
  match colVal ty code with
  | .nan => ⟨0, true, false, false⟩
  | .inf s => ⟨0, false, !s, s⟩
  | .fin s m e => ⟨scaledInt s m e (quantumOf ty), false, false, false⟩

/-- The sum of two partials. -/
def ExAcc.add (a b : ExAcc) : ExAcc := ⟨a.v + b.v, a.nan || b.nan, a.pinf || b.pinf, a.ninf || b.ninf⟩

/-- The 64-bit word of a partial, and the partial of a word (R268). -/
def ExAcc.word (a : ExAcc) : Nat :=
  if a.nan then 0x8000000000000000
  else if a.pinf ∧ a.ninf then 0x8000000000000003
  else if a.pinf then 0x8000000000000001
  else if a.ninf then 0x8000000000000002
  else unsigned 64 a.v
def exWord (w : Nat) : ExAcc :=
  if w = 0x8000000000000000 then ⟨0, true, false, false⟩
  else if w = 0x8000000000000001 then ⟨0, false, true, false⟩
  else if w = 0x8000000000000002 then ⟨0, false, false, true⟩
  else if w = 0x8000000000000003 then ⟨0, false, true, true⟩
  else ⟨signed 64 w, false, false, false⟩

/-- The result of an exact reduction (R269). -/
def ExAcc.form (a : ExAcc) (ty : Nat) (sat : Bool) : Red :=
  if a.nan ∨ (a.pinf ∧ a.ninf) then ⟨colNaN ty, false, true⟩
  else if a.pinf then colForm ty sat (.inf false)
  else if a.ninf then colForm ty sat (.inf true)
  else colForm ty sat (.fin (decide (a.v < 0)) a.v.natAbs (quantumOf ty))

/-! ## Chunks of elements -/

/-- Codes of a type packed into bytes, and the codes that bytes hold. -/
def colPack (ty : Nat) (cs : List Nat) : List Byte := leBytes ((cs.length * colBits ty + 7) / 8) (packNat (colBits ty) cs)
def colCodes (b : Nat) (bs : List Byte) : List Nat :=
  let x := ofLE bs
  (upFrom 0 (bs.length * 8 / b)).map (fun j => (x >>> (j * b)) % 2 ^ b)

/-- A reduction of two chunks, or a formed chunk: its bytes and the flags. -/
structure RedChunk where
  bytes : List Byte
  sat : Bool
  nan : Bool
  deriving DecidableEq, Repr

/-- Reduced elements as a chunk. -/
def redChunk (ty : Nat) (rs : List Red) : RedChunk :=
  ⟨colPack ty (rs.map (·.code)), rs.any (·.sat), rs.any (·.nan)⟩

/-- Input bytes in the form in which they are combined. -/
def colEnter (exact : Bool) (ty : Nat) (bs : List Byte) : List Byte :=
  if exact then ((colCodes (colBits ty) bs).map (fun c => leBytes 8 (exOf ty c).word)).flatten else bs

/-- Two chunks combined, the one of the lower indices first (R264). -/
def combineChunks (exact : Bool) (ty op : Nat) (sat : Bool) (a b : List Byte) : RedChunk :=
  if exact then
    ⟨(((colCodes 64 a).zip (colCodes 64 b)).map (fun p => leBytes 8 ((exWord p.1).add (exWord p.2)).word)).flatten, false, false⟩
  else redChunk ty (((colCodes (colBits ty) a).zip (colCodes (colBits ty) b)).map (fun p => combineCodes ty op sat p.1 p.2))

/-- The result formed where the tree is complete. -/
def formChunk (exact : Bool) (ty : Nat) (sat : Bool) (a : List Byte) : RedChunk :=
  if exact then redChunk ty ((colCodes 64 a).map (fun w => (exWord w).form ty sat)) else ⟨a, false, false⟩

/-! ## Trees (R264) -/

/-- The lowest set bit of a logical index; above every index for 0. -/
def lowbit (p : Nat) : Nat := if p = 0 then 2 ^ 16 else p &&& (2 ^ 16 - p)

/-- The children of a node, ascending. -/
def treeKids (n p : Nat) : List Nat :=
  ((upFrom 0 15).filter (fun k => decide (2 ^ k < lowbit p ∧ p + 2 ^ k < n))).map (fun k => p + 2 ^ k)

/-- The parent of a node. -/
def treeParent (p : Nat) : Nat := p - lowbit p

/-- The end of a node's subtree. -/
def treeEnd (n p : Nat) : Nat := min n (p + lowbit p)

/-- The depth, ceil(log2 n). -/
def treeDepth (n : Nat) : Nat := if n ≤ 1 then 0 else Nat.log2 (n - 1) + 1

/-! ## Descriptors (R259) -/

def ColJob.word (j : ColJob) (i : Nat) : Nat := listAt 0 j.words i
def ColJob.count (j : ColJob) : Nat := j.word 1
/-- The collective: a COUNT of 0 makes it a barrier (R255). -/
def ColJob.coll (j : ColJob) : Nat := if j.count = 0 then 7 else bits (j.word 0) 31 28
def ColJob.ty (j : ColJob) : Nat := bits (j.word 0) 27 24
def ColJob.redop (j : ColJob) : Nat := bits (j.word 0) 23 22
def ColJob.exact (j : ColJob) : Bool := (j.word 0).testBit 21
def ColJob.sat (j : ColJob) : Bool := (j.word 0).testBit 20
def ColJob.array (j : ColJob) : Bool := (j.word 0).testBit 19
def ColJob.chunkUnits (j : ColJob) : Nat := bits (j.word 0) 17 13
def ColJob.chunkBytes (j : ColJob) : Nat := j.chunkUnits * 4096
def ColJob.group (j : ColJob) : Nat := bits (j.word 2) 31 20
def ColJob.root (j : ColJob) : Nat := bits (j.word 2) 14 0
def ColJob.rwin (j : ColJob) : Nat := bits (j.word 3) 31 20
def ColJob.src (j : ColJob) : Nat := j.word 4 + bits (j.word 5) 15 0 * 2 ^ 32
def ColJob.roff (j : ColJob) : Nat := j.word 6 + bits (j.word 7) 15 0 * 2 ^ 32

/-- The collective has a root. -/
def ColJob.rooted (j : ColJob) : Bool := j.coll == 4 || j.coll == 5

/-- The rotation of the control tree (R265). -/
def ColJob.ctlRot (j : ColJob) : Nat := if j.rooted then j.root else 0

/-- The collective reduces; data goes up; results go down a tree. -/
def ColJob.up (j : ColJob) : Bool := j.coll == 1 || j.coll == 2 || j.coll == 5
def ColJob.downs (j : ColJob) : Bool := j.coll == 1 || j.coll == 3 || j.coll == 4

/-- Elements of a member's input and of its result (R254); the root alone reads a BROADCAST's and writes a REDUCE's. -/
def ColJob.inElems (j : ColJob) (n self : Nat) : Nat :=
  match j.coll with
  | 2 | 6 => n * j.count
  | 4 => if self = j.root then j.count else 0
  | 7 => 0
  | _ => j.count
def ColJob.outElems (j : ColJob) (n self : Nat) : Nat :=
  match j.coll with
  | 3 | 6 => n * j.count
  | 5 => if self = j.root then j.count else 0
  | 7 => 0
  | _ => j.count

/-- Bytes of one segment, piece or whole input; chunks of it; trees (R271). -/
def ColJob.seg (j : ColJob) : Nat := (j.count * colBits j.ty + 7) / 8
def ColJob.nch (j : ColJob) : Nat :=
  if j.coll = 7 then 0 else (j.seg + j.chunkBytes - 1) / j.chunkBytes
def ColJob.trees (j : ColJob) (n : Nat) : Nat := if j.coll = 2 ∨ j.coll = 3 ∨ j.coll = 6 then n else 1

/-- Bytes of chunk `c`. -/
def ColJob.chunkLen (j : ColJob) (c : Nat) : Nat := min j.chunkBytes (j.seg - c * j.chunkBytes)

/-- The rotation of the data tree `t` for chunk `c` (R265). -/
def ColJob.rot (j : ColJob) (cseq n t c : Nat) : Nat :=
  match j.coll with
  | 1 => (c + cseq) % n
  | 4 | 5 => j.root
  | _ => t

/-- Where chunk `c` of tree `t` lies in the result window (R254). -/
def ColJob.resOff (j : ColJob) (t c : Nat) : Nat :=
  j.roff + (if j.coll = 3 ∨ j.coll = 6 then t * (j.count * colBits j.ty) / 8 else 0) + c * j.chunkBytes

/-- The slots of one chunk buffer (R276): 12 bytes an element in exact mode, of a collective that reduces. -/
def ColJob.bufSlots (j : ColJob) : Nat :=
  if j.exact ∧ j.up then (j.chunkBytes * 8 / colBits j.ty * 12 + 4095) / 4096 else j.chunkUnits

/-! ## Groups and participations as the state holds them -/

/-- No group. -/
def Grp.empty : Grp := ⟨false, false, 0, 0, 0, 0, 0, 0⟩

/-- Group `g`, and the device with it replaced. -/
def grp (d : Dev) (g : Nat) : Grp := SMap.get (fun _ => Grp.empty) d.col.groups g
def Dev.setGrp (d : Dev) (g : Nat) (x : Grp) : Dev :=
  { d with col := { d.col with groups := SMap.put (fun _ => Grp.empty) d.col.groups g x } }

/-- A member-pool entry. -/
def poolEntry (d : Dev) (i : Nat) : Nat := SMap.get (fun _ => 0) d.col.pool i

/-- The participation that holds an operation-table entry. -/
def partAt (d : Dev) (i : Nat) : Option ColPart := d.col.parts.find? (fun x => x.entry == i)

/-- A participation replaced. -/
def Dev.setPart (d : Dev) (x : ColPart) : Dev :=
  { d with col := { d.col with parts := d.col.parts.map (fun y => if y.entry = x.entry then x else y) } }

/-- Elements of input a participation with SOURCE ARRAY takes from the array; 0 for others (R255, R286). -/
def ColPart.arrayElems (x : ColPart) (g : Grp) : Nat :=
  if x.job.array ∧ x.detail = none then x.job.inElems g.count g.self else 0

end Sys2Proof.Machine
end

