-- ==== Sys2Proof/Machine/Packet.lean ====
section
/-! DEFINITION. Packets: the header's words (R208), HCHK (R209), the classes and lengths of each type (R210), virtual
channels (R221, R222), lines (R233), and the frames a packet takes (R212). -/

namespace Sys2Proof.Machine

/-! ## Types -/

abbrev ptWrite : Nat := 1
abbrev ptReadReq : Nat := 2
abbrev ptReadResp : Nat := 3
abbrev ptContrib : Nat := 4
abbrev ptResult : Nat := 5
abbrev ptMbxPost : Nat := 6
abbrev ptMgmt : Nat := 7
abbrev ptPeal : Nat := 8
abbrev ptMcast : Nat := 9
abbrev ptAck : Nat := 10

/-- The axis on which two addresses differ, when they lie on one line (R6): 0 X, 1 Y, 2 Z. -/
def lineAxis (a b : Nat) : Option Nat :=
  match bits a 4 0 == bits b 4 0, bits a 9 5 == bits b 9 5, bits a 14 10 == bits b 14 10 with
  | false, true, true => some 0
  | true, false, true => some 1
  | true, true, false => some 2
  | _, _, _ => none

/-- The bytes a packet whose first word is given takes on a link. -/
def linkBytes (w0 : Nat) : Nat := (32 + bits w0 12 0 + 15) / 16 * 16

end Sys2Proof.Machine

namespace Sys2Proof

open Sys2Proof.Machine

/-- LENGTH. -/
def Packet.length (p : Packet) : Nat := p.payload.length

/-- Words 0-6 of the header (R208). -/
def Packet.words (p : Packet) : List Nat :=
  [(p.ptype % 16) * 2 ^ 28 + (p.cls % 4) * 2 ^ 26 + b2n p.epoch * 2 ^ 25 + b2n p.phase * 2 ^ 24 + b2n p.dateline * 2 ^ 23 +
     p.length % 2 ^ 13,
   (p.dest % 2 ^ 15) * 2 ^ 17 + (p.via % 2 ^ 15) * 4,
   (p.src % 2 ^ 15) * 2 ^ 17 + (p.tenant % 512) * 2 ^ 8 + b2n p.system * 2 ^ 7,
   (p.window % 4096) * 2 ^ 20 + (p.channel % 256) * 2 ^ 12,
   p.offset / 2 ^ 32 % 2 ^ 16,
   p.offset % 2 ^ 32,
   (p.opid % 2 ^ 16) * 2 ^ 16 + p.seq % 2 ^ 16]

/-- The 28 bytes that HCHK covers. -/
def Packet.checked (p : Packet) : List Byte := (p.words.map (leBytes 4)).flatten

/-- HCHK (R209). -/
def Packet.hchk (p : Packet) : Nat := crc32c p.checked

/-- The bytes on a link: header, payload, zero pad to whole 16-byte units (R175). -/
def Packet.bytes (p : Packet) : List Byte :=
  let b := p.checked ++ leBytes 4 p.hchk ++ p.payload
  padTo ((b.length + 15) / 16 * 16) b

/-- The packet that bytes spell, with whether its HCHK is correct. -/
def Packet.parse (bs : List Byte) : Packet × Bool :=
  let w (i : Nat) : Nat := field bs (4 * i) 4
  (⟨bits (w 0) 31 28, bits (w 0) 27 26, (w 0).testBit 25, (w 0).testBit 24, (w 0).testBit 23, bits (w 1) 31 17,
    bits (w 1) 16 2, bits (w 2) 31 17, bits (w 2) 16 8, (w 2).testBit 7, bits (w 3) 31 20, bits (w 3) 19 12,
    bits (w 4) 15 0 * 2 ^ 32 + w 5, bits (w 6) 31 16, bits (w 6) 15 0, slice bs 32 (bits (w 0) 12 0)⟩,
   crc32c (slice bs 0 28) == w 7)

/-- The frames a packet takes when it begins a frame (R212). -/
def Packet.frames (p : Packet) : Nat := ((32 + p.length + 15) / 16 * 16 + 255) / 256

/-- The packet travels by pass-along (R233). -/
def Packet.passAlong (p : Packet) : Bool :=
  p.ptype == ptMcast || (p.ptype == ptPeal && (lineAxis p.src p.dest).isSome)

/-- A port-addressed packet (R211): the port. -/
def Packet.portAddressed (p : Packet) : Option Nat :=
  if p.ptype = ptMgmt ∧ p.cls = 0 ∧ ¬ p.phase then some (bits p.via 4 2) else none

/-- Class and LENGTH are allowed for the type (R210). -/
def Packet.allowed (p : Packet) : Bool :=
  let n := p.length
  let c := p.cls
  (c != 0 || p.passAlong || decide (n ≤ 224)) &&
  match p.ptype with
  | 1 => (c == 2 || c == 3) && decide (n ≤ 4096)
  | 2 => c == 2 && n == 16
  | 3 => c == 3 && decide (n ≤ 4096)
  | 4 => c == 1 && decide (n ≤ 4096)
  | 5 => c == 1 && decide (n ≤ 4096)
  | 6 => (c == 0 && decide (n ≤ 224)) || (c == 2 && decide (n ≤ 256))
  | 7 => c == 0 && decide (n ≤ 224)
  | 8 => (c == 0 || c == 3) && decide (n ≤ 4096)
  | 9 => c == 0 && decide (n ≤ 4096)
  | 10 => (c == 0 || c == 3) && n == 8
  | _ => false

/-- The types that an ACK or NACK answers. -/
def Packet.acked (p : Packet) : Bool := p.ptype == ptWrite || p.ptype == ptReadReq || p.ptype == ptMbxPost

/-- An OPEN chunk (R272): the one kind of collective packet that a CREDIT answers after it is sent. -/
def Packet.isOpen (p : Packet) : Bool := p.ptype == ptContrib && bits (field p.payload 0 2) 15 12 == 1

/-- The types that R232 holds. DESIGN CHOICE (log entry 246): an ACK, which the rule names neither among the packets counted nor among
those never held, is not held. -/
def Packet.holds (p : Packet) : Bool := p.acked || p.ptype == ptContrib || p.ptype == ptResult

/-- The packets that R232 counts until they are acknowledged. A chunk is sent after its credit, which acknowledges it
(R276, R288), so only OPEN is counted among collective packets. -/
def Packet.counted (p : Packet) : Bool := p.acked || p.isOpen

/-- The virtual channel (R221). -/
def Packet.vc (p : Packet) : Nat :=
  if p.passAlong then 14 + b2n p.dateline
  else if p.cls = 0 then b2n p.dateline
  else 4 * p.cls - 2 + 2 * b2n p.phase + b2n p.dateline

/-- The fields of a frame's header (R174). -/
def RxFrame.seq (f : RxFrame) : Nat := bits f.header.toNat 63 24
def RxFrame.ftype (f : RxFrame) : Nat := bits f.header.toNat 23 20
def RxFrame.vc (f : RxFrame) : Nat := bits f.header.toNat 19 16
def RxFrame.keysel (f : RxFrame) : Bool := f.header.toNat.testBit 15
def RxFrame.start (f : RxFrame) : Nat := bits f.header.toNat 14 10
def RxFrame.count (f : RxFrame) : Nat := bits f.header.toNat 9 5

/-- The symbols in error, each once, and check 1: the codeword corrects up to 4 of them (R173, R178). -/
def RxFrame.errors (f : RxFrame) : List Nat := (upFrom 0 236).filter (fun i => f.errs.any (fun e => e.val == i))

/-- Check 2: the CRC-32C over bytes 0-279. -/
def RxFrame.crcOk (f : RxFrame) : Bool := crc32c (leBytes 8 f.header.toNat ++ f.body) == f.crc.toNat

/-- The user a packet's accesses and checks carry. -/
def Packet.user (p : Packet) : MemUser := ⟨p.tenant, p.system, false, 8⟩

end Sys2Proof
end

