-- ==== Sys2Proof/Machine/LinkTx.lean ====
section
/-! DEFINITION. The transmitter of a fabric port: credits (R240), the choice of the next frame (R224), DATA frames and the
retry buffer (R173-R176, R190), CTRL frames (R191) and replay (R192). -/

namespace Sys2Proof.Machine

/-- A direction without keys. -/
def LinkKeys.none : LinkKeys := ⟨0, Option.none, Option.none, 0, 0⟩

/-- A port after a reset: DOWN with reason DISABLED (R206). -/
def Lnk.reset : Lnk :=
  ⟨.down, 1, 0, false, false, 0, .down, 0, 0, 0, .none, 0, false, none, false, none, LinkKeys.none, LinkKeys.none,
   none, none, [], [], [], [], 0, 0, none, 0, false, 0, 0, [], [], 0, 0, 0, 0, 0, none, []⟩

/-- Port `p`, and the device with it replaced. -/
def portOf (d : Dev) (p : Nat) : Lnk := SMap.get (fun _ => Lnk.reset) d.lnk p
def Dev.setLnk (d : Dev) (p : Nat) (x : Lnk) : Dev := { d with lnk := SMap.put (fun _ => Lnk.reset) d.lnk p x }

/-- The key of a register of port `p`'s page, by its offset. -/
def lnkReg (p off : Nat) : Nat := rkey (0x020 + p) off

/-- The code of a state (R206). -/
def LnkSt.code : LnkSt → Nat
  | .down => 0 | .detect => 1 | .equalize => 2 | .align => 3 | .intro => 4 | .keying => 5 | .held => 6 | .up => 7
  | .hold => 8 | .quarantine => 9 | .miswired => 10

/-- States that carry frames: UP, HELD, QUARANTINE, MISWIRED. -/
def LnkSt.carries : LnkSt → Bool
  | .held | .up | .quarantine | .miswired => true
  | _ => false

/-- The port is looped back to its own module: it carries nothing (R185). -/
def Lnk.looped (x : Lnk) : Bool := x.st == .miswired && x.miswire == 1

/-- The port carries frames. -/
def Lnk.carries (x : Lnk) : Bool := x.st.carries && !x.looped

/-- Training states (R181). -/
def LnkSt.training : LnkSt → Bool
  | .detect | .equalize | .align | .intro | .keying => true
  | _ => false

/-- The state a port has for the router (R226): the remembered one in HOLD. -/
def Lnk.routeSt (x : Lnk) : LnkSt := if x.st = .hold then x.saved else x.st

/-- The sum of some numbers. -/
def sumList : List Nat → Nat
  | [] => 0
  | x :: xs => x + sumList xs

/-! ## Routes, acknowledgements and reads of the packet buffer -/

/-- The epoch bit of new packets. -/
def liveBit (d : Dev) : Bool := (d.rd Reg.RTB_LIVE_EPOCH).testBit 0

/-- This module's MA, and whether it is assigned (RTR_MA). -/
def myMa (d : Dev) : Nat := bits (d.rd Reg.RTR_MA) 14 0
def maValid (d : Dev) : Bool := (d.rd Reg.RTR_MA).testBit 15

/-- A route entry: [31] VALID, [30:28] PORT, [27] DETOUR (R234). -/
def routeEntry (d : Dev) (b m : Nat) : Nat := SMap.get (fun _ => 0) d.rtr.routes (b * 2 ^ 15 + m)
def routeValid (d : Dev) (b m : Nat) : Bool := (routeEntry d b m).testBit 31
def routePort (d : Dev) (b m : Nat) : Nat := bits (routeEntry d b m) 30 28

/-- A packet is offered by an engine of this module. -/
def Dev.offer (d : Dev) (p : Packet) : Dev := { d with rtr := { d.rtr with offers := d.rtr.offers ++ [p] } }

/-- Whether 256 NACKs wait, for a token or to be injected (R226). -/
def nackQueueFull (d : Dev) : Bool :=
  let n (q : List Packet) : Nat := (q.filter (fun p => p.ptype == ptAck && field p.payload 0 1 != OK)).length
  decide (256 ≤ n d.rtr.offers + sumList (d.rtr.c0wait.map (fun q => n q.2)))

/-- The ACK or NACK of a packet (R217). -/
def ackFor (d : Dev) (p : Packet) (st : Nat) : Packet :=
  let b := b2n (liveBit d)
  let base : Packet := { p with
    ptype := ptAck, cls := 0, dest := p.src, via := p.src, phase := true, dateline := false, src := myMa d, window := 0,
    offset := 0, payload := BitVec.ofNat 8 st :: BitVec.ofNat 8 (p.ptype % 16) :: List.replicate 6 0 }
  if routeValid d b p.src then base else { base with cls := 3 }

/-- A read of the packet buffer (R253): false when it is uncorrectable. -/
def Dev.readBuffer (d : Dev) : Bool × Dev :=
  match d.armedFirst 0x028 [1, 2] with
  | some 1 => (true, ((d.disarm 0x028 1).count Reg.RTR_BUF_CE_COUNT).raise 0x028 1)
  | some i => (false, ((d.disarm 0x028 i).count Reg.RTR_BUF_UE_COUNT).raise 0x028 2)
  | none => (true, d)

/-- The router discards a packet with ROUTER_UE: for an acknowledged type a NACK joins the packets this module has to send (R226). -/
def Dev.nackLater (d : Dev) (p : Packet) : Dev :=
  if ¬ p.acked then d
  else if nackQueueFull d then (d.count Reg.RTR_NACK_DROP_COUNT).raise 0x028 7
  else d.offer (ackFor d p ROUTER_UE)

/-! ## Queues and credits -/

/-- An output queue. -/
def outQ (d : Dev) (p vc : Nat) : List QPkt := SMap.get (fun _ => []) d.rtr.outq (p * 16 + vc)
def Dev.setOutQ (d : Dev) (p vc : Nat) (q : List QPkt) : Dev :=
  { d with rtr := { d.rtr with outq := SMap.put (fun _ => []) d.rtr.outq (p * 16 + vc) q } }

/-- The frames that queued packets still have to be sent in. -/
def QPkt.frames (q : QPkt) : Nat := (q.left.length + 255) / 256
def queueFrames (q : List QPkt) : Nat := sumList (q.map QPkt.frames)

/-- The packets that wait in the router's buffer for an output. -/
def bufferedPkts (d : Dev) : List QPkt := (d.rtr.outq ++ d.rtr.c0in).flatMap (fun q => q.2)

/-- The frames in the router that came in by a port and VC: those of a packet not yet whole, and those of packets that no engine of this
module has taken yet, among them (R240, R241). -/
def queuedFrames (d : Dev) (p vc : Nat) : Nat :=
  queueFrames ((bufferedPkts d).filter (fun x => x.from_ == some (p, vc))) +
  sumList ((d.rtr.inbox.filter (fun a => a.port == p && a.vc == vc)).map (fun a => a.pkt.frames)) +
  sumList ((d.rtr.sink.filter (fun x => x.from_ == some (p, vc))).map (fun x => x.pkt.frames)) +
  ((SMap.get (fun _ => []) (portOf d p).stream vc).length + 255) / 256

/-- Credits granted to a port's peer on a VC and not used (R240). -/
def unusedCredits (x : Lnk) (vc : Nat) : Nat :=
  (SMap.get (fun _ => 0) x.credOut vc + 2 ^ 16 - SMap.get (fun _ => 0) x.recvOn vc % 2 ^ 16) % 2 ^ 16

/-- The frames of buffer that a VC of a port holds: stored ones and granted credits (R240). -/
def vcHeld (d : Dev) (p vc : Nat) : Nat := unusedCredits (portOf d p) vc + queuedFrames d p vc

/-- The frames of buffer that packets injected here hold. -/
def ownHeld (d : Dev) : Nat :=
  queueFrames ((bufferedPkts d).filter (fun x => x.from_ == none)) +
  sumList ((d.rtr.sink.filter (fun x => x.from_ == none)).map (fun x => x.pkt.frames))

/-- A sum over the VCs of all ports. -/
def sumVcs (f : Nat → Nat → Nat) : Nat := sumList ((upFrom 0 6).map (fun p => sumList ((upFrom 0 16).map (f p))))

/-- Free 256-byte units of the packet buffer (RTR_POOL_FREE): granted credits and stored frames are taken. -/
def poolFree (d : Dev) : Nat := 0x40000 - sumVcs (vcHeld d) - ownHeld d

/-- The buffer that further credits may come from: every VC keeps its reserved RTR_VC_MIN (R240, R241). -/
def sharedFree (d : Dev) : Nat := 0x40000 - sumVcs (fun p v => max (d.rd Reg.RTR_VC_MIN) (vcHeld d p v)) - ownHeld d

/-- Further credits for the VCs of a port, up to RTR_VC_MAX each: first the VC's own reserve, then shared buffer while it is free
(R240). -/
def Dev.grant (d : Dev) (p : Nat) : List Nat → Nat → Dev
  | [], _ => d
  | v :: vs, free =>
    let x := portOf d p
    let held := vcHeld d p v
    let own := d.rd Reg.RTR_VC_MIN - held
    let n := min (min (d.rd Reg.RTR_VC_MAX - held) (own + free)) 0xFFFF
    let c := (SMap.get (fun _ => 0) x.credOut v + n) % 2 ^ 16
    Dev.grant (d.setLnk p { x with credOut := SMap.put (fun _ => 0) x.credOut v c }) p vs (free - (n - own))

/-- A credit for a VC is held (R191). -/
def hasCredit (x : Lnk) (vc : Nat) : Bool :=
  SMap.get (fun _ => 0) x.credIn vc % 2 ^ 16 != SMap.get (fun _ => 0) x.sentOn vc % 2 ^ 16

/-! ## Frames and codewords (R173, R174, R180) -/

/-- The header word of a frame. -/
def hdrWord (seq ftype vc : Nat) (keysel : Bool) (start count : Nat) : Nat :=
  seq % 2 ^ 40 * 2 ^ 24 + ftype * 2 ^ 20 + vc * 2 ^ 16 + b2n keysel * 2 ^ 15 + start * 2 ^ 10 + count * 2 ^ 5

/-- The 96-bit IV of a frame: the salt, the kind (0 DATA, 1 CTRL), 16 zero bits, SEQ. -/
def linkIv (salt kind seq : Nat) : Nat := salt % 2 ^ 32 * 2 ^ 64 + kind % 2 ^ 8 * 2 ^ 56 + seq % 2 ^ 40

/-- The 280 bytes of a frame sent in clear: its tag bytes are 0. -/
def clearFrame (hdr : Nat) (payload : List Byte) : List Byte := leBytes 8 hdr ++ padTo 256 payload ++ List.replicate 16 0

/-- The 280 bytes of a DATA or CTRL frame: the header in clear, which the tag covers, the payload encrypted. -/
def sealFrame (k : Option LinkKey) (hdr kind seq : Nat) (payload : List Byte) : List Byte :=
  match k with
  | some k => leBytes 8 hdr ++ Config.gcmSeal k.key (linkIv k.salt kind seq) (leBytes 8 hdr) (padTo 256 payload)
  | none => clearFrame hdr payload

/-- A product in GF(2^10) with field polynomial x^10 + x^3 + 1, over the low `n` bits of the second factor. -/
def gfMul : Nat → Nat → Nat → Nat
  | 0, _, _ => 0
  | n + 1, a, b => (if b.testBit 0 then a else 0) ^^^ gfMul n (if a.testBit 9 then (2 * a) ^^^ 0x409 else 2 * a) (b / 2)

/-- A power of the field's primitive element. -/
def gfPow : Nat → Nat
  | 0 => 1
  | n + 1 => gfMul 10 (gfPow n) 2

/-- The generator polynomial with `n` consecutive roots, below its leading 1, highest power first. -/
def rsGenerator : Nat → List Nat
  | 0 => []
  | n + 1 =>
    let g := rsGenerator n
    let r := gfPow ((Config.fecRoot + n) % 1023)
    (List.zipWith (fun a b => a ^^^ gfMul 10 b r) (g ++ [0]) (1 :: g))

/-- The parity symbols of data symbols, given a generator polynomial. -/
def rsParity (g : List Nat) : List Nat → List Nat → List Nat
  | ps, [] => ps
  | ps, s :: ss =>
    let f := s ^^^ listAt 0 ps 0
    rsParity g (List.zipWith (fun p c => p ^^^ gfMul 10 c f) (ps.drop 1 ++ [0]) g) ss

/-- The RS(236,228) codeword of a frame's 280 bytes (R173): with their CRC-32C and a zero byte they make 228 symbols of 10 bits,
taken from bit 0 of byte 0 upward (log entry 204), before 8 parity symbols. -/
def codeword (frame : List Byte) : List Nat :=
  let w := ofLE (frame ++ leBytes 4 (crc32c frame) ++ [0])
  let data := (upFrom 0 228).map (fun i => bits w (10 * i + 9) (10 * i))
  data ++ rsParity (rsGenerator 8) (List.replicate 8 0) data

/-- The lanes of a mask, ascending. -/
def lanesOf (mask : Nat) : List Nat := (upFrom 0 24).filter (fun l => mask.testBit l)

/-- The lane that carries symbol `i` of a codeword (R173): the pairs are dealt round robin over the active lanes, from the lowest. DESIGN
CHOICE (log entry 242): the round begins again at the lowest lane with every pair of codewords. -/
def symbolLane (active i : Nat) : Nat := listAt 0 (lanesOf active) (i % (lanesOf active).length)

/-! ## CTRL frames -/

/-- A direction's key slot of a generation, and the key in use. -/
def LinkKeys.slot (k : LinkKeys) (g : Nat) : Option LinkKey := if g % 2 = 0 then k.slot0 else k.slot1
def LinkKeys.setSlot (k : LinkKeys) (g : Nat) (v : Option LinkKey) : LinkKeys :=
  if g % 2 = 0 then { k with slot0 := v } else { k with slot1 := v }
def LinkKeys.cur (k : LinkKeys) : Option LinkKey := k.slot k.gen

/-- The payload of a CTRL frame (R191). -/
def ctrlPayload (c : CtrlFields) : List Byte :=
  leBytes 5 c.ack ++ leBytes 1 (b2n c.nak + 2 * b2n c.rot + 4 * b2n c.rotack) ++ [0, 0] ++ (c.credits.flatMap (leBytes 2)) ++
    leBytes 4 c.gen ++ leBytes 32 c.nonce

/-- A port's frames cross to and from its lanes: neither the router's island nor that of a lane in use is stopped (R38). -/
def portRuns (d : Dev) (p : Nat) : Bool :=
  !d.stopped.any (fun i => match i with
    | .router => true
    | .lane q n => q.val == p && (d.rd (lnkReg p 0x084)).testBit n.val
    | _ => false)

/-- A CTRL frame is sent: the cumulative ACK, the credits after granting, and what its flags ask. -/
def Dev.sendCtrl (d : Dev) (p : Nat) (nak rot rotack : Bool) (gen nonce : Nat) : Dev :=
  let d := d.grant p (upFrom 0 16) (sharedFree d)
  let x := portOf d p
  let c : CtrlFields := ⟨(x.expect + 2 ^ 40 - 1) % 2 ^ 40, nak, rot, rotack, (upFrom 0 16).map (SMap.get (fun _ => 0) x.credOut), gen, nonce⟩
  let frame := sealFrame x.tx.cur (hdrWord x.ctrlSeq 1 0 (x.tx.gen % 2 == 1) 31 5) 1 x.ctrlSeq (ctrlPayload c)
  (d.setLnk p { x with
    ctrlSeq := (x.ctrlSeq + 1) % 2 ^ 40, sinceCtrl := 0, tx := { x.tx with ctrlCount := x.tx.ctrlCount + 1 } }).send
    (.ctrlFrame p x.ctrlSeq c.ack nak rot rotack c.credits gen nonce (codeword frame))

/-- At least one frame slot in 128 carries a CTRL frame (R176): one is sent when the last 127 slots carried DATA. -/
def Dev.ctrlSlot (d : Dev) (p : Nat) : Dev := if 127 ≤ (portOf d p).sinceCtrl then d.sendCtrl p false false false 0 0 else d

/-- A slot carries a DATA frame. -/
def Dev.dataSlot (d : Dev) (p : Nat) : Dev :=
  let x := portOf d p
  d.setLnk p { x with sinceCtrl := x.sinceCtrl + 1 }

/-! ## DATA frames -/

/-- The VCs of the four groups of R224: C1, C2, C3, pass-along. -/
def groupVcs (g : Nat) : List Nat :=
  match g with
  | 0 => [2, 3, 4, 5] | 1 => [6, 7, 8, 9] | 2 => [10, 11, 12, 13] | _ => [14, 15]

/-- A frame of a VC is ready: bytes wait and a credit is held. -/
def vcReady (d : Dev) (p vc : Nat) : Bool := outQ d p vc != [] && hasCredit (portOf d p) vc

/-- The VCs of a list, the ones after the one served last first. -/
def rotateAfter (last : Nat) (vs : List Nat) : List Nat := vs.filter (fun v => decide (last < v)) ++ vs.filter (fun v => decide (v ≤ last))

/-- The next VC to serve and the turn after it: C0 first, then the groups by deficit round robin in frames (R224). The
turn holds the group served and the frames left to it. -/
def pickVc (d : Dev) (p : Nat) : Option (Nat × SMap Nat) :=
  let t := d.rtr.turn
  let get (i : Nat) : Nat := SMap.get (fun _ => 0) t (p * 16 + i)
  let ready (last : Nat) (vs : List Nat) : Option Nat := (rotateAfter last vs).find? (vcReady d p)
  match ready (get 1) [0, 1] with
  | some v => some (v, SMap.put (fun _ => 0) t (p * 16 + 1) v)
  | none =>
    let w (g : Nat) : Nat := bits (d.rd Reg.VCA_WEIGHT) (8 * g + 7) (8 * g)
    let cur := get 0 / 256
    let left := get 0 % 256
    let pick (g : Nat) : Option Nat := ready (get (2 + g)) (groupVcs g)
    let serve (g left v : Nat) : Option (Nat × SMap Nat) :=
      some (v, SMap.put (fun _ => 0) (SMap.put (fun _ => 0) t (p * 16) (g * 256 + left)) (p * 16 + 2 + g) v)
    let order := [(cur + 1) % 4, (cur + 2) % 4, (cur + 3) % 4, cur]
    match (if left = 0 then none else pick cur) with
    | some v => serve cur (left - 1) v
    | none =>
      match (order.filter (fun g => w g != 0)).findSome? (fun g => (pick g).map (fun v => (g, v))) with
      | some (g, v) => serve g (w g - 1) v
      | none =>
        match order.findSome? (fun g => (pick g).map (fun v => (g, v))) with
        | some (g, v) => serve g 0 v
        | none => none

/-- The input a queued packet came by: a port, or this module's own (6). -/
def QPkt.input (q : QPkt) : Nat := match q.from_ with | some (p, _) => p | none => 6

/-- Packets that have not started, in the order in which a round robin over the inputs takes them after input `last` (R224). -/
def roundRobin : Nat → Nat → List QPkt → List QPkt
  | 0, _, q => q
  | n + 1, last, q =>
    match (upFrom 1 7).findSome? (fun i => takeFirst (fun x => x.input == (last + i) % 7) q) with
    | some (x, rest) => x :: roundRobin n x.input rest
    | none => q

/-- A packet that is to begin still has a correct HCHK (R209). -/
def QPkt.intact (q : QPkt) : Bool := q.started || crc32c (q.left.take 28) == field q.left 28 4

/-- What a frame takes of a VC's queue. -/
structure Gathered where
  bytes : List Byte
  start : Nat
  rest : List QPkt
  bad : Nat

/-- Up to `room` bytes of a VC's packets from frame position `pos`: the bytes, the unit where the first packet that begins in the
frame begins (31: none), the queue after it, and the packets discarded for their HCHK (R174, R175, R209). -/
def gather : Nat → Nat → List QPkt → Gathered
  | _, _, [] => ⟨[], 31, [], 0⟩
  | room, pos, q :: qs =>
    if room = 0 then ⟨[], 31, q :: qs, 0⟩
    else if ¬ q.intact then
      let r := gather room pos qs
      { r with bad := r.bad + 1 }
    else
      let n := min room q.left.length
      let st := if q.started then 31 else pos / 16
      if q.left.length ≤ n then
        let r := gather (room - n) (pos + n) qs
        { r with bytes := q.left ++ r.bytes, start := min st r.start }
      else ⟨q.left.take n, st, { q with left := q.left.drop n, started := true } :: qs, 0⟩

/-- A VC's queue as the next frame takes it: the packet that has started, then the others in round robin. -/
def inTurn (d : Dev) (p vc : Nat) : List QPkt :=
  let q := outQ d p vc
  q.filter (·.started) ++ roundRobin q.length (SMap.get (fun _ => 6) d.rtr.lastIn (p * 16 + vc)) (q.filter (fun x => !x.started))

/-- Packets are discarded for HCHK (R209). -/
def Dev.hchkBad (d : Dev) (n : Nat) : Dev := if n = 0 then d else (d.countBy Reg.RTR_HCHK_COUNT n).raise 0x028 0

/-- The first packet of a queue is read from the buffer: one whose words are uncorrectable is discarded, and what it has not sent is not
sent (R253; DESIGN CHOICE, log entry 248). -/
def Dev.readFront (d : Dev) : List QPkt → List QPkt × Dev
  | [] => ([], d)
  | x :: rest =>
    let r := d.readBuffer
    if r.1 then (x :: rest, r.2) else (rest, r.2.nackLater x.pkt)

/-- The next frame of a VC is taken from its queue; the input of the last packet it begins is the one served last. -/
def Dev.takeFrame (d : Dev) (p vc : Nat) : List Byte × Nat × Dev :=
  let f := d.readFront (inTurn d p vc)
  let q := f.1
  let d := f.2
  let r := gather 256 0 q
  let begun := q.length - (r.rest.filter (fun x => !x.started)).length
  let d := if begun = 0 then d else
    { d with rtr := { d.rtr with lastIn := SMap.put (fun _ => 6) d.rtr.lastIn (p * 16 + vc) (((q.take begun).getLast?.map QPkt.input).getD 6) } }
  (r.bytes, r.start, (d.setOutQ p vc r.rest).hchkBad r.bad)

/-- The frames of either kind sent under the key in use reach a number (R180). -/
def Lnk.keyFrames (x : Lnk) (n : Nat) : Bool := decide (n ≤ x.tx.dataCount ∨ n ≤ x.tx.ctrlCount)

/-- DATA frames leave a port while a VC is ready, the retry buffer (936 frames) has room, and the port carries frames
(R189-R191), and neither frame count under the key has reached 2^39 (R202). -/
def Dev.pump : Nat → Dev → Nat → Dev
  | 0, d, _ => d
  | n + 1, d, p =>
    let x := portOf d p
    if ¬ x.carries ∨ ¬ portRuns d p ∨ 936 ≤ x.retry.length ∨ x.keyFrames (2 ^ 39) then d
    else match pickVc d p with
    | none => d
    | some (vc, turn) =>
      let r := (d.ctrlSlot p).takeFrame p vc
      let d := r.2.2
      let x := portOf d p
      if r.1 = [] then Dev.pump n d p
      else
        let k := r.1.length / 16
        let wire := sealFrame x.tx.cur (hdrWord x.txSeq 0 vc (x.tx.gen % 2 == 1) r.2.1 k) 0 x.txSeq r.1
        let f : TxFrame := ⟨x.txSeq, vc, x.tx.gen, r.2.1, k, padTo 256 r.1, wire⟩
        let d := d.setLnk p { x with
          txSeq := (x.txSeq + 1) % 2 ^ 40
          sentOn := SMap.put (fun _ => 0) x.sentOn vc ((SMap.get (fun _ => 0) x.sentOn vc + 1) % 2 ^ 16)
          txFrames := (x.txFrames + 1) % 2 ^ 64
          tx := { x.tx with dataCount := x.tx.dataCount + 1 }
          retry := x.retry ++ [f] }
        let d := ({ d with rtr := { d.rtr with turn := turn } } : Dev).dataSlot p
        Dev.pump n (d.send (.dataFrame p f.seq f.vc f.gen f.start f.count f.bytes false (codeword wire))) p

/-- C0 frames that wait at an output (R240). -/
def c0Queued (d : Dev) (p : Nat) : Nat := (outQ d p 0).length + (outQ d p 1).length

/-- C0 packets that wait at their inputs for an output are admitted while its C0 queue holds fewer than 35 frames, taken from the
inputs in round robin, and frames leave (R240). -/
def Dev.admitC0 : Nat → Dev → Nat → Dev
  | 0, d, p => Dev.pump 936 d p
  | n + 1, d, p =>
    let d := Dev.pump 936 d p
    match SMap.get (fun _ => []) d.rtr.c0in p with
    | q :: qs =>
      if 35 ≤ c0Queued d p then d
      else
        let d : Dev := { d with rtr := { d.rtr with c0in := SMap.put (fun _ => []) d.rtr.c0in p qs } }
        Dev.admitC0 n (d.setOutQ p q.pkt.vc (outQ d p q.pkt.vc ++ [q])) p
    | [] => d

/-- Every frame a port can send now is sent. -/
def Dev.linkSend (d : Dev) (p : Nat) : Dev := Dev.admitC0 (SMap.get (fun _ => []) d.rtr.c0in p).length d p

/-- Stored frames are sent again, in order, encrypted as they were (R192). -/
def Dev.replay (d : Dev) (p : Nat) : List TxFrame → Dev
  | [] => d
  | f :: fs =>
    Dev.replay (((d.ctrlSlot p).dataSlot p).send (.dataFrame p f.seq f.vc f.gen f.start f.count f.bytes true (codeword f.wire))) p fs

/-- The clock's tick (10 ns) at which a replay of `n` frames is over, by the frame time of the port's width (R177, R189). -/
def replayEnd (d : Dev) (p n : Nat) : Nat :=
  let x := portOf d p
  d.clk.aon + (n * (if x.slow then 11800 else 5900)) / (10000 * max 1 x.width) + 1

end Sys2Proof.Machine
end

