-- ==== Sys2Proof/Machine/Optable.lean ====
section
/-! DEFINITION. The operation table (R218, R296): entries taken, counted, ended and freed; the packets of each channel that
wait for acknowledgement (R232). -/

namespace Sys2Proof.Machine

/-- A free entry. -/
def OptEntry.free : OptEntry := ⟨0, 0, 0, 0, 0, 0, 0, 0, 0, 0, 0, 0, false⟩

/-- Entry `i`, and the device with it replaced. -/
def optEntry (d : Dev) (i : Nat) : OptEntry := SMap.get (fun _ => OptEntry.free) d.opt i
def Dev.setOpt (d : Dev) (i : Nat) (e : OptEntry) : Dev := { d with opt := SMap.put (fun _ => OptEntry.free) d.opt i e }

/-- The number of free entries (OPT_FREE). -/
def optFreeCount (d : Dev) : Nat := 4096 - d.opt.length

/-- The lowest free index; which free entry is taken is a choice (log entry 8). -/
def lowestFree (d : Dev) : Option Nat :=
  if 4096 ≤ d.opt.length then none
  else (upFrom 0 (d.opt.length + 1)).find? (fun i => (optEntry d i).kind == 0)

/-- The OPID of an entry: index and generation (R208). -/
def opidOf (d : Dev) (i : Nat) : Nat := i * 16 + (optEntry d i).gen % 16

/-- An entry is taken: its generation is one on from the index's last use (R218). None when the table is full. -/
def Dev.optTake (d : Dev) (kind owner dest channel total group state : Nat) : Option (Nat × Dev) :=
  (lowestFree d).map (fun i =>
    let g := SMap.get (fun _ => 0) d.optGen i
    let d := { d.setOpt i ⟨kind, g, OK, state, group, 0, 0, total, dest, channel, 0, owner, false⟩ with
      optGen := SMap.put (fun _ => 0) d.optGen i ((g + 1) % 16) }
    (i, d.wr Reg.OPT_LOW (min (d.rd Reg.OPT_LOW) (optFreeCount d))))

/-- A request of an engine (0 remote access, 1 array, 2 + m mailbox posts of master m, 1000 collectives) has to wait for an entry;
it is counted once (OPT_WAIT_COUNT), and the time it began is kept for OPT WAIT (R297). -/
def Dev.optWait (d : Dev) (owner : Nat) : Dev :=
  ({ d with optSince := SMap.put (fun _ => 0) d.optSince owner (d.clk.aon + 1) } : Dev).count Reg.OPT_WAIT_COUNT

/-- Packets of a channel not yet acknowledged, of an epoch bit (R232). -/
def unackedOf (d : Dev) (e : Bool) (ch : Nat) : Nat := SMap.get (fun _ => 0) d.rtr.unacked (b2n e * 256 + ch)

/-- A count of unacknowledged packets replaced. -/
def Dev.setUnacked (d : Dev) (e : Bool) (ch n : Nat) : Dev :=
  { d with rtr := { d.rtr with unacked := SMap.put (fun _ => 0) d.rtr.unacked (b2n e * 256 + ch) n } }

/-- Some packets of a channel are acknowledged, those of the old epoch first, as they were sent first. -/
def Dev.acknowledged (d : Dev) (ch n : Nat) : Dev :=
  let old := unackedOf d (!liveBit d) ch
  let new := unackedOf d (liveBit d) ch
  (d.setUnacked (!liveBit d) ch (old - n)).setUnacked (liveBit d) ch (new - (n - old))

/-- An operation ends and its entry is freed; its packets count as acknowledged (R218, R232). -/
def Dev.optRelease (d : Dev) (i : Nat) : Dev :=
  let e := optEntry d i
  (d.acknowledged e.channel (e.sent - e.done)).setOpt i OptEntry.free

/-- The operation of an entry has ended with a status, and the entry waits to be freed (R296): STATE ENDING. -/
def Dev.optEnding (d : Dev) (i st : Nat) : Dev := d.setOpt i { optEntry d i with status := st, state := 3 }

/-- A packet of an entry is sent. -/
def Dev.optSent (d : Dev) (i : Nat) : Dev := let e := optEntry d i; d.setOpt i { e with sent := e.sent + 1 }

/-- Packets up to a SEQ are positively acknowledged: the device and how many are new. -/
def Dev.optDone (d : Dev) (i upto : Nat) : Dev :=
  let e := optEntry d i
  let n := min upto e.total
  if n ≤ e.done then d
  else (d.acknowledged e.channel (n - e.done)).setOpt i { e with done := n }

/-- The live entry that an OPID names. -/
def liveEntry (d : Dev) (opid : Nat) : Option Nat :=
  let i := opid / 16
  let e := optEntry d i
  if e.kind ≠ 0 ∧ e.gen % 16 = opid % 16 then some i else none

/-- A read of entry `i` (R297): a correctable error is counted and corrected; an uncorrectable one leaves the entry unusable, so
that its operation ends at its own timeout. The answer says whether the entry is usable. -/
def Dev.optRead (d : Dev) (i : Nat) : Bool × Dev :=
  let e := optEntry d i
  if e.bad then (false, d)
  else match d.armedFirst 0x038 [0, 1] with
    | some 0 => (true, (d.disarm 0x038 0).raise 0x038 0)
    | some n => (false, ((d.disarm 0x038 n).setOpt i { e with bad := true }).raise 0x038 1)
    | none => (true, d)

/-- The remote post of a master has ended with a status (R412, R415). -/
def Dev.mbxPostDone (d : Dev) (m st : Nat) : Dev :=
  let k := bankKey m Reg.MBX_TX_STATUS
  let d := d.wr k (bits (d.rd k) 29 29 * 2 ^ 29 + 2 ^ 31 + st % 256)
  if st = OK then d else d.raise 0x050 5

end Sys2Proof.Machine
end

