-- ==== Sys2Proof/Machine/Router.lean ====
section
/-! DEFINITION. The router: banks and lookups (R227-R229, R234-R238), the choice of an intermediate (R228), output by port
state (R226), the C0 police (R225), line multicast (R233), NACKs, and the injection and forwarding of a packet. -/

namespace Sys2Proof.Machine

/-! ## Banks -/

/-- The state of a bank: 0 FREE, 1 SEALED, 2 LIVE, 3 DRAINING (R250). -/
def bankState (d : Dev) (b : Nat) : Nat := bits (d.rd Reg.RTB_BANK_STATE) (4 * b + 2) (4 * b)
def Dev.setBankState (d : Dev) (b v : Nat) : Dev :=
  d.wr Reg.RTB_BANK_STATE (setBits (d.rd Reg.RTB_BANK_STATE) (4 * b + 2) (4 * b) v)

/-- PENDING. -/
def bankPending (d : Dev) : Bool := (d.rd Reg.RTB_BANK_STATE).testBit 8
def Dev.setPending (d : Dev) (v : Bool) : Dev :=
  d.wr Reg.RTB_BANK_STATE (setBits (d.rd Reg.RTB_BANK_STATE) 8 8 (b2n v))

/-- The epoch number recorded for a bank. -/
def bankEpoch (d : Dev) (b : Nat) : Nat := d.rd (if b = 0 then Reg.RTB_EPOCH0 else Reg.RTB_EPOCH1)
def Dev.setBankEpoch (d : Dev) (b v : Nat) : Dev := d.wr (if b = 0 then Reg.RTB_EPOCH0 else Reg.RTB_EPOCH1) v

/-- A bank is LIVE. -/
def anyLive (d : Dev) : Bool := bankState d 0 == 2 || bankState d 1 == 2

/-- The set that a tenant's or SYSTEM's packets use in a bank: FIRST and COUNT (R227). -/
def routeSet (d : Dev) (b : Nat) (system : Bool) (tenant : Nat) : Nat × Nat :=
  let sel := if system then SMap.get (fun _ => 0) d.rtr.sysSet b else SMap.get (fun _ => 0) d.rtr.tmap (b * 512 + tenant)
  let s := SMap.get (fun _ => 0) d.rtr.sets (b * 16 + sel)
  (bits s 31 16, bits s 15 0)

/-- The intermediate of a packet (R228): VIA, PHASE, and whether DEST replaced it. -/
def chooseVia (d : Dev) (b : Nat) (system : Bool) (tenant src dest channel : Nat) : Nat × Bool × Bool :=
  let s := routeSet d b system tenant
  if s.2 = 0 then (dest, true, false)
  else
    let salt := d.rd (if b = 0 then Reg.RTB_SALT0 else Reg.RTB_SALT1)
    let h := crc32c (leBytes 2 src ++ leBytes 2 dest ++ leBytes 1 channel ++ leBytes 4 (bankEpoch d b) ++ leBytes 4 salt)
    let via := SMap.get (fun _ => 0) d.rtr.members (b * 2 ^ 16 + s.1 + (h * s.2) / 2 ^ 32)
    if ¬ routeValid d b via then (dest, true, true) else (via, via == src || via == dest, false)

/-! ## Refusals and NACKs -/

/-- A refused packet is counted (RTR_REFUSED_COUNT). -/
def Dev.rtrRefused (d : Dev) : Dev := (d.count Reg.RTR_REFUSED_COUNT).raise 0x028 6

/-! ## Output (R222, R224-R226) -/

/-- The axis of a port. -/
def portAxis (p : Nat) : Nat := p / 2

/-- DATELINE as a packet leaves by a port (R222): `fresh` when it was injected or changed phase here. -/
def datelineOut (d : Dev) (p : Nat) (fresh : Bool) (arrival : Option Nat) (cur : Bool) : Bool :=
  let turned := match arrival with | some a => portAxis a != portAxis p | none => true
  (if fresh || turned then false else cur) || (d.rd Reg.RTR_DATELINE).testBit p

/-- The peer's capability bit. -/
def peerCap (d : Dev) (p i : Nat) : Bool := (d.rd (lnkReg p 0x0D0)).testBit i

/-- The output port takes the packet (R226): a port that went DOWN since the LIVE bank became live takes none that is routed. -/
def portTakes (d : Dev) (p : Nat) (pkt : Packet) : Bool :=
  let st := (portOf d p).routeSt
  (match st with
    | .up => true
    | .held | .quarantine | .miswired => pkt.ptype == ptMgmt && pkt.cls == 0 && !(portOf d p).looped
    | _ => false) &&
  (!d.rtr.downSince.testBit p || pkt.portAddressed.isSome) &&
  (!(pkt.ptype == ptContrib || pkt.ptype == ptResult) || peerCap d p 1) && (!pkt.passAlong || peerCap d p 0)

/-- The most frames queued in an output queue in this measure (R245). -/
def Dev.noteOcc (d : Dev) (p vc : Nat) : Dev :=
  let k := p * 16 + vc
  { d with rtr := { d.rtr with occ := SMap.put (fun _ => 0) d.rtr.occ k (max (SMap.get (fun _ => 0) d.rtr.occ k) (queueFrames (outQ d p vc))) } }

/-- A packet joins an output queue, and the port sends what it can. A C0 packet beyond the 35 that the queue admits waits at its input,
which is an overrun (R240). -/
def Dev.queueOut (d : Dev) (p : Nat) (pkt : Packet) (from_ : Option (Nat × Nat)) : Dev :=
  let vc := pkt.vc
  let q : QPkt := ⟨pkt, from_, pkt.bytes, false⟩
  let d := if vc ≤ 1 ∧ 35 ≤ c0Queued d p then
      let d : Dev := { d with rtr := { d.rtr with
        overrun := d.rtr.overrun + 1
        c0in := SMap.put (fun _ => []) d.rtr.c0in p (SMap.get (fun _ => []) d.rtr.c0in p ++ [q]) } }
      (d.count Reg.RTR_C0_OVERRUN_COUNT).raise 0x028 4
    else (d.setOutQ p vc (outQ d p vc ++ [q])).noteOcc p vc
  d.linkSend p

/-- Tokens of the C0 police left to a port (R225). -/
def tokensLeft (d : Dev) (p : Nat) : Nat := 35 - SMap.get (fun _ => 0) d.rtr.tokens p

/-- C0 packets that wait for a token at a port. -/
def c0Wait (d : Dev) (p : Nat) : List Packet := SMap.get (fun _ => []) d.rtr.c0wait p
def Dev.setC0Wait (d : Dev) (p : Nat) (q : List Packet) : Dev :=
  { d with rtr := { d.rtr with c0wait := SMap.put (fun _ => []) d.rtr.c0wait p q } }

/-- A packet injected here goes to a port: C0 takes a token, or waits for one and is counted. -/
def Dev.sendOwn (d : Dev) (p : Nat) (pkt : Packet) : Dev :=
  if pkt.cls = 0 ∧ ¬ pkt.passAlong then
    if tokensLeft d p = 0 ∨ c0Wait d p ≠ [] then (d.setC0Wait p (c0Wait d p ++ [pkt])).count Reg.RTR_C0_HELD_COUNT
    else
      ({ d with rtr := { d.rtr with tokens := SMap.put (fun _ => 0) d.rtr.tokens p (SMap.get (fun _ => 0) d.rtr.tokens p + 1) } } : Dev).queueOut
        p pkt none
  else d.queueOut p pkt none

/-- GROUP, KIND and CSEQ of a collective packet. -/
def colGroupOf (p : Packet) : Nat := bits (field p.payload 0 2) 11 0
def colKindOf (p : Packet) : Nat := bits (field p.payload 0 2) 15 12
def colCseqOf (p : Packet) : Nat := field p.payload 2 2

/-- A packet with a reserved KIND is discarded and counted (R272). -/
def badKind (p : Packet) : Bool := !(decide (1 ≤ colKindOf p ∧ colKindOf p ≤ 6))

/-- A packet that matches no live participation (R273, R282). -/
def Dev.colStale (d : Dev) : Dev := (d.count Reg.COL_STALE_COUNT).raise 0x030 7

/-- A packet that came by an input (none: of this module) waits for the engine that consumes it; a collective packet with a reserved
KIND is discarded (R272). -/
def Dev.deliver (d : Dev) (pkt : Packet) (from_ : Option (Nat × Nat)) : Dev :=
  if (pkt.ptype = ptContrib ∨ pkt.ptype = ptResult) ∧ badKind pkt then d.colStale
  else { d with rtr := { d.rtr with sink := d.rtr.sink ++ [⟨pkt, from_⟩] } }

/-- The oldest delivered packet of a kind, taken by its engine. -/
def Dev.fromSink (d : Dev) (f : Packet → Bool) : Option (Packet × Dev) :=
  (takeFirst (fun x => f x.pkt) d.rtr.sink).map (fun r => (r.1.pkt, { d with rtr := { d.rtr with sink := r.2 } }))

/-! ## Lookup (R229, R234) -/

/-- What a lookup gives: discard with a status, this module, or a port. -/
inductive Lookup where
  | fail (st : Nat)
  | here
  | out (p : Nat)
  deriving DecidableEq, Repr

/-- A read of entry `m` of bank `b` through its slot: true when the entry is usable (R234, R253). -/
def Dev.routeRead (d : Dev) (b m : Nat) : Bool × Dev :=
  match d.armedFirst 0x029 [0, 1] with
  | some 0 =>
    let d := (d.disarm 0x029 0).raise 0x029 0
    if d.rtr.badRoutes.contains (b * 2 ^ 15 + m) then (false, d.raise 0x029 1) else (true, d)
  | some _ => (false, (d.disarm 0x029 1).raise 0x029 1)
  | none => if d.rtr.badRoutes.contains (b * 2 ^ 15 + m) then (false, d.raise 0x029 1) else (true, d)

/-- One lookup of a route entry, with the checks of its code (R234, R253). -/
def Dev.lookup (d : Dev) (b m : Nat) : Lookup × Dev :=
  let inj := d.armedFirst 0x029 [0, 1]
  let d := match inj with | some i => d.disarm 0x029 i | none => d
  if inj = some 1 ∨ d.rtr.badRoutes.contains (b * 2 ^ 15 + m) then
    (.fail ROUTER_UE, (d.count Reg.RTR_BUF_UE_COUNT).raise 0x029 1)
  else
    let d := if inj = some 0 then d.raise 0x029 0 else d
    if ¬ routeValid d b m then (.fail UNREACHABLE, d.rtrRefused)
    else if routePort d b m = 6 then (.here, d)
    else (.out (routePort d b m), d)

/-! ## Injection (R209, R210, R228) -/

/-- Where a unicast packet of this module goes, once its fields are filled. -/
def Dev.injectUnicast (d : Dev) (pkt : Packet) : Nat × Dev :=
  let b := b2n (liveBit d)
  let r := d.lookup b (if pkt.phase then pkt.dest else pkt.via)
  match r.1 with
  | .fail st => (st, r.2)
  | .here => (OK, r.2.deliver pkt none)
  | .out p =>
    let pkt := { pkt with dateline := datelineOut r.2 p true none false }
    if portTakes r.2 p pkt then (OK, r.2.sendOwn p pkt) else (PORT_REFUSED, r.2.rtrRefused)

/-- A packet that leaves along a line, from this module or passing through (R233). -/
def passPort (pkt : Packet) : Nat := 2 * (lineAxis pkt.src pkt.dest).getD 0 + b2n pkt.phase

/-- The injection of a packet offered by an engine: the status a refusal gives, OK otherwise. PHASE of a pass-along packet
is its direction, as the engine names it; its VIA, which no rule uses, is DEST (log entry 205). -/
def Dev.inject (d : Dev) (pkt : Packet) : Nat × Dev :=
  let pkt := { pkt with src := myMa d, dateline := false, epoch := liveBit d }
  let pkt := if pkt.passAlong then { pkt with via := pkt.dest } else pkt
  if ¬ pkt.allowed then (CLASS_INVALID, d.rtrRefused)
  else match pkt.portAddressed with
  | some p =>
    let pkt := { pkt with dateline := (d.rd Reg.RTR_DATELINE).testBit p }
    if p < 6 ∧ portTakes d p pkt then (OK, d.sendOwn p pkt) else (PORT_REFUSED, d.rtrRefused)
  | none =>
    if pkt.ptype = ptMcast ∧ lineAxis pkt.src pkt.dest = none then (UNREACHABLE, d.rtrRefused)
    else if pkt.passAlong then
      let p := passPort pkt
      let pkt := { pkt with dateline := datelineOut d p true none false }
      if portTakes d p pkt then (OK, d.sendOwn p pkt)
      else (OK, d.count Reg.RTR_MCAST_DROP_COUNT)
    else if ¬ anyLive d then (UNREACHABLE, d.rtrRefused)
    else
      let b := b2n (liveBit d)
      if pkt.cls = 0 then d.injectUnicast { pkt with via := pkt.dest, phase := true }
      else
        -- an ACK in C3 takes the SYSTEM set (R217)
        let v := chooseVia d b (pkt.system || pkt.ptype == ptAck) pkt.tenant pkt.src pkt.dest pkt.channel
        let d := if v.2.2 then d.count Reg.RTR_VIA_FALLBACK_COUNT else d
        d.injectUnicast { pkt with via := v.1, phase := v.2.1 }

/-- A NACK or ACK of this module is injected; one that cannot be sent is dropped. -/
def Dev.sendAck (d : Dev) (p : Packet) (st : Nat) : Dev := (d.inject (ackFor d p st)).2

/-- The router discards a packet with a status (R226, R234, R238, R242): acknowledged types get a NACK from a queue of 256
entries. DESIGN CHOICE (log entry 245): the NACKs that this module sends as a packet's destination (R217) wait in that queue too. -/
def Dev.nack (d : Dev) (p : Packet) (st : Nat) : Dev :=
  if ¬ p.acked then d
  else if nackQueueFull d then (d.count Reg.RTR_NACK_DROP_COUNT).raise 0x028 7
  else d.sendAck p st

/-- The packet must wait for acknowledgements of the old epoch (R232). -/
def mustHold (d : Dev) (p : Packet) : Bool :=
  p.holds && (unackedOf d (!liveBit d) p.channel != 0 || d.rtr.held.any (fun q => q.channel == p.channel)) && anyLive d

/-- A counted packet was injected. -/
def Dev.countInjected (d : Dev) (p : Packet) : Dev :=
  if p.counted then d.setUnacked (liveBit d) p.channel (unackedOf d (liveBit d) p.channel + 1) else d

/-! ## Forwarding (R212, R229, R233) -/

/-- A packet leaves by a port on its way; when the port cannot take it, it is refused (R226). -/
def Dev.forwardOut (d : Dev) (p : Nat) (pkt : Packet) (a : Nat × Nat) (phaseChanged : Bool) : Dev :=
  let pkt := { pkt with dateline := datelineOut d p phaseChanged (some a.1) pkt.dateline }
  if portTakes d p pkt then d.queueOut p pkt (some a) else (d.rtrRefused).nack pkt PORT_REFUSED

/-- A pass-along packet at a module it passes: a copy is delivered, and it goes on unless it has arrived. -/
def Dev.passOn (d : Dev) (pkt : Packet) (a : Nat × Nat) : Dev :=
  let d := d.deliver pkt (some a)
  if maValid d ∧ pkt.dest = myMa d then d
  else
    let p := 2 * portAxis a.1 + b2n pkt.phase
    let pkt := { pkt with dateline := datelineOut d p false (some a.1) pkt.dateline }
    if portTakes d p pkt then d.queueOut p pkt (some a) else d.count Reg.RTR_MCAST_DROP_COUNT

/-- A unicast packet in transit (R229, R238): its epoch's bank serves it; VIA while PHASE is 0, DEST after. -/
def Dev.transit (d : Dev) (pkt : Packet) (a : Nat × Nat) : Dev :=
  let b := b2n pkt.epoch
  if bankState d b = 0 then (d.count Reg.RTR_EPOCH_STALE_COUNT).nack pkt EPOCH_STALE
  else
    let turn := !pkt.phase && maValid d && pkt.via == myMa d
    let pkt := if turn then { pkt with phase := true, dateline := false } else pkt
    let r := d.lookup b (if pkt.phase then pkt.dest else pkt.via)
    match r.1 with
    | .fail st => r.2.nack pkt st
    | .here => r.2.deliver pkt (some a)
    | .out p => r.2.forwardOut p pkt a turn

/-- A verified packet that arrived by a link goes its way. A port-addressed packet is delivered with VIA naming the port it
arrived on, which the agent needs for relay (R320). -/
def Dev.route (d : Dev) (pkt : Packet) (a : Nat × Nat) : Dev :=
  let r := d.readBuffer
  let d := r.2
  if ¬ r.1 then d.nack pkt ROUTER_UE
  else if pkt.portAddressed.isSome then d.deliver { pkt with via := 4 * a.1 } (some a)
  else if pkt.passAlong then d.passOn pkt a
  else d.transit pkt a

/-! ## Commands of the router alone -/

/-- A token returns to a port's bucket, and a C0 packet that waits for one is sent (R225). -/
def execC0TokenRefill (p : Fin 6) (s : State) : Host.Outcome State Fault Refusal :=
  doneDev s (fun d =>
    let p := p.val
    match c0Wait d p with
    | pkt :: rest =>
      let d := d.setC0Wait p rest
      if portTakes d p pkt then d.queueOut p pkt none else (d.rtrRefused).nack pkt PORT_REFUSED
    | [] =>
      let u := SMap.get (fun _ => 0) d.rtr.tokens p
      { d with rtr := { d.rtr with tokens := SMap.put (fun _ => 0) d.rtr.tokens p (u - 1) } })

/-- The oldest packet for an output VC whose first frame has not been sent, in its queue or at an input, has waited too long (R242). The
C0 packets that waited for its place are admitted in their order (R231, R240). -/
def execHopAge (p : Fin 6) (vc : Fin 16) (s : State) : Host.Outcome State Fault Refusal :=
  doneDev s (fun d =>
    let aged (d : Dev) (x : QPkt) : Dev :=
      let d : Dev := d.linkSend p.val
      let d : Dev := { d with rtr := { d.rtr with aged := d.rtr.aged + 1 } }
      ((d.count Reg.RTR_AGED_COUNT).raise 0x028 3).nack x.pkt AGED
    match takeFirst (fun x => !x.started) (outQ d p.val vc.val) with
    | some (x, rest) => aged (d.setOutQ p.val vc.val rest) x
    | none =>
      match takeFirst (fun x => x.pkt.vc == vc.val) (SMap.get (fun _ => []) d.rtr.c0in p.val) with
      | some (x, rest) => aged { d with rtr := { d.rtr with c0in := SMap.put (fun _ => []) d.rtr.c0in p.val rest } } x
      | none => d)

/-- A bank takes the packets of new injections (R235): the other bank drains, channels with old packets hold. -/
def Dev.makeLive (d : Dev) (b : Nat) : Dev :=
  let was := anyLive d
  let chans := (upFrom 0 256).filter (fun c => unackedOf d (liveBit d) c != 0)
  let d := if bankState d (1 - b) = 2 then
      (d.setBankState (1 - b) 3).wr Reg.RTB_DRAIN_LEFT
        (max (d.rd Reg.RTB_DRAIN) (d.rd (if b = 0 then Reg.RTB_MAX_HOPS1 else Reg.RTB_MAX_HOPS0) * d.rd Reg.RTR_HOP_AGE))
    else d
  let d := ((d.setBankState b 2).setPending false).wr Reg.RTB_LIVE_EPOCH (bankEpoch d b)
  let d := d.count Reg.RTB_FLIP_COUNT
  let d := if was then d.countBy Reg.RTB_HOLD_COUNT chans.length else d
  { d with rtr := { d.rtr with downSince := 0, drainAt := d.clk.aon } }

/-- The effect of a write of RTB_SEAL (R235). -/
def Dev.rtbSeal (d : Dev) (e : Nat) : Nat × Dev :=
  let b := e % 2
  match bankState d b with
  | 0 =>
    if (anyLive d ∧ e = d.rd Reg.RTB_LIVE_EPOCH + 1) ∨ (¬ anyLive d ∧ 1 ≤ e) then
      (OK, (d.setBankState b 1).setBankEpoch b e)
    else (EPOCH_STALE, d)
  | 3 => (EPOCH_STALE, d)
  | _ => if bankEpoch d b = e then (OK, d) else (EPOCH_STALE, d)

/-- The effect of a write of RTB_UNSEAL (R235). -/
def Dev.rtbUnseal (d : Dev) (e : Nat) : Nat × Dev :=
  let b := e % 2
  match bankState d b with
  | 0 => (OK, d)
  | 1 => if bankEpoch d b = e ∧ ¬ bankPending d then (OK, d.setBankState b 0) else (EPOCH_STALE, d)
  | _ => (EPOCH_STALE, d)

/-- The effect of a write of RTB_FLIP (R235). -/
def Dev.rtbFlip (d : Dev) (e : Nat) : Nat × Dev :=
  let b := e % 2
  if bankState d b = 1 ∧ bankEpoch d b = e then (OK, if anyLive d then d.setPending true else d.makeLive b)
  else if bankState d b = 2 ∧ bankEpoch d b = e then (OK, d)
  else (EPOCH_STALE, d.raise 0x029 2)

/-- RTB_SEAL. -/
def execRtbSeal (master : Byte) (value : Word) (s : State) : Host.Outcome State Fault Refusal :=
  done (mgmtWrite master.toNat (mAddr Reg.RTB_SEAL) 32 value.toNat (devEffect (fun d => d.rtbSeal value.toNat)) s)

/-- RTB_UNSEAL. -/
def execRtbUnseal (master : Byte) (value : Word) (s : State) : Host.Outcome State Fault Refusal :=
  done (mgmtWrite master.toNat (mAddr Reg.RTB_UNSEAL) 32 value.toNat (devEffect (fun d => d.rtbUnseal value.toNat)) s)

/-- RTB_FLIP. -/
def execRtbFlip (master : Byte) (value : Word) (s : State) : Host.Outcome State Fault Refusal :=
  done (mgmtWrite master.toNat (mAddr Reg.RTB_FLIP) 32 value.toNat (devEffect (fun d => d.rtbFlip value.toNat)) s)

/-- The effect of a write of RTB_SALT or RTB_MAX_HOPS (R250): a bank that is not FREE answers EPOCH_STALE before the value
is looked at. -/
def Dev.rtbParam (d : Dev) (hops : Bool) (b v : Nat) : Nat × Dev :=
  let key := (if hops then Reg.RTB_MAX_HOPS0 else Reg.RTB_SALT0) + 4 * b
  if bankState d b ≠ 0 then (EPOCH_STALE, d)
  else if hops ∧ ¬ (1 ≤ v % 256) then (OUT_OF_RANGE, d)
  else (OK, d.plainWrite 0 key v)

/-- RTB_PARAM_WRITE. -/
def execRtbParamWrite (master : Byte) (hops : Bool) (bank : Fin 2) (value : Word) (s : State) :
    Host.Outcome State Fault Refusal :=
  done (mgmtWrite master.toNat (mAddr ((if hops then Reg.RTB_MAX_HOPS0 else Reg.RTB_SALT0) + 4 * bank.val)) 32 value.toNat
    (devEffect (fun d => d.rtbParam hops bank.val value.toNat)) s)

/-- The write of one route entry (R234). -/
def Dev.routeWrite (d : Dev) (b m v : Nat) : Nat × Dev :=
  let port := bits v 30 28
  if bankState d b ≠ 0 then (EPOCH_STALE, d)
  else if port = 7 ∨ (port = 6 ∧ ¬ (maValid d ∧ m = myMa d)) ∨ (port ≠ 6 ∧ maValid d ∧ m = myMa d) then (OUT_OF_RANGE, d)
  else
    let k := b * 2 ^ 15 + m
    (OK, { d with rtr := { d.rtr with
      routes := SMap.put (fun _ => 0) d.rtr.routes k (bits v 31 27 * 2 ^ 27)
      badRoutes := d.rtr.badRoutes.filter (fun x => x != k) } })

/-- One 32-bit write into a bank's slot (R227). -/
def Dev.bankWrite (d : Dev) (b off v : Nat) : Nat × Dev :=
  if off < 0x20000 then d.routeWrite b (off / 4) v
  else if bankState d b ≠ 0 then (EPOCH_STALE, d)
  else if off < 0x20040 then
    (if 0x10000 < bits v 31 16 + bits v 15 0 ∨ 0x8000 < bits v 15 0 then (OUT_OF_RANGE, d)
     else (OK, { d with rtr := { d.rtr with sets := SMap.put (fun _ => 0) d.rtr.sets (b * 16 + (off - 0x20000) / 4) v } }))
  else if 0x20100 ≤ off ∧ off < 0x20300 then
    let t := b * 512 + (off - 0x20100)
    (OK, { d with rtr := { d.rtr with
      tmap := (upFrom 0 4).foldl (fun m i => SMap.put (fun _ => 0) m (t + i) (bits v (8 * i + 3) (8 * i))) d.rtr.tmap } })
  else if off = 0x20300 then
    (OK, { d with rtr := { d.rtr with sysSet := SMap.put (fun _ => 0) d.rtr.sysSet b (bits v 3 0) } })
  else if 0x30000 ≤ off ∧ off < 0x50000 then
    let t := b * 2 ^ 16 + (off - 0x30000) / 2
    (OK, { d with rtr := { d.rtr with
      members := SMap.put (fun _ => 0) (SMap.put (fun _ => 0) d.rtr.members t (bits v 14 0)) (t + 1) (bits v 30 16) } })
  else (OK, d)

/-- ROUTE_ENTRY_WRITE. -/
def execRouteEntryWrite (master : Byte) (bank : Fin 2) (m : BitVec 15) (value : Word) (s : State) :
    Host.Outcome State Fault Refusal :=
  done (mgmtWrite master.toNat (0x0200000000 + bank.val * 0x10000000 + 4 * m.toNat) 32 value.toNat
    (devEffect (fun d => d.routeWrite bank.val m.toNat value.toNat)) s)

/-! ## Windows (R213-R215) -/

/-- Window entry `n` (128 bits). -/
def windowEntry (d : Dev) (n : Nat) : Nat := SMap.get (fun _ => 0) d.rtr.windows n

/-- Fields of a window entry. -/
def winBase (e : Nat) : Nat := bits e 47 0
def winLen (e : Nat) : Nat := bits e 97 64

/-- R213's check of an entry. -/
def windowOk (e : Nat) : Bool :=
  winBase e % 64 == 0 && winLen e % 64 == 0 &&
  (winLen e == 0 ||
    decide (winBase e / 2 ^ 34 < 8 ∧ winBase e % 2 ^ 34 + winLen e ≤ 0x2CB200000))

/-- The writable bits of an entry. -/
def windowMask : Nat := 0xFFFFFFFFFFFF + (2 ^ 34 - 1) * 2 ^ 64 + (2 ^ 13 - 1) * 2 ^ 107

/-- A write of `n` bytes (4 or 8) at byte `o` of a window entry (R214): bytes 0-11 are staged; bytes 12-15 take effect with
everything staged, or are refused and all staged bytes discarded. -/
def Dev.windowWrite (d : Dev) (w o n v : Nat) : Nat × Dev :=
  let st := SMap.get (fun _ => (0, 0)) d.rtr.staged w
  let m := (2 ^ (8 * n) - 1) * 2 ^ (8 * o)
  let mask := st.1 ||| m
  let val := (st.2 - (st.2 &&& m)) + (v % 2 ^ (8 * n)) * 2 ^ (8 * o)
  if o + n ≤ 12 then
    (OK, { d with rtr := { d.rtr with staged := SMap.put (fun _ => (0, 0)) d.rtr.staged w (mask, val) } })
  else
    let old := windowEntry d w
    let new := ((old - (old &&& mask)) + val) &&& windowMask
    let d : Dev := { d with rtr := { d.rtr with staged := SMap.put (fun _ => (0, 0)) d.rtr.staged w (0, 0) } }
    if windowOk new then (OK, { d with rtr := { d.rtr with windows := SMap.put (fun _ => 0) d.rtr.windows w new } })
    else (OUT_OF_RANGE, d)

/-- WINDOW_ENTRY_WRITE: the write of bytes 12-15 (`wide`: of bytes 8-15). -/
def execWindowEntryWrite (master : Byte) (w : BitVec 12) (wide : Bool) (value : BitVec 64) (s : State) :
    Host.Outcome State Fault Refusal :=
  let o := if wide then 8 else 12
  let n := if wide then 8 else 4
  done (mgmtWrite master.toNat (0x0230000000 + 16 * w.toNat + o) (8 * n) value.toNat
    (devEffect (fun d => d.windowWrite w.toNat o n value.toNat)) s)

/-- What a window allows a packet before memory is reached (R215 steps 1-5): `perm` is the permission bit, `n` the bytes
touched. -/
def windowCheck (d : Dev) (w tenant : Nat) (system : Bool) (perm off n : Nat) : Nat :=
  let e := windowEntry d w
  if (scrubbing d ∨ entersTransit d) ∧ ¬ system then SCRUB
  else if winLen e = 0 then WINDOW_FAULT
  else if e.testBit 116 ≠ system ∨ (¬ system ∧ bits e 115 107 ≠ tenant) then WINDOW_FAULT
  else if ¬ e.testBit perm then WINDOW_FAULT
  else if winLen e < off + n then WINDOW_FAULT
  else OK
where
  /-- The module is scrubbing (PWR_SCRUB, R514). -/
  scrubbing (d : Dev) : Bool := (d.rd Reg.PWR_SCRUB).testBit 31
  /-- The module is on its way from Full or Quiet to Transit (R246, R512). -/
  entersTransit (d : Dev) : Bool :=
    let v := d.rd Reg.PWR_STATE
    v.testBit 9 && decide (bits v 2 0 ≤ 1 ∧ 2 ≤ d.rd Reg.PWR_TARGET)

/-- What a window's accesses carry: its owner (R142), from a Hall port. -/
def windowUser (d : Dev) (port w : Nat) : MemUser :=
  let e := windowEntry d w
  ⟨bits e 115 107, e.testBit 116, false, port⟩

/-- The address of a window's byte. -/
def windowAddr (d : Dev) (w off : Nat) : Nat := winBase (windowEntry d w) + off

end Sys2Proof.Machine
end

