-- ==== Sys2Proof/Machine/Array.lean ====
section
/-! DEFINITION. Tiles and the array's operations: tile state (R85-R94), submission and completion records (R95-R99), the
descriptor checks (R103), placement in passes (R111-R116), K-blocks and epilogues (R74-R83, R105-R110), output
(R118-R121) and failure (R122-R127). -/

namespace Sys2Proof.Machine

/-! ## Tiles -/

/-- A tile that is off. -/
def Tile.off : Tile := ⟨.off, false, none, 0, [], [], [], [], [], [], []⟩

/-- A tile that carries no block: its accumulator entries are +0 with valid parity. -/
def Tile.empty (t : Tile) : Tile := { t with blk := none, kdone := 0, acc := [], accBad := [] }

/-- A tile that a reset has cleared (R88): every SRAM word, accumulator entry and K-block sum register is zero with valid check bits. -/
def Tile.cleared (t : Tile) : Tile := { t.empty with sums := [], sram := [], sramBad := [], portA := [], portB := [] }

/-- Tile `i`, and the device with it replaced. -/
def tile (d : Dev) (i : Nat) : Tile := SMap.get (fun _ => Tile.off) d.tiles i
def Dev.setTile (d : Dev) (i : Nat) (t : Tile) : Dev := { d with tiles := SMap.put (fun _ => Tile.off) d.tiles i t }

/-- Several tiles changed alike. -/
def Dev.mapTiles (d : Dev) (f : Tile → Tile) : List Nat → Dev
  | [] => d
  | i :: is => Dev.mapTiles (d.setTile i (f (tile d i))) f is

/-- Bit of the boot floor plan: the tile is enabled; until TILE_TEST has ended, the shipped bit (R522). -/
def tileEnabled (d : Dev) (i : Nat) : Bool :=
  if d.pwr.tested then (d.rd (Reg.MOD_FP_BOOT0 + 4 * (i / 32))).testBit (i % 32) else Config.shipEnabled i

/-- TIL_CTRL.PARK of an enabled tile (R91). -/
def tilePark (d : Dev) (i : Nat) : Bool := (d.rd (rkey (0x400 + i) 0x010)).testBit 0 && tileEnabled d i

/-- The clock of a tile is stopped: its island (R38), its cluster's PLL out of lock (R94), every tile's in Quiet (R511) or above
THM_CRITICAL (R528). -/
def tileStopped (d : Dev) (i : Nat) : Bool :=
  d.pwr.unlocked.contains (i / 8) || bits (d.rd Reg.PWR_STATE) 2 0 == 1 || bits (d.rd Reg.THM_STATE) 1 0 == 2 ||
    d.stopped.any (fun x => match x with | .tile t => t.val == i | _ => false)

/-- The tile at a row and column of the logical array (R25), and the row and column of a tile. -/
def tileAt (r c : Nat) : Nat := (2 * (r / 8) + c / 8) * 64 + (r % 8) * 8 + c % 8
def tileRow (i : Nat) : Nat := 8 * (i / 64 / 2) + i % 64 / 8
def tileCol (i : Nat) : Nat := 8 * (i / 64 % 2) + i % 8

/-- A hole of R113, given the parking fixed at the operation's start. -/
def tileHole (d : Dev) (i : Nat) : Bool :=
  decide ((tile d i).st ≠ .idle) || (tile d i).parked || !wingActive d (i / 64)

/-- Parking is taken at an operation's start (R91). -/
def Dev.fixParking (d : Dev) : Dev :=
  { d with tiles := d.tiles.map (fun x => (x.1, { x.2 with parked := tilePark d x.1 })) }

/-! ## The sequencer's registers and state -/

/-- What every access of the sequencer carries (R98); operand reads may read weight ranges (R432). -/
def arrUser (d : Dev) (keyed : Bool) : MemUser :=
  let v := d.rd Reg.ARR_TENANT
  ⟨bits v 8 0, v.testBit 9, keyed, 0⟩

/-- The ring is full. -/
def ringFull (d : Dev) : Bool :=
  (d.rd Reg.ARR_CPL_HEAD + 2 ^ 32 - d.rd Reg.ARR_CPL_TAIL) % 2 ^ 32 == 2 ^ d.rd Reg.ARR_CPL_SIZE

/-- ARR_STATUS.STATE (R130). -/
def arrState (d : Dev) : Nat :=
  match d.arr.exec, d.arr.held with
  | some e, _ => if e.failed = some ABORTED then 3 else 1
  | none, some _ => 4
  | none, none => if d.rd Reg.ARR_CPL_SIZE ≠ 0 ∧ ringFull d then 4 else if (d.rd (rkey 0x080 0x010)).testBit 1 then 2 else 0

/-- ARR_STATUS.QUEUED: occupied entries, counting the executing one. DESIGN CHOICE (log entry 197): an operation that has ended and
whose completion record is held still occupies its entry. -/
def arrQueued (d : Dev) : Nat :=
  d.arr.queue.length + b2n d.arr.exec.isSome + b2n d.arr.held.isSome

/-- The descriptor's fields of an operation. -/
def ArrOp.d (op : ArrOp) : ArrDesc := arrDesc op.words

/-- The executing operation replaced. -/
def Dev.setExec (d : Dev) (e : ArrExec) : Dev := { d with arr := { d.arr with exec := some e } }

/-! ## Completion (R99) -/

/-- The 32 bytes of a completion record. -/
def cplBytes (op : ArrOp) (st flags detail main fill time dur blocks : Nat) : List Byte :=
  (leBytes 4 (st * 2 ^ 24 + (flags % 32) * 2 ^ 16 + detail * 2 ^ 8 + op.d.tag)) ++ leBytes 4 op.desc ++ leBytes 4 op.seq ++
    leBytes 4 ((min main 0xFFFF) * 2 ^ 16 + min fill 0xFFFF) ++ leBytes 8 time ++ leBytes 4 (min dur 0xFFFFFFFF) ++
    leBytes 4 (min blocks 0xFFFFFFFF)

/-- Steps 2 and 3 of R99. -/
def Dev.cplCount (d : Dev) (notify : Bool) : Dev :=
  let d := d.bump Reg.ARR_DONE_COUNT
  if notify then d.notify Reg.ARR_NOTIFY else d

/-- A completion record whose write failed is lost and counted (R99, R131). -/
def Dev.cplLost (d : Dev) : Dev := (d.bump Reg.ARR_CPL_LOST_COUNT).raise 0x080 2

/-- The place of the next completion record. -/
def cplAddr (d : Dev) : Nat :=
  d.rd Reg.ARR_CPL_BASE_LO + bits (d.rd Reg.ARR_CPL_BASE_HI) 15 0 * 2 ^ 32 + 32 * (d.rd Reg.ARR_CPL_HEAD % 2 ^ d.rd Reg.ARR_CPL_SIZE)

/-- The next completion record has to wait for memory that does not answer (R38, R133). -/
def cplWaits (d : Dev) : Bool := d.rd Reg.ARR_CPL_SIZE != 0 && !ringFull d && gdWaits d (arrUser d false) (cplAddr d) 32

/-- An operation's record: written to the ring, held while the ring is full, not written where there is no ring; `lose`
says that its write fails for a cause outside the memory's own checks. -/
def cplRecord (s : State) (bytes : List Byte) (notify lose : Bool) : State :=
  let size := s.dev.rd Reg.ARR_CPL_SIZE
  if size = 0 then s.onDev (fun d => d.cplCount notify)
  else if ringFull s.dev then
    s.onDev (fun d => { d with arr := { d.arr with held := some ⟨bytes, notify⟩ } })
  else if lose then s.onDev (fun d => d.cplLost.cplCount notify)
  else
    let w := gdWrite s (arrUser s.dev false) (cplAddr s.dev) bytes
    w.2.onDev (fun d => (if w.1 = OK then d.bump Reg.ARR_CPL_HEAD else d.cplLost).cplCount notify)

/-- The records of the operations at the queue's head that a flush has failed, in queue order, while none is held
(R126) and the ring's memory answers. -/
def flushDead : Nat → State → State
  | 0, s => s
  | n + 1, s =>
    match s.dev.arr.exec, s.dev.arr.held, s.dev.arr.queue with
    | none, none, op :: rest =>
      if op.dead ∧ ¬ cplWaits s.dev then
        let s := s.onDev (fun d => { d with arr := { d.arr with queue := rest } })
        flushDead n (cplRecord s (cplBytes op ABORTED 0 0 0 0 s.dev.clk.cal 0 0) op.d.notify false)
      else s
    | _, _, _ => s

/-- A power-state change ends in a state: PWR_STATE shows it, CHANGING clears when no further state is wanted, and
PWR_CHANGE_TIME is taken then (R512, R521). -/
def Dev.reachState (d : Dev) (v : Nat) (last : Bool) : Dev :=
  let d := d.wr Reg.PWR_STATE (setBits (d.rd Reg.PWR_STATE) 2 0 v)
  if last then
    (d.wr Reg.PWR_STATE (clearBit (d.rd Reg.PWR_STATE) 9)).wr Reg.PWR_CHANGE_TIME (min 0xFFFFFFFF ((d.clk.aon - d.pwr.changeAt) / 100))
  else d

/-- On the way from Full to Quiet, the tile clocks stop once no operation executes (R512). -/
def Dev.quietSettle (d : Dev) : Dev :=
  let v := d.rd Reg.PWR_STATE
  if v.testBit 9 ∧ bits v 2 0 = 0 ∧ d.rd Reg.PWR_TARGET = 1 ∧ d.arr.exec = none then d.reachState 1 true else d

/-- The executing operation ends with a status. -/
def arrEnd (s : State) (e : ArrExec) (st detail : Nat) (lose : Bool) : State :=
  let dur := match e.began with | some t => s.dev.clk.cal - t | none => 0
  let bytes := cplBytes e.op st e.flags detail e.mainDone e.fillDone s.dev.clk.cal dur e.acked
  let s := s.onDev (fun d =>
    { (((d.wr Reg.ARR_CURRENT 0).wr Reg.ARR_PASSES 0).wr Reg.ARR_TILES_USED 0) with arr := { d.arr with exec := none } : Dev }.quietSettle)
  let s := cplRecord s bytes e.op.d.notify lose
  flushDead s.dev.arr.queue.length s

/-- A held record is written once the ring is not full, and the records of the flushed operations behind it (R99). -/
def releaseHeld (s : State) : State :=
  match s.dev.arr.held with
  | some h =>
    if (s.dev.rd Reg.ARR_CPL_SIZE ≠ 0 ∧ ringFull s.dev) ∨ cplWaits s.dev then s
    else
      let s := s.onDev (fun d => { d with arr := { d.arr with held := none } })
      let s := cplRecord s h.bytes h.notify false
      flushDead s.dev.arr.queue.length s
  | none => s

/-- The effect of a write of ARR_CPL_TAIL or ARR_CPL_SIZE: where the ring is not full after it, a held record is written (R99). -/
def cplRingEffect (master key v : Nat) (s : State) : Nat × State := (OK, releaseHeld (plainEffect master key v s).2)

/-- The effect of a write of ARR_CPL_TAIL: ring space frees. -/
def cplTailEffect (master v : Nat) (s : State) : Nat × State := cplRingEffect master Reg.ARR_CPL_TAIL v s

/-- ARR_CPL_TAIL. -/
def execArrCplTail (master : Byte) (value : Word) (s : State) : Host.Outcome State Fault Refusal :=
  done (mgmtWrite master.toNat (mAddr Reg.ARR_CPL_TAIL) 32 value.toNat (cplTailEffect master.toNat value.toNat) s)

/-! ## Failure (R122, R123) -/

/-- The executing operation fails with a status: its tiles stop, no further block or output is issued, and an operation
that streams into a collective gives notice of it (R127). -/
def Dev.arrFail (d : Dev) (st : Nat) : Dev :=
  match d.arr.exec with
  | none => d
  | some e =>
    if e.failed.isSome then d
    else
      let d := d.mapTiles (fun t => { t.empty with st := if t.st = .busy then .idle else t.st }) e.tiles
      let ns := if e.op.d.dest = 2 then [(bits (dw e.op.words 9) 15 0, st)] else []
      let d := match e.entry with | some i => d.optEnding i st | none => d
      { d with arr := { d.arr with
        exec := some { e with failed := some st, passes := [], cur := none, left := [], landed := [] }
        notices := d.arr.notices ++ ns } }

/-- A failure that touches some tiles: it fails the operation when one of them is in use. -/
def Dev.arrFailTiles (d : Dev) (st : Nat) (p : Nat → Bool) : Dev :=
  match d.arr.exec with
  | some e => if e.tiles.any p then d.arrFail st else d
  | none => d

/-! ## Ranges and checks (R103) -/

/-- A range the operation uses: start, pitch, rows, bytes of a row. -/
structure MatRange where
  base : Nat
  pitch : Nat
  rows : Nat
  row : Nat
  deriving DecidableEq, Repr

/-- The bytes from the first row's start to the last row's end. -/
def MatRange.span (r : MatRange) : Nat := if r.rows = 0 ∨ r.row = 0 then 0 else (r.rows - 1) * r.pitch + r.row

/-- The ranges of the items of a matrix that moves by a stride. -/
def itemRanges (base stride items : Nat) (r : Nat → MatRange) : List MatRange :=
  (upFrom 0 items).map (fun b => r (base + b * stride))

/-- The bytes of a row of a CONV's A and of its scales, which its C_IN gives (R106). Where K is no multiple of the filter's taps there is
no C_IN, and a row counts as one byte (log entry 38). -/
def convRow (ws : List Nat) (k : Nat) (f : Nat → Nat) : Nat :=
  let g := convGeo ws
  if g.fh * g.fw ≠ 0 ∧ k % (g.fh * g.fw) = 0 then f (g.cin k) else 1

/-- The ranges an operation reads (R102, R106, R107). Where the geometry of a CONV is inconsistent, how many rows its A and A scales have
is not known: one row stands for them (log entry 38). -/
def arrReads (op : ArrOp) : List MatRange :=
  let x := op.d
  let ws := op.words
  let nkb := (x.k + 31) / 32
  let ab := packedBytes x.afmt x.k
  let bb := packedBytes x.bfmt x.k
  let useB := x.k != 0 && x.n != 0
  let geo := (convGeo ws).ok x.m x.k
  let a := if x.k = 0 then [] else if x.code = 3 then
      let g := convGeo ws
      if geo then [⟨dAddr ws 5, dPitch ws 5, g.images x.m * g.h * g.w, packedBytes x.afmt (g.cin x.k)⟩]
      else [⟨dAddr ws 5, dPitch ws 5, 1, convRow ws x.k (packedBytes x.afmt)⟩]
    else if useB then itemRanges (dAddr ws 5) (dw ws 24 * 64) x.items (fun p => ⟨p, dPitch ws 5, x.m, ab⟩) else []
  let b := if useB then itemRanges (dAddr ws 7) (dw ws 25 * 64) x.items (fun p => ⟨p, dPitch ws 7, x.n, bb⟩) else []
  let sa := if useB && fmtNarrow x.afmt && !x.aunit then
      (if x.code = 3 then
        let g := convGeo ws
        if geo then [⟨dAddr ws 11, dPitch ws 11, g.images x.m * g.h * g.w, g.cin x.k / 32⟩]
        else [⟨dAddr ws 11, dPitch ws 11, 1, convRow ws x.k (fun c => c / 32)⟩]
      else [⟨dAddr ws 11, dPitch ws 11, x.items * x.m, nkb⟩])
    else []
  let sb := if useB && fmtNarrow x.bfmt && !x.bunit then [⟨dAddr ws 13, dPitch ws 13, x.items * x.n, nkb⟩] else []
  let res := if x.resEn then [⟨dAddr ws 17, dPitch ws 17, x.items * x.m, packedBytes x.resfmt x.cols⟩] else []
  let bias := if x.biasEn then [⟨dAddr ws 19, 4 * x.cols, 1, 4 * x.cols⟩] else []
  let sv := if x.scaleEn && x.scaleVec then [⟨dAddr ws 22, 4 * x.cols, 1, 4 * x.cols⟩]
    else if x.code = 4 && x.rowop == 2 && x.n != 0 then [⟨dAddr ws 22, 4 * x.n, 1, 4 * x.n⟩] else []
  let b2 := if x.code = 4 && x.n != 0 then
      [⟨dw ws 28 + bits (dw ws 29) 15 0 * 2 ^ 32, bits (dw ws 29) 31 16 * 64, x.n2, packedBytes x.bfmt x.n⟩]
    else []
  a ++ b ++ sa ++ sb ++ res ++ bias ++ sv ++ b2

/-- The output ranges of a LOCAL destination. -/
def arrWrites (op : ArrOp) : List MatRange :=
  let x := op.d
  let ws := op.words
  if x.dest ≠ 0 then []
  else
    itemRanges (dAddr ws 9) (dw ws 26 * 64) x.items (fun p => ⟨p, dPitch ws 9, x.m, packedBytes x.ofmt x.cols⟩) ++
    (if x.oscaled then [⟨dAddr ws 15, dPitch ws 15, x.items * x.m, (x.cols + 31) / 32⟩] else [])

/-- Check 0x01: OP, and every reserved bit. DESIGN CHOICE (log entry 238): a CHAIN whose ROWOP is neither 1 nor 2 fails this check, since
the table names none for it. -/
def reservedOk (op : ArrOp) : Bool :=
  let x := op.d
  let w := dw op.words
  decide (1 ≤ x.code ∧ x.code ≤ 4) && !(w 0).testBit 8 &&
  [1, 2, 3].all (fun i => bits (w i) 31 24 == 0) && bits (w 4) 3 0 == 0 && bits (w 20) 31 16 == 0 &&
  (x.dest != 2 || (bits (w 9) 31 16 == 0 && w 10 == 0)) &&
  (x.code != 3 || w 29 == 0) && (x.code != 4 || (x.rowop == 1 || x.rowop == 2)) &&
  bits (w 30) 4 0 == 0 && bits (w 31) 31 8 == 0

/-- Check 0x0B: no range read lies in a weight range, unless a host session of its principal submitted the descriptor
(R432). -/
def weightOk (d : Dev) (op : ArrOp) : Bool :=
  (upFrom 0 64).all (fun r =>
    !keyRangeValid d r ||
    !((arrReads op).any (fun m => overlap m.base m.span (keyRangeStart d r) (keyRangeLen d r))) ||
    (let o := keyRange d r 3
     op.submitter.testBit 31 &&
       (if o.testBit 9 then !op.submitter.testBit 30 else op.submitter.testBit 30 && bits op.submitter 8 0 == bits o 8 0)))

/-- The participation an OPID names awaits array input (R286): its element type and the number of its input elements. -/
def streamAwaits (d : Dev) (opid : Nat) : Option (Nat × Nat) :=
  match liveEntry d opid with
  | none => none
  | some i =>
    match partAt d i with
    | none => none
    | some x =>
      let n := x.arrayElems (grp d x.job.group)
      if x.handed < n then some (x.job.ty, n) else none

/-- Check 0x0A: the participation a COLLECTIVE destination names awaits array input, with the format and the number of
elements of the output. -/
def streamOk (d : Dev) (op : ArrOp) : Bool :=
  match streamAwaits d (bits (dw op.words 9) 15 0) with
  | some (ty, n) => ty == op.d.ofmt && n == op.d.elements
  | none => false

/-- The first check of R103 that fails, 0 when none does. -/
def arrDetail (d : Dev) (op : ArrOp) : Nat :=
  let x := op.d
  let ws := op.words
  let rs := arrReads op
  let os := arrWrites op
  if ¬ reservedOk op then 0x01
  else if ¬ pairOk x.afmt x.bfmt ∨ (x.code = 4 ∧ ¬ pairOk x.pfmt x.bfmt) then 0x02
  else if ¬ outOk x.ofmt x.oscaled ∨ 4 ≤ x.act ∨ (x.resEn ∧ 3 ≤ x.resfmt) then 0x03
  else if x.dest = 3 then 0x04
  else if ¬ x.noOutput ∧ (rs ++ os).any (fun r => r.span != 0 && (r.base % 64 != 0 || (gdWing r.base r.span).isNone)) then 0x05
  else if ¬ x.noOutput ∧ ((rs ++ os).any (fun r => r.span != 0 && (r.pitch == 0 || decide (r.pitch < r.row))) ∨
      (x.dest = 1 ∧ dPitch ws 9 < packedBytes x.ofmt x.cols)) then 0x06
  else if x.code = 3 ∧ ¬ (convGeo ws).ok x.m x.k then 0x07
  else if x.code = 4 ∧ (1024 < x.n ∨ 1024 < x.n2) then 0x08
  else if x.code = 4 ∧ x.rowop = 2 ∧ x.scaleVec then 0x09
  else if x.dest = 2 ∧ ¬ streamOk d op then 0x0A
  else if ¬ x.noOutput ∧ ¬ weightOk d op then 0x0B
  else 0

/-! ## Placement (R111-R116) -/

/-- The hole-free clusters of a wing, ascending, and the wings and height of a fill (R114). -/
def freeClusters (hole : Nat → Bool) (w : Nat) : List Nat :=
  (upFrom 0 8).filter (fun c => (upFrom 0 8).all (fun t => !hole (w * 64 + c * 8 + t)))

/-- The fill height U. -/
def fillHeight (hole : Nat → Bool) : Nat :=
  (upFrom 0 8).foldl (fun u w => max u (freeClusters hole w).length) 0

/-- One main pass over a grid of blocks: the blocks of section rows r0.. and columns c0.. that lie on no hole. -/
def sectionBlocks (hole : Nat → Bool) (item r0 c0 mb nb : Nat) (second : Bool) (row0 : Nat) :
    List (Nat × BlkPos) :=
  (upFrom 0 (min 32 (mb - r0))).flatMap (fun r =>
    (upFrom 0 (min 16 (nb - c0))).filterMap (fun c =>
      if hole (tileAt (row0 + r) c) then none else some (tileAt (row0 + r) c, ⟨item, r0 + r, c0 + c, second⟩)))

/-- The main passes of one item's section rows (R111). -/
def mainPasses (hole : Nat → Bool) (item mb nb : Nat) (second : Bool) (srs : List Nat) : List ArrPass :=
  srs.flatMap (fun sr => (upFrom 0 ((nb + 15) / 16)).map (fun sc =>
    ⟨.main, sectionBlocks hole item (32 * sr) (16 * sc) mb nb second 0, 0, 0⟩))

/-- The stacked passes of R116. -/
def stackedPasses (hole : Nat → Bool) (items mb nb : Nat) : List ArrPass :=
  (upFrom 0 ((items + 3) / 4)).flatMap (fun g => (upFrom 0 ((nb + 15) / 16)).map (fun sc =>
    ⟨.main, (upFrom 0 (min 4 (items - 4 * g))).flatMap (fun q =>
      sectionBlocks hole (4 * g + q) 0 (16 * sc) mb nb false (8 * q)), 0, 0⟩))

/-- The deferred block rows and columns at a hole: rows and columns of blocks that fall on it (R113). A stacked item of
place `q` has its rows at array rows 8q up. -/
def deferred (i mb nb row0 : Nat) (srs : List Nat) : List Nat × List Nat :=
  let r := tileRow i
  let c := tileCol i
  ((srs.map (fun sr => 32 * sr + r - row0)).filter (fun b => decide (row0 ≤ r ∧ b < mb ∧ (row0 = 0 ∨ b < 8))),
   (upFrom 0 ((nb + 15) / 16)).filterMap (fun sc => if 16 * sc + c < nb then some (16 * sc + c) else none))

/-- A list cut into pieces of `k`. -/
def chunksOf {α : Type} (k : Nat) : Nat → List α → List (List α)
  | 0, _ => []
  | _ + 1, [] => []
  | n + 1, xs => xs.take k :: chunksOf k n (xs.drop k)

/-- The fill passes of one item list (R114, R115): `place item` is the array row where the item's rows start. -/
def fillPasses (hole : Nat → Bool) (items : List Nat) (mb nb : Nat) (second : Bool) (srs : List Nat)
    (place : Nat → Nat) : List ArrPass :=
  let holes := (upFrom 0 512).filter hole
  let u := fillHeight hole
  if u = 0 then
    let blocks := items.flatMap (fun it => holes.flatMap (fun i =>
      let g := deferred i mb nb (place it) srs
      g.1.flatMap (fun r => g.2.map (fun c => (⟨it, r, c, second⟩ : BlkPos)))))
    let seats := (upFrom 0 8).filterMap (fun w => ((upFrom 0 64).find? (fun t => !hole (w * 64 + t))).map (fun t => w * 64 + t))
    if seats = [] then []
    else (chunksOf seats.length blocks.length blocks).map (fun bs => ⟨.fill, seats.zip bs, 0, 0⟩)
  else
    let wings := (upFrom 0 8).filter (fun w => (freeClusters hole w).length == u)
    let chunks := items.flatMap (fun it => holes.flatMap (fun i =>
      let g := deferred i mb nb (place it) srs
      (chunksOf u g.1.length g.1).flatMap (fun rs => (chunksOf 8 g.2.length g.2).map (fun cs => (it, rs, cs)))))
    (chunksOf wings.length chunks.length chunks).map (fun cs =>
      ⟨.fill, (wings.zip cs).flatMap (fun x =>
        (freeClusters hole x.1).zip x.2.2.1 |>.flatMap (fun cr =>
          (upFrom 0 8).zip x.2.2.2 |>.map (fun tc =>
            (x.1 * 64 + cr.1 * 8 + tc.1, (⟨x.2.1, cr.2, tc.2, second⟩ : BlkPos))))), 0, 0⟩)

/-- Every pass of an operation, in order. -/
def arrPasses (hole : Nat → Bool) (x : ArrDesc) : List ArrPass :=
  let mb := (x.m + 31) / 32
  let nb := (x.n + 31) / 32
  let srs := upFrom 0 ((mb + 31) / 32)
  if x.code = 4 then
    let nb2 := (x.n2 + 31) / 32
    srs.flatMap (fun sr =>
      let one := mainPasses hole 0 mb nb false [sr] ++ fillPasses hole [0] mb nb false [sr] (fun _ => 0)
      let two := mainPasses hole 0 mb nb2 true [sr] ++ fillPasses hole [0] mb nb2 true [sr] (fun _ => 0)
      let firsts := ((if x.n = 0 then two else one).flatMap (fun p => p.blocks)).filter (fun b => b.2.bn == 0)
      one ++ [⟨.rowop, firsts, 1024 * sr, min 1024 (x.m - 1024 * sr)⟩] ++ two)
  else
    let items := upFrom 0 x.items
    if x.code = 2 ∧ mb ≤ 8 then
      stackedPasses hole x.items mb nb ++ fillPasses hole items mb nb false srs (fun it => 8 * (it % 4))
    else items.flatMap (fun it => mainPasses hole it mb nb false srs) ++ fillPasses hole items mb nb false srs (fun _ => 0)

/-! ## Operands -/

/-- Reads of operand bytes by the sequencer: the first status that was not OK, the device after them, and whether one of them waits
for its memory (R38, R133). -/
structure Rd where
  st : Nat
  dev : Dev
  wait : Bool

/-- No read yet. -/
def Rd.start (d : Dev) : Rd := ⟨OK, d, false⟩

/-- One more read. -/
def Rd.get (r : Rd) (m : Mem) (addr len : Nat) : List Byte × Rd :=
  if r.st ≠ OK then ([], r)
  else
    let x := gdRead r.dev (arrUser r.dev true) addr len
    (m.bytes addr len, ⟨x.1, x.2, r.wait || gdWaits r.dev (arrUser r.dev true) addr len⟩)

/-- The bytes of `n` elements of a row from element `k0` (a whole byte). -/
def Rd.row (r : Rd) (m : Mem) (addr fmt k0 n : Nat) : List Byte × Rd :=
  if n = 0 then ([], r) else r.get m (addr + packedBytes fmt k0) (packedBytes fmt n)

/-- The same, as codes. -/
def Rd.elems (r : Rd) (m : Mem) (addr fmt k0 n : Nat) : List Nat × Rd :=
  let x := r.row m addr fmt k0 n
  (unpack fmt n x.1, x.2)

/-- The elements and the scale code of an operand row's K-block. -/
structure KRow where
  els : List FVal
  scale : Nat

/-- The elements of a row as a port brought it. -/
def LandRow.kRow (fmt n : Nat) (x : LandRow) : KRow := ⟨(unpack fmt n x.bytes).map (elemVal fmt), x.scale⟩

/-- Rows with a function that reads one. -/
def readRows (f : Nat → Rd → LandRow × Rd) : List Nat → Rd → List LandRow × Rd
  | [], r => ([], r)
  | i :: is, r =>
    let a := f i r
    let b := readRows f is a.2
    (a.1 :: b.1, b.2)

/-- The input flags of a row. -/
def KRow.flags (r : KRow) : Nat := orAll (r.els.map inFlags) ||| (if r.scale = 0xFF then flNanIn else 0)

/-- Row `i` of A in K-block `kb` for GEMM and BATCHED (R102). -/
def rowA (m : Mem) (op : ArrOp) (item kb i : Nat) (r : Rd) : LandRow × Rd :=
  let x := op.d
  let e := r.row m (dAddr op.words 5 + item * (dw op.words 24 * 64) + i * dPitch op.words 5) x.afmt (32 * kb)
    (min 32 (x.k - 32 * kb))
  if fmtNarrow x.afmt ∧ ¬ x.aunit then
    let c := e.2.get m (dAddr op.words 11 + (item * x.m + i) * dPitch op.words 11 + kb) 1
    (⟨e.1, ofLE c.1⟩, c.2)
  else (⟨e.1, 127⟩, e.2)

/-- Row `i` of the implicit A of a CONV in K-block `kb` (R106). -/
def rowConv (m : Mem) (op : ArrOp) (kb i : Nat) (r : Rd) : LandRow × Rd :=
  let x := op.d
  let g := convGeo op.words
  let cin := g.cin x.k
  let rs := 32 * kb / cin
  let c0 := 32 * kb % cin
  let n := i / (g.ho * g.wo)
  let h : Int := ((i / g.wo % g.ho * g.sh + rs / g.fw : Nat) : Int) - g.ph
  let w : Int := ((i % g.wo * g.sw + rs % g.fw : Nat) : Int) - g.pw
  if h < 0 ∨ w < 0 ∨ (g.h : Int) ≤ h ∨ (g.w : Int) ≤ w then
    (⟨List.replicate (packedBytes x.afmt 32) 0, 127⟩, r)
  else
    let px := (n * g.h + h.toNat) * g.w + w.toNat
    let e := r.row m (dAddr op.words 5 + px * dPitch op.words 5) x.afmt c0 32
    if fmtNarrow x.afmt ∧ ¬ x.aunit then
      let c := e.2.get m (dAddr op.words 11 + px * dPitch op.words 11 + c0 / 32) 1
      (⟨e.1, ofLE c.1⟩, c.2)
    else (⟨e.1, 127⟩, e.2)

/-- Row `i` of P, the row operation's result, in K-block `kb` (R107). -/
def rowP (e : ArrExec) (kb i : Nat) (r : Rd) : LandRow × Rd :=
  let x := e.op.d
  (⟨pack x.pfmt ((upFrom (32 * kb) (min 32 (x.n - 32 * kb))).map (fun j => SMap.get (fun _ => 0) e.p (i * 1024 + j))),
    if fmtNarrow x.pfmt then SMap.get (fun _ => 0) e.psc (i * 1024 + kb) else 127⟩, r)

/-- Row `j` of B in K-block `kb` (R102). -/
def rowB (m : Mem) (op : ArrOp) (item kb j : Nat) (r : Rd) : LandRow × Rd :=
  let x := op.d
  let e := r.row m (dAddr op.words 7 + item * (dw op.words 25 * 64) + j * dPitch op.words 7) x.bfmt (32 * kb)
    (min 32 (x.k - 32 * kb))
  if fmtNarrow x.bfmt ∧ ¬ x.bunit then
    let c := e.2.get m (dAddr op.words 13 + (item * x.n + j) * dPitch op.words 13 + kb) 1
    (⟨e.1, ofLE c.1⟩, c.2)
  else (⟨e.1, 127⟩, e.2)

/-- Row `j` of B2 in K-block `kb` (R107). -/
def rowB2 (m : Mem) (op : ArrOp) (kb j : Nat) (r : Rd) : LandRow × Rd :=
  let x := op.d
  let e := r.row m (dw op.words 28 + bits (dw op.words 29) 15 0 * 2 ^ 32 + j * (bits (dw op.words 29) 31 16 * 64)) x.bfmt
    (32 * kb) (min 32 (x.n - 32 * kb))
  (⟨e.1, 127⟩, e.2)

/-- The K-blocks of the product a block belongs to. -/
def kBlocks (x : ArrDesc) (b : BlkPos) : Nat := ((if b.second then x.n else x.k) + 31) / 32

/-- The columns of the product a block belongs to. -/
def prodCols (x : ArrDesc) (b : BlkPos) : Nat := if x.code = 4 ∧ ¬ b.second then x.n else x.cols

/-- Rows and columns of a block that lie in the matrix. -/
def blkRows (x : ArrDesc) (b : BlkPos) : List Nat := upFrom (32 * b.bm) (min 32 (x.m - 32 * b.bm))
def blkCols (x : ArrDesc) (b : BlkPos) : List Nat := upFrom (32 * b.bn) (min 32 (prodCols x b - 32 * b.bn))

/-- The format of the A side and of the product a block belongs to, and the K steps of its K-block `kb` (R61). -/
def fmtOfA (x : ArrDesc) (b : BlkPos) : Nat := if b.second then x.pfmt else x.afmt
def kSteps (x : ArrDesc) (b : BlkPos) (kb : Nat) : Nat := min 32 ((if b.second then x.n else x.k) - 32 * kb)

/-- The exponent of a format's quantum, negated (R72). -/
def fmtQuantum (f : Nat) : Nat :=
  match f with
  | 3 => 9 | 4 => 16 | 5 => 3 | 6 => 4 | 7 => 1 | _ => 0

/-- The K-block sum registers that hold a sum of products with quantum 2^-q (R72, R73). -/
def KSum.regs (q : Nat) (k : KSum) : CellSum :=
  ⟨(k.sum / 2 ^ (32 - q) % 2 ^ 48).toNat, (k.up % 2 ^ 48).toNat, k.nan, k.pinf, k.ninf⟩

/-- One K-block of cell `k` of a tile (R74, R75): the tile and the flags after it. -/
def kblockCell (fa fb : Nat) (a b : KRow) (k : Nat) (t : Tile × Nat) : Tile × Nat :=
  let v := SMap.get (fun _ => 0) t.1.acc k
  let put (r : Nat × Nat) (sums : SMap CellSum) : Tile × Nat :=
    ({ t.1 with acc := SMap.put (fun _ => 0) t.1.acc k r.1, sums := sums }, t.2 ||| r.2)
  if fmtWide fa then put (cellWide v 0 a.els b.els) t.1.sums
  else
    let s := ksum (KSum.zero (fa == 4 || fb == 4)) a.els b.els
    put (cellNarrow v s a.scale b.scale)
      (SMap.put (fun _ => ⟨0, 0, false, false, false⟩) t.1.sums k (s.regs (fmtQuantum fa + fmtQuantum fb)))

/-- One K-block of every cell of a tile: the tile and the flags after it. -/
def kblockCells (fa fb : Nat) (rows cols : List KRow) (t : Tile) : Tile × Nat :=
  let js := (upFrom 0 cols.length).zip cols
  ((upFrom 0 rows.length).zip rows).foldl (fun t ia =>
    js.foldl (fun t jb => kblockCell fa fb ia.2 jb.2 (ia.1 * 32 + jb.1) t) t) (t, 0)

/-! ## Tile SRAM (R59) -/

/-- Bytes as 256-bit words. -/
def sramWords : Nat → List Byte → List Nat
  | 0, _ => []
  | _ + 1, [] => []
  | n + 1, bs => ofLE (bs.take 32) :: sramWords n (bs.drop 32)

/-- Words are written to a tile's SRAM with valid check bits, from a place on. -/
def Tile.stage (t : Tile) (at' : Nat) : List Nat → Tile
  | [] => t
  | w :: ws =>
    let k := at' % 49152
    Tile.stage { t with sram := SMap.put (fun _ => 0) t.sram k w, sramBad := t.sramBad.filter (fun b => b != k) } (at' + 1) ws

/-- Data is staged in a tile's SRAM; which words take it the spec leaves open, a free value (log entry 202). -/
def Dev.stageTile (d : Dev) (i : Nat) (bs : List Byte) : Dev :=
  if bs = [] then d else d.used.setTile i ((tile d i).stage (d.fresh % 49152) (sramWords bs.length bs))

/-! ## Landings (R26, R112) -/

/-- The wings that an operand block of a pass is delivered to: in a main pass A goes to both wings of a pair and B to the wings of a
column; what a fill pass gives a wing goes to it alone. -/
def landGroup (kind : PassKind) (sideB : Bool) (w : Nat) : Nat :=
  if kind = .main then (if sideB then w % 2 else w / 2) else 8 + w

/-- The rows of an operand block: those the landings have carried to its wings already, else read now, once for all of them. -/
def landRows (e : ArrExec) (key : Landing) (f : Nat → Rd → LandRow × Rd) (is : List Nat) (r : Rd) : List LandRow × ArrExec × Rd :=
  match e.landed.find? (fun l => decide ({ l with rows := [] } = key)) with
  | some l => (l.rows, e, r)
  | none =>
    let q := readRows f is r
    (q.1, { e with landed := e.landed ++ [{ key with rows := q.1 }] }, q.2)

/-- The A rows and the B columns of tile `i`'s block `b` in K-block `kb`. -/
def landBlock (m : Mem) (e : ArrExec) (i : Nat) (b : BlkPos) (kb : Nat) (r : Rd) : List LandRow × List LandRow × ArrExec × Rd :=
  let x := e.op.d
  let kind := match e.cur with | some p => p.kind | none => .main
  let fa := if b.second then rowP e kb else if x.code = 3 then rowConv m e.op kb else rowA m e.op b.item kb
  let fb := if b.second then rowB2 m e.op kb else rowB m e.op b.item kb
  let ra := landRows e ⟨false, landGroup kind false (i / 64), b.item, b.bm, kb, b.second, []⟩ fa (blkRows x b) r
  let rb := landRows ra.2.1 ⟨true, landGroup kind true (i / 64), b.item, b.bn, kb, b.second, []⟩ fb (blkCols x b) ra.2.2
  (ra.1, rb.1, rb.2.1, rb.2.2)

/-- A tile's landing ports run: neither the island of its wing's landings nor the wing's way to the Hall is stopped (R38). -/
def portsRun (d : Dev) (i : Nat) : Bool :=
  !(d.landingStopped (i / 64) || wingCut d (i / 64))

/-! ## Tile errors (R85, R86, R92) -/

/-- An uncorrectable SRAM word or an accumulator entry with wrong parity stands in the tile. -/
def Tile.damage (t : Tile) (bank word : Nat) : Tile :=
  if bank = 31 then { t with accBad := word :: t.accBad } else { t with sramBad := (bank * 2048 + word) :: t.sramBad }

/-- A read finds such a word or entry: counted, recorded, and the operation fails. -/
def Dev.tileUE (d : Dev) (i bank word : Nat) : Dev :=
  let b := 0x400 + i
  let d := d.setTile i ((tile d i).damage bank word)
  let d := d.wr (rkey b 0x08C) (2 ^ 31 + bank * 2 ^ 16 + word)
  (if bank = 31 then (d.count (rkey b 0x088)).raise b 2 else (d.count (rkey b 0x084)).raise b 1).arrFail TILE_ECC

/-- What a tile's reads of SRAM words and accumulator entries find, in a K-block or at the hand-off (R85, R86): the device, failed
when an error is uncorrectable. Every armed check is taken by one of the words or entries read (R92). -/
def Dev.tileReads (d : Dev) (i : Nat) (err : TileErr) : Dev :=
  let b := 0x400 + i
  let armed (n : Nat) : Bool := (d.armedFirst b [n]).isSome
  let ce (d : Dev) : Dev := (d.count (rkey b 0x080)).raise b 0
  let e := [0, 1, 2].foldl (fun d n => if armed n then d.disarm b n else d) d
  let e := match err with
    | .clean => e
    | .sramCE => ce e
    | .sramUE k w => e.tileUE i k.val w.val
    | .accParity n => e.tileUE i 31 n.val
  let e := if armed 0 then ce e else e
  let e := if armed 1 then e.used.used.tileUE i (e.fresh % 24) (e.used.fresh % 2048) else e
  if armed 2 then e.used.tileUE i 31 (e.fresh % 1024) else e

/-- The operation has not failed. -/
def arrRuns (d : Dev) : Bool :=
  match d.arr.exec with
  | some e => e.failed.isNone
  | none => false

/-- What a tile's reads find beside the operands it waited for: of the causes that arise together the first of R122 gives the status,
WING_RESET before TILE_ECC, TILE_ECC before any other answer of the Hall. -/
def Rd.tileReads (r : Rd) (i : Nat) (err : TileErr) : Dev :=
  let d := (if r.st = WING_RESET then r.dev.arrFail WING_RESET else r.dev).tileReads i err
  if r.st = OK then d else d.arrFail r.st

/-- Sticky flags of a tile (R83), and of the executing operation too. -/
def Dev.tileSticky (d : Dev) (i fl : Nat) : Dev := d.wr (rkey (0x400 + i) 0x098) (d.rd (rkey (0x400 + i) 0x098) ||| fl)
def Dev.tileFlags (d : Dev) (i fl : Nat) : Dev :=
  let d := d.tileSticky i fl
  match d.arr.exec with
  | some e => d.setExec { e with flags := e.flags ||| fl }
  | none => d

/-- A tile finishes a K-block (R74, R75): its operands come by its landings, each cell adds its block value. While a port of it or
the memory of an operand waits, the K-block is not done (R38, R133). -/
def execKblockDone (i : Fin 512) (err : TileErr) (s : State) : Host.Outcome State Fault Refusal :=
  let i := i.val
  match s.dev.arr.exec, (tile s.dev i).blk with
  | some e, some b =>
    let x := e.op.d
    let kb := (tile s.dev i).kdone
    let l := landBlock s.mem e i b kb (Rd.start s.dev)
    let d := l.2.2.2.tileReads i err
    if e.failed.isSome ∨ tileStopped s.dev i ∨ ¬ portsRun s.dev i ∨ kBlocks x b ≤ kb ∨ l.2.2.2.wait then done s
    else if ¬ arrRuns d then done { s with dev := d }
    else
      let ra := l.1.map (fun r => r.kRow (fmtOfA x b) (kSteps x b kb))
      let rb := l.2.1.map (fun r => r.kRow x.bfmt (kSteps x b kb))
      let d := (d.setExec l.2.2.1).stageTile i ((l.1 ++ l.2.1).flatMap (fun r => r.bytes))
      let c := kblockCells (fmtOfA x b) x.bfmt ra rb (tile d i)
      let fl := (if b.second then 0 else orAll (ra.map KRow.flags)) ||| orAll (rb.map KRow.flags) ||| c.2
      done { s with dev := (d.setTile i { c.1 with kdone := kb + 1, portA := l.1, portB := l.2.1 }).tileFlags i fl }
  | _, _ => done s

/-! ## Epilogue and output (R109, R118-R121) -/

/-- The values one block's epilogue reads: bias and scale vector by column, the residual by row. -/
structure EpiIn where
  bias : List Nat
  svec : List Nat
  res : List (List FVal)

/-- The elements of a residual for each row. -/
def readRes (m : Mem) (op : ArrOp) (b : BlkPos) : List Nat → Rd → List (List FVal) × Rd
  | [], r => ([], r)
  | i :: is, r =>
    let x := op.d
    let e := r.elems m (dAddr op.words 17 + (b.item * x.m + i) * dPitch op.words 17) x.resfmt (32 * b.bn)
      (min 32 (x.cols - 32 * b.bn))
    let q := readRes m op b is e.2
    (e.1.map (elemVal x.resfmt) :: q.1, q.2)

/-- The epilogue's inputs for a block. -/
def epiIn (m : Mem) (op : ArrOp) (b : BlkPos) (r : Rd) : EpiIn × Rd :=
  let x := op.d
  let n := min 32 (x.cols - 32 * b.bn)
  let b1 := if x.biasEn then r.elems m (dAddr op.words 19) 0 (32 * b.bn) n else ([], r)
  let s1 := if x.scaleEn ∧ x.scaleVec then b1.2.elems m (dAddr op.words 22) 0 (32 * b.bn) n else ([], b1.2)
  let r1 := if x.resEn then readRes m op b (blkRows x b) s1.2 else ([], s1.2)
  (⟨b1.1, s1.1, r1.1⟩, r1.2)

/-- An activation (R110). -/
def actFn (a x : Nat) : Nat :=
  match a with
  | 1 => relu32 x | 2 => gelu32 x | 3 => silu32 x | _ => x

/-- One element through the epilogue (R109): value and flags. -/
def epilogue (x : ArrDesc) (scale : Nat) (z : EpiIn) (row col v : Nat) : Nat × Nat :=
  let bi := listAt 0 z.bias col
  let v1 := if x.biasEn then add32 v bi else v
  let f1 := if x.biasEn then inFlags (val32 bi) ||| (if overflowed [v, bi] v1 then flOverflow else 0) else 0
  let sc := if x.scaleVec then listAt 0 z.svec col else scale
  let v2 := if x.scaleEn then mul32 v1 sc else v1
  let f2 := if x.scaleEn then inFlags (val32 sc) ||| (if overflowed [v1, sc] v2 then flOverflow else 0) else 0
  let v3 := actFn x.act v2
  let re := (listAt (.fin false 0 0) (listAt [] z.res row) col)
  let v4 := if x.resEn then add32 v3 re.to32 else v3
  let f4 := if x.resEn then inFlags re ||| (if overflowed [v3, re.to32] v4 then flOverflow else 0) else 0
  (v4, f1 ||| f2 ||| f4)

/-- A converted row of a block: scale (when scaled), codes, flags. -/
structure OutRow where
  scale : Nat
  codes : List Nat
  flags : Nat

/-- One row of a block through epilogue and conversion. -/
def outRow (x : ArrDesc) (scale : Nat) (z : EpiIn) (acc : SMap Nat) (row n : Nat) : OutRow :=
  let es := (upFrom 0 n).map (fun c => epilogue x scale z row c (SMap.get (fun _ => 0) acc (row * 32 + c)))
  let fl := orAll (es.map (·.2))
  if x.oscaled then
    let r := convertRow x.ofmt x.sat (es.map (·.1))
    ⟨r.1, r.2.1, fl ||| r.2.2⟩
  else
    let cs := es.map (fun e => convert x.ofmt x.sat e.1)
    ⟨0, cs.map (·.1), fl ||| orAll (cs.map (·.2))⟩

/-- The writes of a block (R118, R120, R121): rows, then scales. A window block's scales go as one packet at OSC_ADDR plus
32 bytes per block in item, row and column order (log entry 7). -/
def blockWrites (op : ArrOp) (b : BlkPos) (rows : List OutRow) : List ArrWrite :=
  let x := op.d
  let ws := op.words
  let is := (upFrom 0 rows.length).zip rows
  if x.dest = 2 then
    [.collective (is.map (fun r => ((b.item * x.m + 32 * b.bm + r.1) * x.cols + 32 * b.bn, r.2.codes)))]
  else
    let at' (i : Nat) : Nat := dAddr ws 9 + b.item * (dw ws 26 * 64) + (32 * b.bm + i) * dPitch ws 9 + packedBytes x.ofmt (32 * b.bn)
    let mk (a : Nat) (bs : List Byte) : ArrWrite := if x.dest = 1 then .window a bs else .loc a bs
    is.map (fun r => mk (at' r.1) (pack x.ofmt r.2.codes)) ++
    (if ¬ x.oscaled then []
     else if x.dest = 1 then
      let mb := (x.m + 31) / 32
      let nb := (x.cols + 31) / 32
      [.window (dAddr ws 15 + 32 * ((b.item * mb + b.bm) * nb + b.bn)) (rows.map (fun r => BitVec.ofNat 8 r.scale))]
     else is.map (fun r => .loc (dAddr ws 15 + (b.item * x.m + 32 * b.bm + r.1) * dPitch ws 15 + b.bn)
      [BitVec.ofNat 8 r.2.scale]))

/-- Writes numbered from a number. -/
def numbered (n block : Nat) : List ArrWrite → List ArrOut
  | [] => []
  | w :: ws => ⟨n, block, w⟩ :: numbered (n + 1) block ws

/-- The FP32 sums of a CHAIN's first product for one block (R107). -/
def keepSums (s : SMap Nat) (b : BlkPos) (acc : SMap Nat) (rows cols : Nat) : SMap Nat :=
  (upFrom 0 rows).foldl (fun s r => (upFrom 0 cols).foldl (fun s c =>
    SMap.put (fun _ => 0) s ((32 * b.bm + r) * 1024 + 32 * b.bn + c) (SMap.get (fun _ => 0) acc (r * 32 + c))) s) s

/-- A finished tile leaves the pass. -/
def Dev.blockFinished (d : Dev) (i : Nat) (e : ArrExec) : Dev :=
  ((d.setTile i (tile d i).empty).count (rkey (0x400 + i) 0x094)).setExec
    { e with left := e.left.filter (fun j => j != i) }

/-- The last K-block of an output block is added: the bank goes to the epilogue unit, the converted block to the tile's SRAM, and
the block's writes are issued (R62, R118). -/
def execTileBlockDone (i : TileDone) (s : State) : Host.Outcome State Fault Refusal :=
  let err := i.err
  let i := i.tile.val
  let t := tile s.dev i
  match s.dev.arr.exec, t.blk with
  | some e, some b =>
    let x := e.op.d
    let first : Bool := x.code == 4 && !b.second
    let z := if first then (⟨[], [], []⟩, Rd.start s.dev) else epiIn s.mem e.op b (Rd.start s.dev)
    let d := z.2.tileReads i err
    if e.failed.isSome ∨ tileStopped s.dev i ∨ t.kdone < kBlocks x b ∨ z.2.wait then done s
    else if ¬ arrRuns d then done { s with dev := d }
    else if first then
      done { s with dev := d.blockFinished i { e with s := keepSums e.s b t.acc (blkRows x b).length (blkCols x b).length } }
    else
      let rows := (upFrom 0 (blkRows x b).length).map (fun r =>
        outRow x (dw e.op.words 21) z.1 t.acc r (blkCols x b).length)
      let ws := blockWrites e.op b rows
      let fl := orAll (rows.map (·.flags)) |||
        (if x.scaleEn ∧ ¬ x.scaleVec then inFlags (val32 (dw e.op.words 21)) else 0)
      let e := { e with
        unacked := e.unacked ++ numbered e.nextWrite e.nextBlock ws
        nextWrite := e.nextWrite + ws.length
        nextBlock := e.nextBlock + 1 }
      let d := (d.stageTile i (rows.flatMap (fun r => pack x.ofmt r.codes))).blockFinished i e
      done { s with dev := (issueWrites d e (numbered (e.nextWrite - ws.length) (e.nextBlock - 1) ws)).tileFlags i fl }
  | _, _ => done s
where
  /-- Window writes are offered as remote-write packets (R120). -/
  issueWrites (d : Dev) (e : ArrExec) : List ArrOut → Dev
    | [] => d
    | w :: ws =>
      match w.what, e.entry with
      | .window off bs, some i =>
        let u := arrUser d false
        let x := dw e.op.words
        issueWrites (d.offer ⟨ptWrite, 2, false, false, false, bits (x 30) 31 17, 0, 0, u.tenant, u.system, bits (x 30) 16 5,
          bits (x 31) 7 0, off, opidOf d i, w.n % 2 ^ 16, bs⟩) e ws
      | _, _ => issueWrites d e ws

/-! ## Row operations of CHAIN (R107, R108) -/

/-- Softmax of one row (R108): values and flags. -/
def softmax (t : Nat) (xs : List Nat) : List Nat × Nat :=
  let okT := isFin32 t && !t.testBit 31 && t % 2 ^ 31 != 0
  if ¬ okT ∨ xs.any (fun x => !isFin32 x) then (xs.map (fun _ => nan32), if okT then 0 else flOutNan)
  else
    let mx := match xs with
      | [] => 0
      | a :: as => as.foldl (fun m x => if gt32 x m then x else m) a
    let c := mul32 t 0x3FB8AA3B
    let ds := xs.map (fun x => (x, add32 x (mx ^^^ 2 ^ 31)))
    let as := ds.map (fun y => (y.2, mul32 c y.2))
    let es := as.map (fun y => exp2Tab y.2)
    let sum := es.foldl (fun a e => (add32 a.1 e, a.2 || overflowed [a.1, e] (add32 a.1 e))) (0, false)
    let r := recip32 sum.1
    let ov := overflowed [t] c || ds.any (fun y => overflowed [y.1, mx] y.2) || as.any (fun y => overflowed [c, y.1] y.2) || sum.2
    (es.map (fun e => mul32 e r), if ov then flOverflow else 0)

/-- Layer scale of one row (R107): values and flags. -/
def layerScale (xs sv : List Nat) : List Nat × Nat :=
  let rs := (xs.zip sv).map (fun y => (mul32 y.1 y.2, (if overflowed [y.1, y.2] (mul32 y.1 y.2) then flOverflow else 0) ||| inFlags (val32 y.2)))
  (rs.map (·.1), orAll (rs.map (·.2)))

/-- A row of P in PFMT: codes, scales by K-block, flags. -/
def pRow (x : ArrDesc) (vs : List Nat) : List Nat × List Nat × Nat :=
  if fmtNarrow x.pfmt then
    let bs := (chunksOf 32 vs.length vs).map (convertRow x.pfmt x.sat)
    ((bs.map (·.2.1)).flatten, bs.map (·.1), orAll (bs.map (·.2.2)))
  else
    let cs := vs.map (convert x.pfmt x.sat)
    (cs.map (·.1), [], orAll (cs.map (·.2)))

/-- A list stored from a key. -/
def putRun (m : SMap Nat) (k : Nat) : List Nat → SMap Nat
  | [] => m
  | v :: vs => putRun (SMap.put (fun _ => 0) m k v) (k + 1) vs

/-- The row operation of some rows of S. Its flags are set in the tile whose block begins the row, which `tiles` names (R90; log
entry 203). -/
def rowOps (d : Dev) (e : ArrExec) (tiles : List (Nat × BlkPos)) (sv : List Nat) : List Nat → Dev × ArrExec
  | [] => (d, e)
  | i :: is =>
    let x := e.op.d
    let xs := (upFrom 0 x.n).map (fun j => SMap.get (fun _ => 0) e.s (i * 1024 + j))
    let sm := bits (dw e.op.words 23) 31 16 * 2 ^ 16
    let r := if x.rowop = 1 then softmax sm xs else layerScale xs sv
    let p := pRow x r.1
    let f := r.2 ||| p.2.2 ||| (if x.rowop = 1 then inFlags (val32 sm) else 0)
    let d := match tiles.find? (fun b => b.2.bm == i / 32) with | some b => d.tileSticky b.1 f | none => d
    rowOps d { e with p := putRun e.p (i * 1024) p.1, psc := putRun e.psc (i * 1024) p.2.1, flags := e.flags ||| f } tiles sv is

/-! ## Passes -/

/-- The next pass begins: its blocks go to their tiles. A row operation is done at once, and the pass after it begins; where the memory
of its vector does not answer it stands as the current pass until it is tried again (R38, R133). With no pass left the tiles are
idle. -/
def beginPass (m : Mem) (d : Dev) (e : ArrExec) : List ArrPass → Dev
  | [] => (d.mapTiles (fun t => { t with st := if t.st = .busy then .idle else t.st }) e.tiles).setExec
      { e with passes := [], cur := none, left := [], landed := [] }
  | p :: ps =>
    match p.kind with
    | .rowop =>
      let x := e.op.d
      let r := if x.rowop = 2 then (Rd.start d).elems m (dAddr e.op.words 22) 0 0 x.n else ([], Rd.start d)
      if r.2.wait then d.setExec { e with passes := ps, cur := some p, left := [], landed := [] }
      else if r.2.st ≠ OK then (r.2.dev.setExec { e with passes := ps, cur := none, left := [] }).arrFail r.2.st
      else
        let o := rowOps r.2.dev e p.blocks r.1 (upFrom p.row p.rows)
        beginPass m o.1 o.2 ps
    | _ =>
      let d := p.blocks.foldl (fun d b => d.setTile b.1 { (tile d b.1).empty with st := .busy, blk := some b.2 }) d
      let reads := p.blocks.any (fun b => decide (0 < kBlocks e.op.d b.2))
      d.setExec { e with
        passes := ps, cur := some p, left := p.blocks.map (·.1), landed := []
        began := if e.began = none ∧ reads then some d.clk.cal else e.began }

/-- The operation's first pass begins. Its time counts from the first pass that reads operands (R99). -/
def arrBegin (s : State) (e : ArrExec) : State :=
  let e := { e with waitEntry := false }
  { s with dev := beginPass s.mem s.dev e e.passes }

/-- A pass is done when all its blocks are (R111); a row operation that waited for memory is tried again. -/
def execPassDone (s : State) : Host.Outcome State Fault Refusal :=
  match s.dev.arr.exec with
  | some e =>
    (match e.cur, e.left with
      | some p, [] =>
        if p.kind = .rowop then done { s with dev := beginPass s.mem s.dev e (p :: e.passes) }
        else
        let e := if p.kind = .fill then { e with fillDone := e.fillDone + 1 } else { e with mainDone := e.mainDone + 1 }
        done (({ s with dev := beginPass s.mem s.dev e e.passes }).onDev (fun d => d.wr Reg.ARR_PASSES
          ((min e.mainDone 0xFFFF) * 2 ^ 16 + min e.fillDone 0xFFFF)))
      | _, _ => done s)
  | none => done s

/-- An operation that is about to execute. -/
def ArrExec.start (op : ArrOp) (tiles : List Nat) (passes : List ArrPass) : ArrExec :=
  ⟨op, tiles, passes, none, [], [], 0, none, none, false, [], [], 0, 0, 0, 0, 0, [], [], [], none⟩

/-- The packets of an operation whose destination is a window: one per block row, and one per block for its scales. -/
def windowPackets (x : ArrDesc) : Nat :=
  let nb := (x.cols + 31) / 32
  x.items * (x.m * nb + (if x.oscaled then (x.m + 31) / 32 * nb else 0))

/-- The operation-table entry of a window operation (R120). -/
def arrTakeEntry (d : Dev) (op : ArrOp) : Option (Nat × Dev) :=
  d.optTake 1 1 (bits (dw op.words 30) 31 17) (bits (dw op.words 31) 7 0) (windowPackets op.d) 0 2

/-- The sequencer starts the operation at the queue's head (R103). -/
def execArrOpStart (s : State) : Host.Outcome State Fault Refusal :=
  match s.dev.arr.exec, s.dev.arr.held, s.dev.arr.queue with
  | none, none, op :: rest =>
    if op.dead then done (flushDead s.dev.arr.queue.length s)
    else if (s.dev.rd (rkey 0x080 0x010)).testBit 1 ∨ (s.dev.rd Reg.ARR_CPL_SIZE ≠ 0 ∧ ringFull s.dev) ∨ cplWaits s.dev then done s
    else
      let s := s.onDev (fun d => { d.fixParking with arr := { d.arr with queue := rest } })
      let x := op.d
      let det := arrDetail s.dev op
      let hole := tileHole s.dev
      let e0 := ArrExec.start op [] []
      if det ≠ 0 then done (arrEnd s e0 DESC_INVALID det false)
      else if x.noOutput then done (arrEnd s e0 OK 0 false)
      else if (upFrom 0 512).all hole then done (arrEnd s e0 NO_TILES 0 false)
      else
        let ps := arrPasses hole x
        let used := (upFrom 0 512).filter (fun i => ps.any (fun p => p.blocks.any (fun b => b.1 == i)))
        let e := ArrExec.start op used ps
        let s := s.onDev (fun d => ((d.wr Reg.ARR_CURRENT op.desc).wr Reg.ARR_TILES_USED used.length).wr Reg.ARR_PASSES 0)
        if x.dest = 1 then
          match arrTakeEntry s.dev op with
          | some (i, d) => done (arrBegin { s with dev := d } { e with entry := some i })
          | none => doneDev s (fun d => (d.optWait 1).setExec { e with waitEntry := true })
        else done (arrBegin s e)
  | _, _, _ => done s

/-- An operation that waited for its operation-table entry obtains it (R120). -/
def execArrWindowEntry (s : State) : Host.Outcome State Fault Refusal :=
  match s.dev.arr.exec with
  | some e =>
    if e.waitEntry ∧ e.failed = none then
      match arrTakeEntry s.dev e.op with
      | some (i, d) => done (arrBegin { s with dev := d } { e with entry := some i })
      | none => done s
    else done s
  | none => done s

/-! ## Acknowledgement and ends -/

/-- An output write is acknowledged with a status: a block whose writes are all acknowledged OK counts; another status fails the
operation (R119, R122, R123). -/
def Dev.arrAck (d : Dev) (n st : Nat) : Dev :=
  match d.arr.exec with
  | none => d
  | some e =>
    match e.unacked.find? (fun w => w.n == n) with
    | none => d
    | some w =>
      let rest := e.unacked.filter (fun v => v.n != n)
      let broken := if st = OK then e.broken else w.block :: e.broken
      let blockDone := !broken.contains w.block && rest.all (fun v => v.block != w.block)
      let d := d.setExec { e with unacked := rest, broken, acked := e.acked + b2n blockDone }
      if st = OK then d else d.arrFail st

/-- The entry an operation held is freed (R120). -/
def freeEntry (s : State) (e : ArrExec) : State :=
  match e.entry with
  | some i => s.onDev (fun d => d.optRelease i)
  | none => s

/-- The executing operation is complete: no pass, no block, no write is left. -/
def ArrExec.complete (e : ArrExec) : Bool :=
  e.failed.isNone && !e.waitEntry && e.passes == [] && e.cur == none && e.unacked == []

/-- Every output write has been acknowledged and the operation completes (R119). -/
def execArrOpComplete (s : State) : Host.Outcome State Fault Refusal :=
  match s.dev.arr.exec with
  | some e => if e.complete ∧ ¬ cplWaits s.dev then done (arrEnd (freeEntry s e) e OK 0 false) else done s
  | none => done s

/-- The output rows of an operation that ran and failed hold undefined contents (R124). -/
def havocRows (s : State) (r : MatRange) : Nat → Nat → State
  | 0, _ => s
  | n + 1, a => havocRows (s.havoc a r.row) r n (a + r.pitch)

/-- Every output range of a failed operation. -/
def havocOutput (s : State) : List MatRange → State
  | [] => s
  | r :: rs => havocOutput (havocRows s r r.rows r.base) rs

/-- The failed operation's end (R123 steps 3 and 4). -/
def failEnd (s : State) (e : ArrExec) (st : Nat) (lose : Bool) : State :=
  let s := if e.waitEntry then s else havocOutput s (arrWrites e.op)
  arrEnd (freeEntry s e) e st 0 lose

/-- Every write of a failed operation has been acknowledged or has failed (R123). -/
def execArrFailDrained (s : State) : Host.Outcome State Fault Refusal :=
  match s.dev.arr.exec with
  | some e =>
    (match e.failed, e.unacked with
      | some st, [] => if cplWaits s.dev then done s else done (failEnd s e st false)
      | _, _ => done s)
  | none => done s

/-- The completion record of an operation that is at its end cannot be written (R131): it is lost and counted. -/
def execCplWrite (s : State) : Host.Outcome State Fault Refusal :=
  match s.dev.arr.exec with
  | some e =>
    (match e.failed, e.unacked with
      | some st, [] => done (failEnd s e st true)
      | _, _ => if e.complete then done (arrEnd (freeEntry s e) e OK 0 true) else done s)
  | none => done s

/-- ARR_STALL_TIMEOUT passes with no progress (R122): from the first operand read on. -/
def execArrStallTimeout (s : State) : Host.Outcome State Fault Refusal :=
  match s.dev.arr.exec with
  | some e =>
    if e.failed = none ∧ e.began.isSome then doneDev s (fun d => (d.raise 0x080 1).arrFail TIMEOUT) else done s
  | none => done s

/-- A handshake arrives out of sequence (R131, R92): the operation fails with TIMEOUT. -/
def execHandshake (part : HandshakePart) (s : State) : Host.Outcome State Fault Refusal :=
  doneDev s (fun d =>
    let d := match part with
      | .tile i => d.raise (0x400 + i.val) 4
      | _ => d
    (d.raise 0x080 3).arrFail TIMEOUT)

/-! ## Submission and control -/

/-- The effect of a write of ARR_SUBMIT (R96, R97). -/
def arrSubmitEffect (master v : Nat) (s : State) : Nat × State :=
  if v.testBit 31 ∨ v.testBit 30 then (OUT_OF_RANGE, s)
  else if 64 ≤ arrQueued s.dev then (QUEUE_FULL, s.onDev (fun d => d.count Reg.ARR_REFUSED_COUNT))
  else
    let a := v * 128
    let r := gdRead s.dev (arrUser s.dev false) a 128
    if r.1 ≠ OK then (r.1, { s with dev := r.2.raise 0x080 0 })
    else
      let who := if 0x10 ≤ master ∧ master ≤ 0x1F then r.2.rd (Reg.ETH_SLOT + 4 * (master - 0x10)) else 0
      let op : ArrOp := ⟨(upFrom 0 32).map (fun i => ofLE (s.mem.bytes (a + 4 * i) 4)), v, r.2.rd Reg.ARR_SUBMIT_COUNT, who, false⟩
      let d := r.2.bump Reg.ARR_SUBMIT_COUNT
      (OK, { s with dev := { d with arr := { d.arr with queue := d.arr.queue ++ [op] } } })

/-- ARR_SUBMIT. -/
def execArrSubmit (master : Byte) (value : Word) (s : State) : Host.Outcome State Fault Refusal :=
  done (mgmtWrite master.toNat (mAddr Reg.ARR_SUBMIT) 32 value.toNat (arrSubmitEffect master.toNat value.toNat) s)

/-- The effect of a write of ARR_CTRL (R126): HOLD is stored; FLUSH fails the executing and every queued operation. -/
def arrCtrlEffect (master v : Nat) (s : State) : Nat × State :=
  let s := (plainEffect master (rkey 0x080 0x010) v s).2
  if v.testBit 0 then
    let s := s.onDev (fun d =>
      let d := { d with arr := { d.arr with queue := d.arr.queue.map (fun (o : ArrOp) => { o with dead := true }) } }
      d.arrFail ABORTED)
    (OK, flushDead s.dev.arr.queue.length s)
  else (OK, s)

/-- ARR_FLUSH, with the HOLD bit that the same write carries. -/
def execArrFlush (master : Byte) (hold : Bool) (s : State) : Host.Outcome State Fault Refusal :=
  let v := 1 + 2 * b2n hold
  done (mgmtWrite master.toNat (mAddr (rkey 0x080 0x010)) 32 v (arrCtrlEffect master.toNat v) s)

/-- ARR_HOLD. -/
def execArrHold (master : Byte) (hold : Bool) (s : State) : Host.Outcome State Fault Refusal :=
  let v := 2 * b2n hold
  done (mgmtWrite master.toNat (mAddr (rkey 0x080 0x010)) 32 v (arrCtrlEffect master.toNat v) s)

/-- The effect of a write of ARR_TENANT (R98). -/
def arrTenantEffect (master v : Nat) (s : State) : Nat × State :=
  if arrState s.dev ≠ 0 ∨ s.dev.arr.queue ≠ [] then (OUT_OF_RANGE, s)
  else plainEffect master Reg.ARR_TENANT v s

/-- ARR_TENANT_WRITE. -/
def execArrTenantWrite (master : Byte) (value : Word) (s : State) : Host.Outcome State Fault Refusal :=
  done (mgmtWrite master.toNat (mAddr Reg.ARR_TENANT) 32 value.toNat (arrTenantEffect master.toNat value.toNat) s)

/-! ## Tiles' own events -/

/-- PARK: a write of TIL_CTRL (R91). -/
def execPark (master : Byte) (i : Fin 512) (value : Bool) (s : State) : Host.Outcome State Fault Refusal :=
  let key := rkey (0x400 + i.val) 0x010
  done (mgmtWrite master.toNat (mAddr key) 32 (b2n value) (plainEffect master.toNat key (b2n value)) s)

/-- A tile that began a K-block waits too long on a port (R89); a tile whose island is stopped does not time out. -/
def execOperandTimeout (i : Fin 512) (s : State) : Host.Outcome State Fault Refusal :=
  doneDev s (fun d =>
    if (tile d i.val).blk.isSome ∧ ¬ tileStopped d i.val then (d.raise (0x400 + i.val) 3).arrFail TIMEOUT else d)

/-- The clear of a tile after a reset is done (R88). -/
def execTileClearDone (i : Fin 512) (s : State) : Host.Outcome State Fault Refusal :=
  doneDev s (fun d =>
    if (tile d i.val).st = .clearing ∧ ¬ tileStopped d i.val then
      d.setTile i.val { (tile d i.val).cleared with st := .idle } else d)

/-- A reset's clear of a tile is not done in time (R92). -/
def execClearFault (i : Fin 512) (s : State) : Host.Outcome State Fault Refusal :=
  doneDev s (fun d => if (tile d i.val).st = .clearing then d.raise (0x400 + i.val) 5 else d)

/-- A cluster's PLL loses lock (R94): LOCKED reads 0, the clocks of its tiles stop until a reset relocks it, PLL_UNLOCK is raised. -/
def execPllUnlock (c : Fin 64) (s : State) : Host.Outcome State Fault Refusal :=
  doneDev s (fun d =>
    let d := d.wr (rkey (0x600 + c.val) 0x080) 0
    let d : Dev := { d with pwr := { d.pwr with unlocked := c.val :: d.pwr.unlocked.filter (fun x => x != c.val) } }
    d.raise (0x600 + c.val) 0)

end Sys2Proof.Machine
end

