-- ==== Sys2Proof/Machine/Tosto.lean ====
section
/-! DEFINITION. Tosto framing (R366, R367), the relay header (R320), and the sending of messages and replies. -/

namespace Sys2Proof.Machine

/-! ## Families (R367) -/

abbrev famSession : Nat := 1
abbrev famReg : Nat := 2
abbrev famMbx : Nat := 3
abbrev famAtt : Nat := 4
abbrev famKey : Nat := 5
abbrev famRec : Nat := 6
abbrev famPeal : Nat := 7
abbrev famJob : Nat := 8
abbrev famImage : Nat := 9
abbrev famDebug : Nat := 10
abbrev famBelfry : Nat := 11
abbrev famStatus : Nat := 12

/-- The 16-byte header of a message (R366). -/
def tostoHeader (m : TMsg) (session : Nat) : List Byte :=
  [1, BitVec.ofNat 8 m.family, BitVec.ofNat 8 m.code, BitVec.ofNat 8 (b2n m.reply)] ++ leBytes 2 session ++
    leBytes 2 m.body.length ++ leBytes 4 m.seq ++ leBytes 2 m.rtag ++ [BitVec.ofNat 8 m.status, 0]

/-- A message of the fabric: header with SESSION 0x0080, body, and the tag under the fabric message key. -/
def fabricBytes (m : TMsg) : List Byte :=
  let b := tostoHeader m 0x80 ++ m.body
  b ++ leBytes 16 (Config.fabricTag b)

/-- The codes of a family run from 1 to this number (R321, R359, R372, R423, R426, R431, R438, R486); 0 for a family that does not
exist. -/
def lastCode (family : Nat) : Nat := listAt 0 [0, 3, 2, 1, 2, 2, 5, 4, 9, 1, 5, 17, 1] family

/-- A family and a code name a message. -/
def codeKnown (family code : Nat) : Bool := decide (1 ≤ code ∧ code ≤ lastCode family)

/-- The message that bytes of the fabric spell, when its fields are valid and its body fits its path: VERSION 1, the reserved bits zero, a
known message, SESSION 0x0080, STATUS 0 in a request, and LENGTH the bytes between header and tag (R366). -/
def parseTosto (src : MsgSrc) (limit : Nat) (bs : List Byte) : Option TMsg :=
  let n := field bs 6 2
  if field bs 0 1 = 1 ∧ codeKnown (field bs 1 1) (field bs 2 1) ∧ field bs 3 1 ≤ 1 ∧ field bs 4 2 = 0x80 ∧
      (field bs 3 1 = 1 ∨ field bs 14 1 = 0) ∧ field bs 15 1 = 0 ∧ n ≤ limit ∧ bs.length = n + 32 then
    some ⟨src, field bs 1 1, field bs 2 1, field bs 3 1 == 1, field bs 8 4, field bs 12 2, field bs 14 1, slice bs 16 n⟩
  else none

/-! ## Relay (R320) -/

/-- The path elements of a relay header. -/
def relayPath (bs : List Byte) : List Nat :=
  (upFrom 0 (min 64 (field bs 1 1))).map (fun i => bits (field bs 8 24) (3 * i + 2) (3 * i))

/-- A path packed in 24 bytes, element i in bits [3i + 2:3i]. -/
def packPath (path : List Nat) : List Byte := leBytes 24 (packNat3 path)
where
  /-- Three bits an element, the first lowest. -/
  packNat3 : List Nat → Nat
    | [] => 0
    | p :: ps => p % 8 + 8 * packNat3 ps

/-- The 32-byte relay header. -/
def relayHeader (path : List Nat) (next : Nat) (ret : Bool) (origin : Option Nat) (tag : Nat) : List Byte :=
  [0xB1, BitVec.ofNat 8 path.length, BitVec.ofNat 8 next, BitVec.ofNat 8 (b2n ret)] ++
    leBytes 2 (match origin with | some ma => 0x8000 + ma % 0x8000 | none => 0) ++ leBytes 2 tag ++ packPath path

/-- The path of the reply to a relay packet that ends here: the port it arrived on, then the recorded arrival ports in
reverse order. The origin's own element records no arrival. -/
def returnPath (arrival : Nat) (path : List Nat) : List Nat := arrival :: (path.drop 1).reverse

/-- A MGMT packet that carries SYSTEM. -/
def mgmtPacket (phase : Bool) (dest via : Nat) (payload : List Byte) : Packet :=
  ⟨ptMgmt, 0, false, phase, false, dest, via, 0, 0, true, 0, 0, 0, 0, 0, payload⟩

/-! ## Sending -/

/-- This module's MA when it has one. -/
def originMa (d : Dev) : Option Nat :=
  if (d.rd Reg.RTR_MA).testBit 15 then some (bits (d.rd Reg.RTR_MA) 14 0) else none

/-- A message leaves along a relay path; the sender itself is the path's first element. -/
def Dev.sendRelay (d : Dev) (path : List Nat) (ret : Bool) (tag : Nat) (m : TMsg) : Dev :=
  match path with
  | [] => d
  | p :: _ => d.offer (mgmtPacket false 0 (p * 4) (relayHeader path 1 ret (originMa d) tag ++ fabricBytes m))

/-- A session slot that nothing holds, and access to the slots. -/
def Session.empty : Session := ⟨0, none, 0, 0, 0, 0, [], []⟩
def sessOf (d : Dev) (slot : Nat) : Session := SMap.get (fun _ => Session.empty) d.host.sess slot
def Dev.setSess (d : Dev) (slot : Nat) (x : Session) : Dev :=
  { d with host := { d.host with sess := SMap.put (fun _ => Session.empty) d.host.sess slot x } }

/-- A message goes where its `src` says; one to this module's own MA reaches its own agent. A host session keeps its last
16 replies (R370). -/
def Dev.sendMsg (d : Dev) (m : TMsg) : Dev :=
  match m.src with
  | .host slot =>
    let x := sessOf d slot.val
    let d := if m.reply then d.setSess slot.val { x with cache := (m :: x.cache).take 16 } else d
    d.send (.tosto m)
  | .client _ => d.send (.tosto m)
  | .fabric ma =>
    if originMa d = some ma then { d with agt := { d.agt with msgs := d.agt.msgs ++ [m] } }
    else d.offer (mgmtPacket true ma ma (fabricBytes m))
  | .relay _ path tag => d.sendRelay path m.reply tag m

/-- The reply to a request: its status and body. -/
def Dev.reply (d : Dev) (m : TMsg) (st : Nat) (body : List Byte) : Dev :=
  d.sendMsg { m with reply := true, status := st, body := body }

/-- A Belfry message that answers another one, or a reply by its own code (R321): it goes back the way the other came. -/
def Dev.answerSt (d : Dev) (m : TMsg) (code st : Nat) (body : List Byte) : Dev :=
  d.sendMsg ⟨(match m.src with | .relay o p t => .relay o p t | x => x), famBelfry, code, true, m.seq, m.rtag, st, body⟩
def Dev.answer (d : Dev) (m : TMsg) (code : Nat) (body : List Byte) : Dev := d.answerSt m code OK body

/-- The manager this agent holds (AGT_MANAGER). -/
def managerMa (d : Dev) : Option Nat :=
  if (d.rd Reg.AGT_MANAGER).testBit 15 then some (bits (d.rd Reg.AGT_MANAGER) 14 0) else none

/-- A bank is LIVE, so that routes exist. -/
def routesExist (d : Dev) : Bool :=
  bits (d.rd Reg.RTB_BANK_STATE) 2 0 == 2 || bits (d.rd Reg.RTB_BANK_STATE) 6 4 == 2

/-- The MA of a message's sender, when it is known. -/
def msgMa (m : TMsg) : Option Nat :=
  match m.src with
  | .fabric ma => some ma
  | .relay o _ _ => o
  | _ => none

end Sys2Proof.Machine
end

