-- ==== Sys2Proof/Machine/Plan.lean ====
section
/-! DEFINITION. The plan (R318, R319): its layout, its checks, and what it expects of positions and links; positions and lines
of the torus (R2, R169). -/

namespace Sys2Proof.Machine

/-! ## Positions -/

/-- A coordinate of an MA: 0 X, 1 Y, 2 Z. -/
def coord (ma a : Nat) : Nat := bits ma (5 * a + 4) (5 * a)
/-- An MA with one coordinate replaced. -/
def withCoord (ma a c : Nat) : Nat := setBits ma (5 * a + 4) (5 * a) c

/-- The MA beyond a port of a position (R169), on axes of the lengths given. -/
def beyond (len : Nat → Nat) (ma p : Nat) : Nat :=
  let a := p / 2
  let c := coord ma a
  withCoord ma a (if p % 2 = 0 then (c + 1) % len a else (c + len a - 1) % len a)

/-- The opposite port of the same axis. -/
def opposite (p : Nat) : Nat := if p % 2 = 0 then p + 1 else p - 1

/-! ## The plan -/

/-- The length of an axis. -/
def Plan.len (x : Plan) (a : Nat) : Nat := if a = 0 then x.lx else if a = 1 then x.ly else x.lz

/-- An MA lies within the axes. -/
def Plan.within (x : Plan) (ma : Nat) : Bool :=
  decide (coord ma 0 < x.lx ∧ coord ma 1 < x.ly ∧ coord ma 2 < x.lz ∧ ma < 2 ^ 15)

/-- The MA of the position at an index. -/
def Plan.maOf (x : Plan) (i : Nat) : Nat := i % x.lx + 32 * (i / x.lx % x.ly) + 1024 * (i / (x.lx * x.ly))

/-- A position's serial and flags; bit 0 EMPTY, bit 1 TRANSIT, bit 2 COMPAT. -/
def Plan.pos (x : Plan) (ma : Nat) : Nat × Nat := SMap.get (fun _ => (0, 0)) x.posns ma
def Plan.empty (x : Plan) (ma : Nat) : Bool := (x.pos ma).2.testBit 0

/-- Every position. -/
def Plan.all (x : Plan) : List Nat := (upFrom 0 (x.lx * x.ly * x.lz)).map x.maOf

/-- The exception that names an end of a link. -/
def Plan.excAt (x : Plan) (ma p : Nat) : Option (Nat × Nat) :=
  (x.excs.find? (fun e => e.1 == ma && e.2.1 == p)).map (fun e => (e.2.2.1, e.2.2.2))

/-- The far end of the link at a port, MA and port: the opposite port of the torus neighbour, or as a PEER exception says, seen from
either of its ends. -/
def Plan.far (x : Plan) (ma p : Nat) : Nat × Nat :=
  match x.excAt ma p with
  | some (4, q) => (beyond x.len ma p, q)
  | _ =>
    match x.excs.find? (fun e => e.2.2.1 == 4 && e.2.2.2 == p && beyond x.len e.1 e.2.1 == ma) with
    | some e => (e.1, e.2.1)
    | none => (beyond x.len ma p, opposite p)

/-- The exception that governs the link at a port: named at this end, or at the far one. -/
def Plan.exc (x : Plan) (ma p : Nat) : Option (Nat × Nat) :=
  match x.excAt ma p with
  | some e => some e
  | none => x.excAt (x.far ma p).1 (x.far ma p).2

/-- The expectation of a port (R319): 0 NONE, 1 REQUIRED, 2 OPTIONAL. -/
def Plan.expect (x : Plan) (ma p : Nat) : Nat :=
  if x.empty ma ∨ x.empty (x.far ma p).1 then 0
  else match x.exc ma p with
    | some (1, _) => 2
    | some (2, _) => 0
    | _ => 1

/-- The least width of a port's link. -/
def Plan.width (x : Plan) (ma p : Nat) : Nat :=
  match x.exc ma p with | some (3, w) => w | _ => x.minWidth

/-- The port of a position that leads to its torus neighbour in a direction. -/
def Plan.portToward (x : Plan) (ma p : Nat) : Nat :=
  let next := beyond x.len ma p
  if (x.far ma p).1 = next then p else ((upFrom 0 6).find? (fun q => (x.far ma q).1 == next)).getD p

/-- A relay path from a position to another, axis by axis, each axis the shorter way round; none from a position to itself. -/
def Plan.pathTo (x : Plan) : Nat → Nat → Nat → List Nat
  | 0, _, _ => []
  | n + 1, ma, t =>
    match [0, 1, 2].find? (fun a => coord t a != coord ma a) with
    | none => []
    | some a =>
      let p := 2 * a + b2n (decide (x.len a < 2 * ((coord t a + x.len a - coord ma a) % x.len a)))
      x.portToward ma p :: Plan.pathTo x n (beyond x.len ma p) t

/-- The candidate of a rank. -/
def Plan.candidate (x : Plan) (rank : Nat) : Option (Nat × Nat × Nat) := x.cands.find? (fun c => c.2.2 == rank)

/-- The rank of a serial, when the plan names it. -/
def Plan.rankOf (x : Plan) (serial : Nat) : Option Nat := (x.cands.find? (fun c => c.1 == serial)).map (·.2.2)

/-- The voters of trio mode: the candidates of rank 0, 1 and 2 (R315). -/
def Plan.voter (x : Plan) (i : Nat) : Nat := match x.candidate i with | some c => c.2.1 | none => 0

/-- Every byte of a list is zero. -/
def allZero (bs : List Byte) : Bool := bs.all (fun b => b == 0)

/-- The checks of the header (R318, R319). -/
def planHeaderOk (bs : List Byte) : Bool :=
  let f (o k : Nat) : Nat := field bs o k
  slice bs 0 4 == [0x4D, 0x42, 0x50, 0x4C] && f 4 2 == 1 && decide (f 6 1 ≤ 1) && decide (f 7 1 ≤ 1) &&
  decide (2 ≤ f 8 1 ∧ f 8 1 ≤ 32 ∧ 2 ≤ f 9 1 ∧ f 9 1 ≤ 32 ∧ 2 ≤ f 10 1 ∧ f 10 1 ≤ 32) &&
  [1, 2, 4, 8, 12, 16, 20, 24].contains (f 11 1) &&
  decide ((if f 6 1 = 1 then 3 else 1) ≤ f 28 1 ∧ f 28 1 ≤ 8) && allZero (slice bs 29 3) &&
  decide (f 32 4 ≤ 98304) && decide (1 ≤ f 36 2 ∧ f 36 2 ≤ 16) && allZero (slice bs 38 26) &&
  bs.length == 64 + 16 * (f 28 1 + f 8 1 * f 9 1 * f 10 1 + f 36 2) + 8 * f 32 4

/-- The plan that well-formed data spells, with the first 16 bytes of the object's DIGEST. -/
def readPlan (digest : Nat) (bs : List Byte) : Plan :=
  let f (o k : Nat) : Nat := field bs o k
  let nc := f 28 1
  let np := f 8 1 * f 9 1 * f 10 1
  let ne := f 32 4
  let p0 := 64 + 16 * nc
  let e0 := p0 + 16 * np
  let d0 := e0 + 8 * ne
  let at_ (i : Nat) : Nat := i % f 8 1 + 32 * (i / f 8 1 % f 9 1) + 1024 * (i / (f 8 1 * f 9 1))
  ⟨f 6 1 == 1, f 7 1 == 1, f 8 1, f 9 1, f 10 1, f 11 1, f 12 8, f 20 8,
    (upFrom 0 nc).map (fun i => (f (64 + 16 * i) 8, f (72 + 16 * i) 2, f (74 + 16 * i) 1)),
    (upFrom 0 np).foldl (fun m i => SMap.put (fun _ => (0, 0)) m (at_ i) (f (p0 + 16 * i) 8, f (p0 + 16 * i + 8) 1)) [],
    (upFrom 0 ne).map (fun i => (f (e0 + 8 * i) 2, f (e0 + 8 * i + 2) 1, f (e0 + 8 * i + 3) 1, f (e0 + 8 * i + 4) 1)),
    (upFrom 0 (f 36 2)).map (fun i => f (d0 + 16 * i) 16), digest⟩

/-- No two exceptions name the same end. -/
def distinctEnds : List (Nat × Nat × Nat × Nat) → Bool
  | [] => true
  | e :: es => !es.any (fun x => x.1 == e.1 && x.2.1 == e.2.1) && distinctEnds es

/-- The checks of R319 on candidates and exceptions. -/
def Plan.ok (x : Plan) : Bool :=
  x.cands.all (fun c => x.within c.2.1 && c.1 != 0 && !x.empty c.2.1 && (x.pos c.2.1).1 == c.1) &&
  x.excs.all (fun e => x.within e.1 && decide (e.2.1 ≤ 5) &&
    (match e.2.2.1 with
      | 1 | 2 => true
      | 3 => [1, 2, 4, 8, 12, 16, 20, 24].contains e.2.2.2
      | 4 => decide (e.2.2.2 ≤ 5)
      | _ => false)) &&
  distinctEnds x.excs

/-- The plan that an object's data spells, unless R319 refuses it. -/
def parsePlan (digest : Nat) (bs : List Byte) : Option Plan :=
  if planHeaderOk bs then (let x := readPlan digest bs; if x.ok then some x else none) else none

/-- A plan becomes the active one (R333): AGT_PLAN_DIGEST, AGT_MODE and, in trio mode, the voters. -/
def Dev.takePlan (d : Dev) (x : Plan) : Dev :=
  let d := (upFrom 0 4).foldl (fun d i => d.wr (Reg.AGT_PLAN_DIGEST0 + 4 * i) (x.digest / 2 ^ (32 * i))) d
  let d := d.wr Reg.AGT_MODE (b2n x.trio)
  let d := if x.trio then
      (d.wr Reg.AGT_VOTER01 (2 ^ 31 + x.voter 1 * 2 ^ 16 + 2 ^ 15 + x.voter 0)).wr Reg.AGT_VOTER2 (2 ^ 15 + x.voter 2)
    else d
  { d with agt := { d.agt with plan := some x } }

/-- Trio mode (AGT_MODE). -/
def trioMode (d : Dev) : Bool := (d.rd Reg.AGT_MODE).testBit 0

/-- The voters: index and MA (R315). -/
def voters (d : Dev) : List (Nat × Nat) :=
  let a := d.rd Reg.AGT_VOTER01
  let b := d.rd Reg.AGT_VOTER2
  (if a.testBit 15 then [(0, bits a 14 0)] else []) ++ (if a.testBit 31 then [(1, bits a 30 16)] else []) ++
    (if b.testBit 15 then [(2, bits b 14 0)] else [])

end Sys2Proof.Machine
end

