-- ==== Sys2Proof/Machine/Cellar.lean ====
section
/-! DEFINITION. The Cellar: ports (R146, R147), page entries (R149-R151), keys and units (R152, R153), rotation, sweep and
retirement (R154-R158). -/

namespace Sys2Proof.Machine

/-! ## Ports -/

/-- The 8-bit field of CEL_PORT_STATE of a port: [2:0] 0 DOWN, 1 TRAINING, 2 ACTIVE, 3 ACTIVE_REDUCED, 4 FAILED. -/
def celPort (d : Dev) (p : Nat) : Nat := bits (d.rd Reg.CEL_PORT_STATE) (8 * p + 2) (8 * p)

/-- A port's state replaced; IDE is kept. -/
def Dev.setCelPort (d : Dev) (p v : Nat) : Dev :=
  d.wr Reg.CEL_PORT_STATE (setBits (d.rd Reg.CEL_PORT_STATE) (8 * p + 2) (8 * p) v)

/-- The port carries accesses. -/
def celUp (d : Dev) (p : Nat) : Bool := celPort d p == 2 || celPort d p == 3

/-- The pages of a port, its journal page included (R148). -/
def celCap (d : Dev) (p : Nat) : Nat := d.rd (Reg.CEL_CAPP + 4 * p)

/-- The largest capacity of a port in whole pages: 2 TB, decimal (R3, R11, R146). -/
def celMax : Nat := 2 * 10 ^ 12 / 2 ^ 21

/-- An expander is found at a reset of kind M or P only (R146): the port of each one starts training, whatever it was, and IDE
is on where it is enabled, under a key drawn for the port. A port without an expander stays DOWN. -/
def Dev.celTrain (d : Dev) : List Nat → Dev
  | [] => d
  | p :: ps =>
    let d := if Config.cellarPages p = 0 then d
      else
        let d := d.setCelPort p 1
        if Config.cellarIde p then
          let d := d.wr Reg.CEL_PORT_STATE (setBit (d.rd Reg.CEL_PORT_STATE) (8 * p + 3))
          { d.used with cel := { d.cel with ide := SMap.put (fun _ => none) d.cel.ide p (some d.fresh) } }
        else d
    Dev.celTrain d ps

/-- PERST_N of a Cellar port is released (R534): it is asserted while the port is DOWN. -/
def celPerstN (d : Dev) (p : Nat) : Bool := d.powered.core && celPort d p != 0

/-- The port fails (R147): FAILED and PORT_FAILED. -/
def Dev.celFail (d : Dev) (p : Nat) : Dev := if celPort d p = 4 then d else (d.setCelPort p 4).raise 0x04C 2

/-! ## Page entries and keys -/

/-- An entry that is all zeros. -/
def CelPage.empty : CelPage := ⟨false, false, false, 0, false, false, false⟩

/-- The entry of page `n` of port `p` (R149). -/
def celPage (d : Dev) (p n : Nat) : CelPage := SMap.get (fun _ => CelPage.empty) d.cel.pages (p * 2 ^ 20 + n)

/-- The entry replaced. -/
def Dev.setCelPage (d : Dev) (p n : Nat) (e : CelPage) : Dev :=
  { d with cel := { d.cel with pages := SMap.put (fun _ => CelPage.empty) d.cel.pages (p * 2 ^ 20 + n) e } }

/-- The word an entry reads as. -/
def CelPage.word (e : CelPage) : Nat :=
  b2n e.valid * 2 ^ 31 + b2n e.epoch * 2 ^ 30 + b2n e.system * 2 ^ 29 + (e.tenant % 512) * 2 ^ 20 +
    b2n e.sweeping * 2 ^ 19 + b2n e.scrubbing * 2 ^ 18

/-- A key state that holds nothing. -/
def CelKey.empty : CelKey := ⟨none, none, false, false, 0⟩

/-- The key state of an owner: a tenant, or SYSTEM. -/
def celKeyOf (d : Dev) (system : Bool) (tenant : Nat) : CelKey :=
  if system then d.cel.sysKey else SMap.get (fun _ => CelKey.empty) d.cel.keys tenant

/-- An owner's key state replaced. -/
def Dev.setCelKey (d : Dev) (system : Bool) (tenant : Nat) (k : CelKey) : Dev :=
  if system then { d with cel := { d.cel with sysKey := k } }
  else { d with cel := { d.cel with keys := SMap.put (fun _ => CelKey.empty) d.cel.keys tenant k } }

/-- The key in a slot. -/
def CelKey.slot (k : CelKey) (e : Bool) : Option Nat := if e then k.key1 else k.key0

/-- A slot replaced. -/
def CelKey.setSlot (k : CelKey) (e : Bool) (v : Option Nat) : CelKey :=
  if e then { k with key1 := v } else { k with key0 := v }

/-- The word CEL_TKEY reads as (R167). -/
def CelKey.word (k : CelKey) : Nat :=
  b2n k.key1.isSome * 2 ^ 31 + b2n k.key0.isSome * 2 ^ 30 + b2n k.cur * 2 ^ 29 + b2n k.rotating * 2 ^ 28 +
    k.count % 2 ^ 23

/-- One page fewer under the previous key. -/
def Dev.sweepCounted (d : Dev) (e : CelPage) : Dev :=
  let k := celKeyOf d e.system e.tenant
  d.setCelKey e.system e.tenant { k with count := k.count - 1 }

/-- A page is valid and encrypted under its owner's previous key. -/
def stale (d : Dev) (e : CelPage) : Bool := e.valid && e.epoch != (celKeyOf d e.system e.tenant).cur

/-- The number of an owner's valid pages whose EPOCH differs from an epoch. -/
def staleCount (pages : SMap CelPage) (system : Bool) (tenant : Nat) (cur : Bool) : Nat :=
  (pages.filter (fun x => x.2.valid && (x.2.system == system) && (system || x.2.tenant == tenant) &&
    x.2.epoch != cur)).length

/-- The start of a rotation (R154): the status and the device. With no stale page the previous slot is retired at once. -/
def Dev.celRotate (d : Dev) (system : Bool) (tenant key : Nat) : Nat × Dev :=
  let k := celKeyOf d system tenant
  if k.rotating then (KEY_BUSY, d)
  else
    let cur := !k.cur
    let n := staleCount d.cel.pages system tenant cur
    let k1 := { k.setSlot cur (some key) with cur := cur, rotating := n != 0, count := n }
    (OK, d.setCelKey system tenant (if n = 0 then k1.setSlot (!cur) none else k1))

/-! ## Units -/

/-- The sweep engine of a port. -/
def Sweep.empty : Sweep := ⟨none, [], none, false⟩
def celSweep (d : Dev) (p : Nat) : Sweep := SMap.get (fun _ => Sweep.empty) d.cel.sweep p
def Dev.setCelSweep (d : Dev) (p : Nat) (x : Sweep) : Dev :=
  { d with cel := { d.cel with sweep := SMap.put (fun _ => Sweep.empty) d.cel.sweep p x } }

/-- CEL_SWEEP of a port: [31] ACTIVE, [30] JOURNALED, [28:9] page, [8:0] UNIT. -/
def sweepReg (d : Dev) (p : Nat) : Nat := d.rd (Reg.CEL_SWEEP + 4 * p)
def Dev.setSweepReg (d : Dev) (p : Nat) (active journaled : Bool) (page unit : Nat) : Dev :=
  d.wr (Reg.CEL_SWEEP + 4 * p) (b2n active * 2 ^ 31 + b2n journaled * 2 ^ 30 + (page % 2 ^ 20) * 2 ^ 9 + unit % 512)

/-- The sweep of a port holds a page. -/
def sweepHolds (d : Dev) (p n : Nat) : Bool := (sweepReg d p).testBit 31 && bits (sweepReg d p) 28 9 == n

/-- The tweak of a unit (R152). -/
def celTweak (p u : Nat) : Nat := p * 2 ^ 29 + u

/-- What a unit that nothing has written holds (log entry 3). -/
def unitDefault (_ : Nat) : CelUnit := .raw []

/-- The unit of a port. -/
def Mem.unit (m : Mem) (p u : Nat) : CelUnit := SMap.get unitDefault m.cel (p * 2 ^ 29 + u)
def Mem.setUnit (m : Mem) (p u : Nat) (x : CelUnit) : Mem :=
  { m with cel := SMap.put unitDefault m.cel (p * 2 ^ 29 + u) x }

/-- Every unit of a range of a port holds undefined contents (R157). -/
def Mem.undefUnits (m : Mem) (p : Nat) : List Nat → Mem
  | [] => m
  | u :: us => Mem.undefUnits (m.setUnit p u .undef) p us

/-- A unit decrypted under a key: its data when it was written under that key and tweak; otherwise free bytes, which the
device then has used (log entry 6). -/
def decryptUnit (d : Dev) (key tweak : Nat) (x : CelUnit) : List Byte × Dev :=
  match x with
  | .enc k t bs => if k = key ∧ t = tweak then (bs, d) else ((upFrom 0 4096).map (freeByte d.free), d.used)
  | _ => ((upFrom 0 4096).map (freeByte d.free), d.used)

/-- A unit re-encrypted from a previous key under a current one. -/
def rekeyUnit (old new tweak : Nat) (x : CelUnit) : CelUnit :=
  match x with
  | .enc k t bs => if k = old ∧ t = tweak then .enc new tweak bs else .undef
  | _ => .undef

/-- A failed access is counted. DESIGN CHOICE (log entry 239): R143 has the CEL page record its address too, and R167 gives the page no
register for one, so none is recorded. -/
def Dev.celUE (d : Dev) : Dev := d.count Reg.CEL_UE_COUNT

/-- The entry's check on read (R149, R168): true when it reads back uncorrectable. -/
def Dev.readEntry (d : Dev) (p n : Nat) (err : CelErr) : Bool × Dev :=
  let inj := d.armedFirst 0x04C [3, 4]
  let d := match inj with | some i => d.disarm 0x04C i | none => d
  let e := celPage d p n
  if e.bad then (true, d)
  else if inj = some 4 ∨ err = .ptUE then (true, (d.setCelPage p n { e with bad := true }).raise 0x04C 4)
  else if inj = some 3 ∨ err = .ptCE then (false, d.raise 0x04C 3)
  else (false, d)

/-- A read of an entry through slot 4: its checker sees it as it sees the copies' reads (R149, R168). -/
def Dev.entryRead4 (d : Dev) (i : Nat) : Bool × Dev :=
  if celCap d (i / 2 ^ 20) ≤ i % 2 ^ 20 then (true, d)
  else let r := d.readEntry (i / 2 ^ 20) (i % 2 ^ 20) .clean; (!r.1, r.2)

/-- What the port, the page entry and the keys say to one unit access, with the slot it uses (R147, R151, R153). DESIGN CHOICE
(log entry 206): of a page that a whole-page write has made current while the sweep still holds it, a unit at or above the
pointer is read with the current key. -/
def Dev.celCheck (d : Dev) (p u : Nat) (user : MemUser) (write : Bool) (err : CelErr) : Nat × Option Nat × Dev :=
  let n := u / 512
  if celCap d p ≤ n then (NO_PAGE, none, d)
  else if ¬ celUp d p then (CELLAR_UE, none, d.celUE)
  else
    let r := d.readEntry p n err
    let d := r.2
    let e := celPage d p n
    if r.1 then (CELLAR_UE, none, d.celUE)
    else if n + 1 = celCap d p ∨ ¬ (e.valid ∧ ((e.system ∧ user.system) ∨ (¬ e.system ∧ ¬ user.system ∧ e.tenant = user.tenant))) then
      (CELLAR_FAULT, none, ((d.count Reg.CEL_FAULT_COUNT).wr Reg.CEL_LAST_FAULT
        (2 ^ 31 + p * 2 ^ 29 + (n % 2 ^ 20) * 2 ^ 9 + user.tenant % 512)).raise 0x04C 7)
    else
      let k := celKeyOf d e.system e.tenant
      let slot := if write then k.cur
        else if sweepHolds d p n ∧ e.epoch ≠ k.cur then
          (if u % 512 < bits (sweepReg d p) 8 0 then k.cur else !k.cur)
        else e.epoch
      match k.slot slot with
      | none => (KEY_ABSENT, none, d)
      | some key =>
        match err with
        | .poison => if write then (OK, some key, d) else (CELLAR_UE, none, (d.celUE).raise 0x04C 0)
        | .ide => (CELLAR_UE, none, ((d.celUE).raise 0x04C 0).celFail p)
        | _ => (OK, some key, d)

/-- A read of one unit: status, data, device. -/
def celRead (s : State) (p u : Nat) (user : MemUser) (err : CelErr) : Nat × List Byte × Dev :=
  let r := s.dev.celCheck p u user false err
  match r.2.1 with
  | none => (r.1, [], r.2.2)
  | some key =>
    let x := decryptUnit r.2.2 key (celTweak p u) (s.mem.unit p u)
    (OK, x.1, x.2)

/-- A write that begins on a whole, aligned page makes the page current at once (R156). -/
def Dev.wholePage (d : Dev) (p n : Nat) : Dev :=
  let e := celPage d p n
  if stale d e then (d.setCelPage p n { e with epoch := !e.epoch }).sweepCounted e else d

/-- A write of part of a stale page makes that page the sweep's next (R156). -/
def Dev.promote (d : Dev) (p n : Nat) : Dev :=
  let x := celSweep d p
  if sweepHolds d p n ∨ x.next.contains n then d else d.setCelSweep p { x with next := x.next ++ [n] }

/-! ## Commands of the ports -/

/-- A Cellar request exceeds its timeout (R147); the copy it belonged to fails with TIMEOUT, and the third timeout of the
port in the measure fails the port, as does every one after it. -/
def Dev.cxlTimeout (d : Dev) (p : Nat) : Dev :=
  let n := SMap.get (fun _ => 0) d.cel.timeouts p + 1
  let d := (d.count Reg.CEL_TIMEOUT_COUNT).raise 0x04C 1
  let d := { d with cel := { d.cel with timeouts := SMap.put (fun _ => 0) d.cel.timeouts p n } }
  if 3 ≤ n then d.celFail p else d

/-- A write of CEL_CTRL.RETRAIN: each named FAILED port returns to training (R147). -/
def Dev.celRetrain (d : Dev) (mask : Nat) : List Nat → Dev
  | [] => d
  | p :: ps => Dev.celRetrain (if mask.testBit p ∧ celPort d p = 4 then d.setCelPort p 1 else d) mask ps

/-- The effect of a write of CEL_CTRL. -/
def celCtrlEffect (v : Nat) (s : State) : Nat × State := (OK, s.onDev (fun d => d.celRetrain v [0, 1, 2, 3]))

/-- RETRAIN. -/
def execRetrain (master : Byte) (mask : BitVec 4) (s : State) : Host.Outcome State Fault Refusal :=
  done (mgmtWrite master.toNat (mAddr (rkey 0x04C 0x010)) 32 mask.toNat (celCtrlEffect mask.toNat) s)

/-- The sweep that a reset of kind M interrupted resumes (R159): a journaled unit is rebuilt from the journal. -/
def resumeSweep (s : State) (p : Nat) : State :=
  let x := celSweep s.dev p
  let r := sweepReg s.dev p
  if x.resume ∧ r.testBit 31 then
    let n := bits r 28 9
    let u := n * 512 + bits r 8 0
    let e := celPage s.dev p n
    let k := celKeyOf s.dev e.system e.tenant
    let d := (s.dev.setCelSweep p { x with resume := false, staging := if r.testBit 30 then x.journal else none }).raise 0x04C 5
    match r.testBit 30, x.journal, k.slot (!k.cur), k.slot k.cur with
    | true, some j, some old, some new =>
      { s with mem := s.mem.setUnit p u (rekeyUnit old new (celTweak p u) j), dev := d }
    | _, _, _, _ => { s with dev := d }
  else s

/-- A Cellar port's training ends (R146): ACTIVE or ACTIVE_REDUCED, its capacity known, its interrupted sweep resumed; or FAILED
(R502). -/
def execCelPortTrained (p : Fin 4) (how : CelTrained) (s : State) : Host.Outcome State Fault Refusal :=
  if celPort s.dev p.val = 1 ∧ s.dev.powered.core ∧ ¬ s.dev.cxlStopped p.val then
    if how = .failed then doneDev s (fun d => d.celFail p.val)
    else done (resumeSweep (s.onDev (fun d =>
      (d.setCelPort p.val (if how = .reduced then 3 else 2)).wr (Reg.CEL_CAPP + 4 * p.val)
        (min (Config.cellarPages p.val) celMax))) p.val)
  else done s

/-! ## Commands of the page table -/

/-- The sweep lets go of a page that was released or became current (R156, R158). -/
def Dev.sweepDrop (d : Dev) (p n : Nat) : Dev :=
  let x := celSweep d p
  let d := d.setCelSweep p { x with next := x.next.filter (fun m => m != n), staging := if sweepHolds d p n then none else x.staging }
  if sweepHolds d p n then d.setSweepReg p false false 0 0 else d

/-- The effect of a write of one page entry (R150). -/
def Dev.celEntryWrite (d : Dev) (p n v : Nat) : Nat × Dev :=
  let e := celPage d p n
  let sys := v.testBit 29
  let ten := bits v 28 20
  if celCap d p ≤ n then (OK, d)
  else if n + 1 = celCap d p then (OUT_OF_RANGE, d)
  else if v.testBit 31 then
    if e.scrubbing then (OUT_OF_RANGE, d)
    else if e.valid then
      if e.system = sys ∧ (sys ∨ e.tenant = ten) then (OK, d.setCelPage p n { e with tenant := ten, bad := false })
      else (OUT_OF_RANGE, d)
    else (OK, d.setCelPage p n ⟨true, (celKeyOf d sys ten).cur, sys, ten, false, false, false⟩)
  else
    let d := if stale d e then d.sweepCounted e else d
    (OK, (d.sweepDrop p n).setCelPage p n ⟨false, e.epoch, sys, ten, false, true, false⟩)

/-- The address of entry `p`, `n` in slot 4 (R149). -/
def celEntryAddr (p n : Nat) : Nat := 0x0240000000 + 4 * (p * 2 ^ 20 + n)

/-- CEL_PAGE_GIVE. -/
def execCelPageGive (master : Byte) (p : Fin 4) (n : BitVec 20) (system : Bool) (tenant : Fin 512) (s : State) :
    Host.Outcome State Fault Refusal :=
  let v := 2 ^ 31 + b2n system * 2 ^ 29 + tenant.val * 2 ^ 20
  done (mgmtWrite master.toNat (celEntryAddr p.val n.toNat) 32 v
    (devEffect (fun d => d.celEntryWrite p.val n.toNat v)) s)

/-- CEL_PAGE_RELEASE. -/
def execCelPageRelease (master : Byte) (p : Fin 4) (n : BitVec 20) (s : State) : Host.Outcome State Fault Refusal :=
  done (mgmtWrite master.toNat (celEntryAddr p.val n.toNat) 32 0
    (devEffect (fun d => d.celEntryWrite p.val n.toNat 0)) s)

/-- The expander acknowledges the last zero write of a released page (R150). -/
def execCelReleaseFillDone (p : Fin 4) (n : BitVec 20) (s : State) : Host.Outcome State Fault Refusal :=
  let e := celPage s.dev p.val n.toNat
  if e.scrubbing ∧ celUp s.dev p.val ∧ ¬ s.dev.cxlStopped p.val then
    let lo := p.val * 2 ^ 29 + n.toNat * 512
    done { s with
      mem := { s.mem with cel := SMap.erase (fun k => decide (lo ≤ k ∧ k < lo + 512)) s.mem.cel }
      dev := s.dev.setCelPage p.val n.toNat { e with scrubbing := false } }
  else done s

/-! ## Commands of the sweep -/

/-- The page the sweep of a port takes next: a promoted one, else the lowest stale page of a rotating owner (R155, R156). One
whose entry is uncorrectable waits until software writes the entry again (R151). -/
def sweepPick (d : Dev) (p : Nat) : Option Nat :=
  match (celSweep d p).next.find? (fun n => stale d (celPage d p n) && !(celPage d p n).bad) with
  | some n => some n
  | none =>
    (d.cel.pages.find? (fun x => decide (x.1 / 2 ^ 20 = p) && stale d x.2 && !x.2.bad &&
      (celKeyOf d x.2.system x.2.tenant).rotating)).map (fun x => x.1 % 2 ^ 20)

/-- The sweep engine of a port takes its next page when it holds none: the page's entry is read, and one that reads back
uncorrectable is not taken (R151, R155). -/
def Dev.sweepTake (d : Dev) (p : Nat) (err : CelErr) : Dev :=
  if (sweepReg d p).testBit 31 then d
  else match sweepPick d p with
    | none => d
    | some n =>
      let r := d.readEntry p n err
      let d := r.2
      if r.1 then d.celUE
      else
        ((d.setSweepReg p true false n 0).setCelPage p n { celPage d p n with sweeping := true }).setCelSweep p
          { celSweep d p with next := (celSweep d p).next.filter (fun m => m != n) }

/-- The sweep of a port lets go of a page that a whole-page write has made current before the sweep has read the unit it stands at
(R156). -/
def Dev.sweepRelease (d : Dev) (p : Nat) : Dev :=
  let r := sweepReg d p
  let n := bits r 28 9
  let e := celPage d p n
  if r.testBit 31 ∧ ¬ r.testBit 30 ∧ (celSweep d p).staging = none ∧ ¬ stale d e then
    (d.setCelPage p n { e with sweeping := false }).setSweepReg p false false 0 0
  else d

/-- The sweep engine has read a unit's ciphertext and writes it to the journal page (R155 steps 1 and 2). A poisoned response or
a failed IDE check delivers nothing (R143); the sweep then reads the unit again (log entry 207). -/
def execSweepUnitRead (p : SweepRead) (s : State) : Host.Outcome State Fault Refusal :=
  let err := p.err
  let p := p.port.val
  if ¬ celUp s.dev p ∨ s.dev.cxlStopped p then done s
  else
    let d := (s.dev.sweepRelease p).sweepTake p err
    let r := sweepReg d p
    if r.testBit 31 ∧ ¬ r.testBit 30 then
      if err = .poison then done { s with dev := d.celUE.raise 0x04C 0 }
      else if err = .ide then done { s with dev := (d.celUE.raise 0x04C 0).celFail p }
      else
        let x := s.mem.unit p (bits r 28 9 * 512 + bits r 8 0)
        done { s with dev := d.setCelSweep p { celSweep d p with staging := some x, journal := some x } }
    else done { s with dev := d }

/-- The journal write is acknowledged; the unit is re-encrypted under the current key and written back (R155 steps 2 and
3). A unit a copy has written meanwhile stands. -/
def execSweepJournalAck (p : Fin 4) (s : State) : Host.Outcome State Fault Refusal :=
  let p := p.val
  let r := sweepReg s.dev p
  let n := bits r 28 9
  let u := n * 512 + bits r 8 0
  let e := celPage s.dev p n
  let k := celKeyOf s.dev e.system e.tenant
  match r.testBit 31 && !r.testBit 30 && celUp s.dev p && !s.dev.cxlStopped p, (celSweep s.dev p).staging with
  | true, some x =>
    let d := s.dev.setSweepReg p true true n (bits r 8 0)
    match k.slot (!k.cur), k.slot k.cur with
    | some old, some new =>
      if s.mem.unit p u = x then
        done { s with mem := s.mem.setUnit p u (rekeyUnit old new (celTweak p u) x), dev := d }
      else done { s with dev := d }
    | _, _ => done { s with dev := d }
  | _, _ => done s

/-- The re-keyed unit is acknowledged: the pointer advances, and after the last unit the page is current (R155 step 4). A
page that a whole-page write made current is released after the unit (R156). -/
def execSweepUnitDone (p : Fin 4) (s : State) : Host.Outcome State Fault Refusal :=
  doneDev s (fun d =>
    let p := p.val
    let r := sweepReg d p
    let n := bits r 28 9
    let u := bits r 8 0
    let e := celPage d p n
    if r.testBit 31 ∧ r.testBit 30 ∧ celUp d p ∧ ¬ d.cxlStopped p then
      let d := d.setCelSweep p { celSweep d p with staging := none }
      if ¬ stale d e then
        (d.setCelPage p n { e with sweeping := false }).setSweepReg p false false 0 0
      else if u = 511 then
        ((d.setCelPage p n { e with sweeping := false, epoch := !e.epoch }).sweepCounted e).setSweepReg p false false 0 0
      else d.setSweepReg p true false n (u + 1)
    else d)

/-- The previous slot of a rotated owner is zeroised when no page is left under it (R158); no tenant means SYSTEM. -/
def execSlotRetire (tenant : Option (Fin 512)) (s : State) : Host.Outcome State Fault Refusal :=
  doneDev s (fun d =>
    let sys := tenant.isNone
    let t := match tenant with | some t => t.val | none => 0
    let k := celKeyOf d sys t
    if k.rotating ∧ k.count = 0 then
      d.setCelKey sys t { k.setSlot (!k.cur) none with rotating := false }
    else d)

end Sys2Proof.Machine
end

