-- ==== Sys2Proof/Machine/Copy.lean ====
section
/-! DEFINITION. The copy engines (R160-R162): descriptors, their checks, the movement of data by lines and Cellar units,
and the ends of a copy. -/

namespace Sys2Proof.Machine

/-! ## Engines and descriptors -/

/-- An engine that nothing has used. -/
def CopyEng.empty : CopyEng := ⟨[], false, 0, none, none, none⟩

/-- Engine `n`. -/
def copyEng (d : Dev) (n : Nat) : CopyEng := SMap.get (fun _ => CopyEng.empty) d.cel.eng n
def Dev.setCopyEng (d : Dev) (n : Nat) (x : CopyEng) : Dev :=
  { d with cel := { d.cel with eng := SMap.put (fun _ => CopyEng.empty) d.cel.eng n x } }

/-- The register at `off` of engine `n`. -/
def ceKey (off n : Nat) : Nat := off + 0x10 * n

/-- What every access of an engine carries (R160). -/
def ceUser (d : Dev) (n : Nat) : MemUser :=
  let v := d.rd (ceKey Reg.CEL_CE_TENANT n)
  ⟨bits v 8 0, v.testBit 9, false, 15⟩

/-- Word `i` of a descriptor. -/
def CopyOp.word (op : CopyOp) (i : Nat) : Nat := listAt 0 op.words i

/-- The fields of a descriptor (R160). -/
def CopyOp.code (op : CopyOp) : Nat := bits (op.word 0) 31 28
def CopyOp.src (op : CopyOp) : Nat := op.word 2 + bits (op.word 3) 15 0 * 2 ^ 32
def CopyOp.dst (op : CopyOp) : Nat := op.word 4 + bits (op.word 5) 15 0 * 2 ^ 32
def CopyOp.idx (op : CopyOp) : Nat := op.word 8 + bits (op.word 9) 15 0 * 2 ^ 32
def CopyOp.rows (op : CopyOp) : Nat := bits (op.word 6) 23 0
def CopyOp.rowBytes (op : CopyOp) : Nat := op.word 7
def CopyOp.pitch (op : CopyOp) : Nat := bits (op.word 10) 31 16 * 64
/-- The bytes the destination takes. -/
def CopyOp.total (op : CopyOp) : Nat := if op.code = 2 then op.rows * op.rowBytes else op.word 1

/-- The Cellar port whose range holds an address (R138). -/
def cellarPort (a : Nat) : Option Nat :=
  if 0x800000000000 ≤ a ∧ a < 0x880000000000 then some ((a - 0x800000000000) / 2 ^ 41) else none

/-- The unit of a Cellar address within its port. -/
def cellarUnit (a : Nat) : Nat := ((a - 0x800000000000) % 2 ^ 41) / 4096

/-- A range crosses the end of a wing, a Cellar port or the map (R161). -/
def crosses (d : Dev) (a n : Nat) : Bool :=
  decide (0 < n) &&
  (decide (2 ^ 48 < a + n) ||
    (match cellarPort a with
      | some p => decide ((a - 0x800000000000) % 2 ^ 41 < celCap d p * 2 ^ 21 ∧
          celCap d p * 2 ^ 21 < (a - 0x800000000000) % 2 ^ 41 + n)
      | none => decide (a / 2 ^ 34 < 8 ∧ a % 2 ^ 34 < gdSize) && (gdWing a n).isNone))

/-- The checks of R161. DESIGN CHOICE (log entry 240): the reserved bits are those of word 0, bits [31:16] of words 3 and 5 and words 11 to
14 under every OP, and [31:24] of word 6, [31:16] of word 9 and [15:0] of word 10 under GATHER, whose fields alone stand there. -/
def copyInvalid (d : Dev) (op : CopyOp) : Bool :=
  let g := op.code = 2
  !(op.code == 1 || op.code == 2 || op.code == 3) ||
  bits (op.word 0) 27 10 != 0 || (op.word 0).testBit 8 ||
  bits (op.word 3) 31 16 != 0 || bits (op.word 5) 31 16 != 0 ||
  (decide g && (bits (op.word 6) 31 24 != 0 || bits (op.word 9) 31 16 != 0 || bits (op.word 10) 15 0 != 0)) ||
  [11, 12, 13, 14].any (fun i => op.word i != 0) ||
  op.dst % 64 != 0 || (op.code != 3 && op.src % 64 != 0) ||
  (decide g && (op.idx % 64 != 0 || op.rowBytes % 64 != 0)) || (!decide g && op.word 1 % 64 != 0) ||
  crosses d op.dst op.total || (op.code == 1 && crosses d op.src op.total) ||
  (decide g && crosses d op.idx (4 * op.rows)) ||
  ((cellarPort op.dst).isSome && (op.dst % 4096 != 0 || op.total % 4096 != 0)) ||
  (op.code == 1 && (cellarPort op.src).isSome && (op.src % 4096 != 0 || op.total % 4096 != 0)) ||
  (op.code == 1 && overlap op.src op.total op.dst op.total) ||
  (decide g && overlap op.idx (4 * op.rows) op.dst op.total)

/-! ## Movement -/

/-- The status word of a descriptor (R160). -/
def CopyOp.statusWord (op : CopyOp) (st : Nat) : Nat := 2 ^ 31 + bits (op.word 0) 7 0 * 2 ^ 8 + st

/-- The 64 source bytes at an offset of the destination (R160): status, bytes, device. A row of a GATHER that lies outside GDDR7,
or that shares bytes with the destination, fails the copy when the engine reaches it (R161; log entry 208). -/
def copyLine (s : State) (op : CopyOp) (u : MemUser) (off : Nat) : Nat × List Byte × Dev :=
  if op.code = 3 then
    (OK, (List.replicate 16 (leBytes 4 (op.word 6))).flatten, s.dev)
  else if op.code = 1 then
    let r := gdRead s.dev u (op.src + off) 64
    (r.1, s.mem.bytes (op.src + off) 64, r.2)
  else
    let i := off / op.rowBytes
    let r := gdRead s.dev u (op.idx + 4 * i) 4
    if r.1 ≠ OK then (r.1, [], r.2)
    else
      let a := op.src + ofLE (s.mem.bytes (op.idx + 4 * i) 4) * op.pitch
      if (gdWing a op.rowBytes).isNone ∨ overlap a op.rowBytes op.dst op.total then (COPY_INVALID, [], r.2)
      else
        let q := gdRead r.2 u (a + off % op.rowBytes) 64
        (q.1, s.mem.bytes (a + off % op.rowBytes) 64, q.2)

/-- `n` source lines from an offset, joined. -/
def copyLines (s : State) (op : CopyOp) (u : MemUser) : Nat → Nat → Nat × List Byte × State
  | 0, _ => (OK, [], s)
  | n + 1, off =>
    let r := copyLine s op u off
    let s := { s with dev := r.2.2 }
    if r.1 ≠ OK then (r.1, [], s)
    else
      let q := copyLines s op u n (off + 64)
      (q.1, r.2.1 ++ q.2.1, q.2.2)

/-- `n` lines moved from an offset when both sides are GDDR7 (or a fill): status, lines' end, state. -/
def copyMove (s : State) (op : CopyOp) (u : MemUser) : Nat → Nat → Nat × State
  | 0, _ => (OK, s)
  | n + 1, off =>
    let r := copyLine s op u off
    let s := { s with dev := r.2.2 }
    if r.1 ≠ OK then (r.1, s)
    else
      let w := gdWrite s u (op.dst + off) r.2.1
      if w.1 ≠ OK then w else copyMove w.2 op u n (off + 64)

/-- The bytes of a unit written to GDDR7 by lines. -/
def storeLines (s : State) (u : MemUser) (a : Nat) : Nat → List Byte → Nat × State
  | 0, _ => (OK, s)
  | n + 1, bs =>
    let w := gdWrite s u a (bs.take 64)
    if w.1 ≠ OK then w else storeLines w.2 u (a + 64) n (bs.drop 64)

/-- The head of an engine leaves the queue and the engine is free for the next. -/
def Dev.copyPop (d : Dev) (n : Nat) : Dev := d.setCopyEng n ⟨(copyEng d n).queue.tail, false, 0, none, none, none⟩

/-- The end of a copy (R162): word 15 is written, DONE advances, and the doorbell rings when asked; a failed write of word
15 raises COPY_FAULT. -/
def copyEnd (s : State) (n : Nat) (op : CopyOp) (st : Nat) (ring : Bool) : State :=
  let w := gdWrite s (ceUser s.dev n) (op.addr + 60) (leBytes 4 (op.statusWord st))
  w.2.onDev (fun d =>
    let d := if w.1 ≠ OK then d.raise 0x04C 6 else d
    let d := (d.bump (ceKey Reg.CEL_CE_DONE n)).copyPop n
    if ring ∧ (op.word 0).testBit 9 then d.notify (ceKey Reg.CEL_CE_NOTIFY n) else d)

/-- The running copy of an engine fails with a status. -/
def Dev.copyFail (d : Dev) (n st : Nat) : Dev :=
  let e := copyEng d n
  if e.running ∧ e.failed = none then d.setCopyEng n { e with failed := some st } else d

/-! ## Commands -/

/-- The words a list of bytes spells. -/
def wordsOf (bs : List Byte) : Nat → List Nat
  | 0 => []
  | n + 1 => field bs 0 4 :: wordsOf (bs.drop 4) n

/-- The effect of a write of CEL_CEn_SUBMIT (R160): the 64 bytes are read before the write completes. DESIGN CHOICE (log entry
209): the descriptor that runs counts among the 16 of the queue. -/
def copySubmitEffect (n v : Nat) (s : State) : Nat × State :=
  let e := copyEng s.dev n
  if 16 ≤ e.queue.length then (QUEUE_FULL, s)
  else
    let a := v * 64
    let r := gdRead s.dev (ceUser s.dev n) a 64
    if r.1 ≠ OK then (r.1, { s with dev := r.2 })
    else
      let e := copyEng r.2 n
      let e := { e with queue := e.queue ++ [⟨wordsOf (s.mem.bytes a 64) 16, a⟩] }
      (OK, { s with dev := r.2.setCopyEng n e })

/-- COPY_SUBMIT. -/
def execCopySubmit (master : Byte) (n : Fin 8) (value : Word) (s : State) : Host.Outcome State Fault Refusal :=
  done (mgmtWrite master.toNat (mAddr (ceKey Reg.CEL_CE_SUBMIT n.val)) 32 value.toNat
    (copySubmitEffect n.val value.toNat) s)

/-- The effect of a write of CEL_CEn_TENANT (R160). -/
def ceTenantEffect (master n v : Nat) (s : State) : Nat × State :=
  if (copyEng s.dev n).queue ≠ [] then (OUT_OF_RANGE, s)
  else plainEffect master (ceKey Reg.CEL_CE_TENANT n) v s

/-- CEL_CE_TENANT_WRITE. -/
def execCelCeTenantWrite (master : Byte) (n : Fin 8) (value : Word) (s : State) : Host.Outcome State Fault Refusal :=
  done (mgmtWrite master.toNat (mAddr (ceKey Reg.CEL_CE_TENANT n.val)) 32 value.toNat
    (ceTenantEffect master.toNat n.val value.toNat) s)

/-- The memory that an engine's copy reaches does not answer (R38, R133). -/
def copyWaits (s : State) (n : Nat) (op : CopyOp) : Bool :=
  let d := s.dev
  let u := ceUser d n
  let rowAt (i : Nat) : Nat := op.src + ofLE (s.mem.bytes (op.idx + 4 * i) 4) * op.pitch
  d.stopped.contains .hall ||
  ((cellarPort op.dst).isNone && gdWaits d u op.dst op.total) ||
  (op.code == 1 && (cellarPort op.src).isNone && gdWaits d u op.src op.total) ||
  (op.code == 2 && (gdWaits d u op.idx (4 * op.rows) || (upFrom 0 op.rows).any (fun i => gdWaits d u (rowAt i) op.rowBytes)))

/-- An engine takes its next descriptor (R161). A copy between GDDR7 ranges moves its lines now; one with a Cellar side moves
them by CELLAR_UNIT_ACCESS. DESIGN CHOICE (log entry 210): a GATHER of rows of no bytes ends with OK, as one of no rows. -/
def execCopyStart (n : Fin 8) (s : State) : Host.Outcome State Fault Refusal :=
  let n := n.val
  let e := copyEng s.dev n
  match e.running, e.queue with
  | false, op :: _ =>
    if copyWaits s n op ∨ gdWaits s.dev (ceUser s.dev n) op.addr 64 then done s
    else if copyInvalid s.dev op then done (copyEnd s n op COPY_INVALID false)
    else if op.total = 0 then done (copyEnd s n op OK true)
    else
      let s := s.onDev (fun d => d.setCopyEng n { e with running := true })
      if (cellarPort op.dst).isSome ∨ (op.code = 1 ∧ (cellarPort op.src).isSome) then done s
      else
        let r := copyMove s op (ceUser s.dev n) (op.total / 64) 0
        done (r.2.onDev (fun d =>
          if r.1 = OK then d.setCopyEng n { copyEng d n with moved := op.total } else d.copyFail n r.1))
  | _, _ => done s

/-- Whether a page of a port lies wholly in a range of Cellar addresses. -/
def wholeIn (a len n : Nat) : Bool :=
  let o := (a - 0x800000000000) % 2 ^ 41
  decide (o ≤ n * 2 ^ 21 ∧ (n + 1) * 2 ^ 21 ≤ o + len)

/-- What the write of a unit is allowed under: what its check gave when it began, where it waits since (R150), else the check (R147,
R151). -/
def copyGrant (d : Dev) (n p u : Nat) (err : CelErr) : Nat × Option Nat × Dev :=
  match (copyEng d n).granted with
  | some key => if celUp d p then (OK, some key, d) else (CELLAR_UE, none, d.celUE)
  | none => d.celCheck p u (ceUser d n) true err

/-- The write of the unit that an engine holds (R151, R156): it is checked first; allowed, one to a stale page waits for the sweep
unless it is the first of a copy's writes to a page that the copy covers whole. -/
def copyUnitWrite (s : State) (n : Nat) (op : CopyOp) (p : Nat) (data : List Byte) (err : CelErr) : State :=
  let e := copyEng s.dev n
  let u := cellarUnit (op.dst + e.moved)
  let pg := u / 512
  let r := copyGrant s.dev n p u err
  let d := r.2.2
  match r.2.1 with
  | none => { s with dev := d.copyFail n r.1 }
  | some key =>
    if stale d (celPage d p pg) ∧ ¬ (wholeIn op.dst op.total pg ∧ u % 512 = 0) then
      { s with dev := (d.promote p pg).setCopyEng n { e with staging := some data, granted := some key } }
    else
      { s with
        mem := s.mem.setUnit p u (.enc key (celTweak p u) data)
        dev := (d.wholePage p pg).setCopyEng n { e with moved := e.moved + 4096, staging := none, granted := none } }

/-- A Cellar port that a copy uses has its island stopped (R38). -/
def portsStopped (d : Dev) (op : CopyOp) : Bool :=
  (match cellarPort op.dst with | some p => d.cxlStopped p | none => false) ||
  (op.code == 1 && (match cellarPort op.src with | some p => d.cxlStopped p | none => false))

/-- The next unit access of an engine's running copy (R151): a read, or the write of what was read. -/
def execCellarUnitAccess (n : Fin 8) (err : CelErr) (s : State) : Host.Outcome State Fault Refusal :=
  let n := n.val
  let e := copyEng s.dev n
  match e.running && e.failed.isNone, e.queue with
  | true, op :: _ =>
    if op.total ≤ e.moved ∨ portsStopped s.dev op ∨ copyWaits s n op then done s
    else
    let u := ceUser s.dev n
    match cellarPort op.dst, (if op.code = 1 then cellarPort op.src else none), e.staging with
    | some p, _, some data => done (copyUnitWrite s n op p data err)
    | dp, some q, none =>
      let r := celRead s q (cellarUnit (op.src + e.moved)) u err
      let s := { s with dev := r.2.2 }
      if r.1 ≠ OK then doneDev s (fun d => d.copyFail n r.1)
      else
        match dp with
        | some _ => doneDev s (fun d => d.setCopyEng n { e with staging := some r.2.1 })
        | none =>
          let w := storeLines s u (op.dst + e.moved) 64 r.2.1
          done (w.2.onDev (fun d =>
            if w.1 = OK then d.setCopyEng n { copyEng d n with moved := e.moved + 4096 } else d.copyFail n w.1))
    | some p, none, none =>
      let r := copyLines s op u 64 e.moved
      if r.1 ≠ OK then doneDev r.2.2 (fun d => d.copyFail n r.1)
      else done (copyUnitWrite r.2.2 n op p r.2.1 err)
    | none, _, _ => done s
  | _, _ => done s

/-- CXL_TIMEOUT, with the copy engine whose request it was. -/
def execCxlTimeout (p : Fin 4) (eng : Option (Fin 8)) (s : State) : Host.Outcome State Fault Refusal :=
  doneDev s (fun d =>
    let d := d.cxlTimeout p.val
    match eng with
    | some n => d.copyFail n.val TIMEOUT
    | none => d)

/-- Every write of the running copy is acknowledged (R162). -/
def execCopyComplete (n : Fin 8) (s : State) : Host.Outcome State Fault Refusal :=
  let e := copyEng s.dev n.val
  match e.running && e.failed.isNone, e.queue with
  | true, op :: _ =>
    if op.total ≤ e.moved ∧ ¬ gdWaits s.dev (ceUser s.dev n.val) op.addr 64 then done (copyEnd s n.val op OK true) else done s
  | _, _ => done s

/-- The Cellar units a failed copy has written are undefined (R157). -/
def copyUndef (s : State) (op : CopyOp) (e : CopyEng) : State :=
  match e.failed, cellarPort op.dst with
  | some _, some p => { s with mem := s.mem.undefUnits p (upFrom (cellarUnit op.dst) (e.moved / 4096)) }
  | _, _ => s

/-- A failed copy's issued requests have ended (R162): its status is written, and what it wrote of the Cellar is undefined
(R157). -/
def execCopyFailDone (n : Fin 8) (s : State) : Host.Outcome State Fault Refusal :=
  let e := copyEng s.dev n.val
  match e.running, e.failed, e.queue with
  | true, some st, op :: _ =>
    if gdWaits s.dev (ceUser s.dev n.val) op.addr 64 then done s else done (copyEnd (copyUndef s op e) n.val op st false)
  | _, _, _ => done s

/-- The write of word 15 fails for a cause outside the memory's own checks (R162): the copy, whose writes are acknowledged or
which has failed, ends all the same. -/
def execCopyFault (n : Fin 8) (s : State) : Host.Outcome State Fault Refusal :=
  let e := copyEng s.dev n.val
  match e.running, e.queue with
  | true, op :: _ =>
    if op.total ≤ e.moved ∨ e.failed.isSome then
      doneDev (copyUndef s op e) (fun d =>
        let d := ((d.raise 0x04C 6).bump (ceKey Reg.CEL_CE_DONE n.val)).copyPop n.val
        if e.failed.isNone ∧ (op.word 0).testBit 9 then d.notify (ceKey Reg.CEL_CE_NOTIFY n.val) else d)
    else done s
  | _, _ => done s

end Sys2Proof.Machine
end

