-- ==== Sys2Proof/Machine/Agent.lean ====
section
/-! DEFINITION. The agent's discovery state: agreement of the ports with the plan (R325), the transitions of R324 and the
READY_CHANGE they send. -/

namespace Sys2Proof.Machine

/-! ## States -/

abbrev agBoot : Nat := 0
abbrev agUnaddressed : Nat := 1
abbrev agAddressed : Nat := 2
abbrev agReady : Nat := 3
abbrev agNotReady : Nat := 4
abbrev agExcluded : Nat := 5
abbrev agFailed : Nat := 6

/-- AGT_STATE.STATE. -/
def agtSt (d : Dev) : Nat := bits (d.rd Reg.AGT_STATE) 3 0
def Dev.setAgtSt (d : Dev) (v : Nat) : Dev := d.wr Reg.AGT_STATE (setBits (d.rd Reg.AGT_STATE) 3 0 v)

/-- The expectation of a port (AGT_PORT_PLAN.EXPECT). -/
def portExpect (d : Dev) (p : Nat) : Nat := bits (d.rd Reg.AGT_PORT_PLAN) (2 * p + 1) (2 * p)

/-- A port in a state agrees with its expectation (R325); a port in HOLD counts as the state it remembers. -/
def agrees (expect : Nat) (st : LnkSt) : Bool :=
  match expect with
  | 0 => st != .up
  | 1 => st == .up
  | _ => st == .up || st == .down || st.training

/-- Port `p` agrees, and every port does. -/
def portAgrees (d : Dev) (p : Nat) : Bool := agrees (portExpect d p) (portOf d p).routeSt
def allAgree (d : Dev) : Bool := (upFrom 0 6).all (portAgrees d)

/-- The word AGT_STATE reads as: the stored state and, in [21:16], the ports that agree (R336). -/
def agtWord (d : Dev) : Nat :=
  bits (d.rd Reg.AGT_STATE) 9 0 + 2 ^ 16 * sumList ((upFrom 0 6).map (fun p => b2n (portAgrees d p) * 2 ^ p))

/-- RTB_DIMS: the length of an axis. -/
def dimLen (d : Dev) (a : Nat) : Nat := bits (d.rd Reg.RTB_DIMS) (5 * a + 4) (5 * a) + 1

/-- The relay path to a module (R320): to the manager the one its CLAIM came by, else one that the plan's positions give, and without a
plan the port beyond which the module lies. DESIGN CHOICE (log entry 222): an axis at a time, the shorter way round. -/
def relayPathTo (d : Dev) (ma : Nat) : Option (List Nat) :=
  match (if managerMa d = some ma ∧ ¬ trioMode d then d.agt.path else none), originMa d with
  | some p, _ => some p
  | none, some me =>
    if me = ma then none
    else match d.agt.plan with
      | some x => some (x.pathTo 64 me ma)
      | none => ((upFrom 0 6).find? (fun p => beyond (dimLen d) me p == ma)).map (fun p => [p])
  | none, none => none

/-- This module's LIVE bank has a route to a module. -/
def hasRoute (d : Dev) (ma : Nat) : Bool := routesExist d && (routeEntry d (b2n (liveBit d)) ma).testBit 31

/-- A message of this module gets to a module: it is its own, or a route or a relay path leads there. -/
def canSend (d : Dev) (ma : Nat) : Bool := hasRoute d ma || originMa d == some ma || (relayPathTo d ma).isSome

/-- A Belfry message of the agent's own to a module: routed, or by relay until routes exist and where the route fails (R320); with
no path to it, none is sent. -/
def Dev.agtSend (d : Dev) (ma code : Nat) (body : List Byte) : Dev :=
  if hasRoute d ma ∨ originMa d = some ma then d.sendMsg ⟨.fabric ma, famBelfry, code, false, 0, 0, OK, body⟩
  else match relayPathTo d ma with
    | some p => d.sendMsg ⟨.relay none p 0, famBelfry, code, false, 0, 0, OK, body⟩
    | none => d

/-- The agent's managers: the one of its term, or each voter in trio mode (R315). -/
def managers (d : Dev) : List Nat := if trioMode d then (voters d).map (·.2) else (managerMa d).toList

/-- A Belfry message of the agent's own to its manager, or to each voter in trio mode. -/
def Dev.toManager (d : Dev) (code : Nat) (body : List Byte) : Dev :=
  (managers d).foldl (fun d ma => d.agtSend ma code body) d

/-- READY_CHANGE (R321, R324). -/
def Dev.readyChange (d : Dev) : Dev :=
  d.toManager 9 (leBytes 4 (agtWord d) ++ leBytes 2 ((originMa d).getD 0) ++ leBytes 8 d.clk.cal)

/-- The agent leaves READY, which raises READY_LOST (R337). -/
def Dev.readyLost (d : Dev) : Dev := d.raise 0x069 7

/-- The agent compares its ports with a valid plan (R324): ADDRESSED or NOT_READY becomes READY when every port agrees,
ADDRESSED or READY becomes NOT_READY when one does not. -/
def Dev.agtSettle (d : Dev) : Dev :=
  let st := agtSt d
  if ¬ (d.rd Reg.AGT_PORT_PLAN).testBit 31 then d
  else if allAgree d then
    (if st = agAddressed ∨ st = agNotReady then (d.setAgtSt agReady).readyChange else d)
  else if st = agAddressed then (d.setAgtSt agNotReady).readyChange
  else if st = agReady then (d.setAgtSt agNotReady).readyLost.readyChange
  else d

/-- The agent is excluded from every state that EXCLUDE names (R324). -/
def Dev.agtExclude (d : Dev) : Dev :=
  let st := agtSt d
  if st = agReady then (d.setAgtSt agExcluded).readyLost.readyChange
  else if st = agUnaddressed ∨ st = agAddressed ∨ st = agNotReady then d.setAgtSt agExcluded
  else d

/-- A valid plan readmits an excluded module (R324). -/
def Dev.agtReadmit (d : Dev) : Dev :=
  if agtSt d = agExcluded then (d.setAgtSt (if allAgree d then agReady else agNotReady)).readyChange else d

end Sys2Proof.Machine
end

