-- ==== Sys2Proof/Machine/Identity.lean ====
section
/-! DEFINITION. The module's identity: life cycle and owner fuses (R416, R417), the keys that derive from the seed (R419), the
persistent store's records (R420), and certificates and chains (R421, R422). -/

namespace Sys2Proof.Machine

/-! ## Fuses and what derives from them -/

abbrev lcBlank : Nat := 0
abbrev lcVendor : Nat := 1
abbrev lcDeploy : Nat := 2
abbrev lcReturn : Nat := 3
abbrev lcScrap : Nat := 4

/-- SEC_LC: STATE and GEN (R416). -/
def lcWord (d : Dev) : Nat := d.sec.gen % 4 * 16 + d.sec.lc % 8

/-- The fuses of an owner slot (R417). -/
def ownerFuse (d : Dev) (slot : Nat) : Option OwnerFuse := SMap.get (fun _ => none) d.sec.owners slot

/-- The OWNER_ID in an owner slot; an unfused slot reads zero. -/
def ownerSlot (d : Dev) (slot : Nat) : Nat :=
  match ownerFuse d slot with
  | none => 0
  | some .shipped => Config.ownerId % 2 ^ 256
  | some (.claimed v) => v % 2 ^ 256

/-- OWNER_ID of the current generation; 0 before one is fused (R416, R417). -/
def ownerIdOf (d : Dev) : Nat := if d.sec.lc ≤ lcVendor then 0 else ownerSlot d d.sec.gen

/-- The KEK of the current deployment (R419). -/
def kekOf (d : Dev) : Kek := ⟨d.sec.seed, if d.sec.lc ≤ lcVendor then none else ownerFuse d d.sec.gen, d.sec.gen⟩

/-- A record of the persistent store opens: MRAM gives it back unspoilt (`ok`), key derivation yields a KEK (R417), and that is the
one it was sealed under (R419, R420). -/
def recordOpens (d : Dev) (ok : Bool) (k : Kek) : Bool := ok && !d.sec.killed && decide (k = kekOf d)

/-- The seed as the key-derivation engine uses it: the free value it was drawn as. -/
def seedOf (d : Dev) : Nat := Config.free (d.sec.seed.getD 0) % 2 ^ 256

/-! ## Certificates (R421, R422) -/

/-- A certificate of the module's own chain. -/
def certBytes (role lc issuer serial owner pub : Nat) (boot : Nat) : List Byte :=
  let key := leBytes 1952 pub
  let head := [0x4C, 0x4E, 0x43, 0x54] ++ leBytes 1 role ++ leBytes 1 (Config.certGen role) ++ leBytes 1 lc ++ [0] ++
    leBytes 8 (Config.shake256 key) ++ leBytes 8 issuer ++ leBytes 8 serial ++ leBytes 32 owner ++ key
  head ++ leBytes 3309 (Config.certSignature boot head)

/-- The attestation chain of a module of a serial: ATTESTATION, then the Voheic certificates IDENTITY and MANUFACTURING while the key
store holds them (R420, R422). -/
def chainOf (d : Dev) (serial : Nat) : List Byte :=
  let ak := Config.akPublic (seedOf d) (d.bel.extension.getD 0) (ownerIdOf d) (lcWord d)
  let dik := Config.dikPublic (seedOf d)
  let subject (p : Nat) : Nat := Config.shake256 (leBytes 1952 p) % 2 ^ 64
  certBytes 6 (lcWord d) (subject dik) serial (ownerIdOf d) ak d.sec.akem ++
    (if d.sec.certs then
      certBytes 5 0 (subject Config.mfgPublic) serial 0 dik 0 ++ certBytes 2 0 (Config.voheicRoot % 2 ^ 64) 0 0 Config.mfgPublic 0
     else [])

/-- This module's own chain. -/
def attChain (d : Dev) : List Byte := chainOf d Config.serial

/-- SUBJECT_ID and ISSUER_ID of a certificate. -/
def certSubject (c : List Byte) : Nat := field c 8 8
def certIssuer (c : List Byte) : Nat := field c 16 8

/-- The fields of a certificate of a role that do not name its issuer: MAGIC, ROLE, byte 7, and SUBJECT_ID over the key; LC only in
ATTESTATION, SERIAL only in IDENTITY and ATTESTATION, and OWNER_ID only in those of the owner's roles and ATTESTATION. -/
def certForm (role : Nat) (c : List Byte) : Bool :=
  field c 0 4 == 0x54434E4C && field c 4 1 == role && field c 7 1 == 0 &&
    certSubject c == Config.shake256 (slice c 64 1952) % 2 ^ 64 && (role == 6 || field c 6 1 == 0) &&
    (role == 5 || role == 6 || field c 24 8 == 0) && (decide (6 ≤ role) || field c 32 32 == 0)

/-- The chain of another module leads to the Voheic root, certificate by certificate (R422). -/
def attChainForm (bs : List Byte) : Bool :=
  let a := slice bs 0 5325
  let i := slice bs 5325 5325
  let m := slice bs 10650 5325
  bs.length == 15975 && certForm 6 a && certForm 5 i && certForm 2 m && certIssuer a == certSubject i && certIssuer i == certSubject m &&
    certIssuer m == Config.voheicRoot % 2 ^ 64 && field a 24 8 == field i 24 8

/-- Two life-cycle states key a link with each other (R416). -/
def lcPairs (own peer : Nat) : Bool :=
  (own == lcDeploy && peer == lcDeploy) || ((own == lcVendor || own == lcReturn) && (peer == lcVendor || peer == lcReturn))

/-- What R422 asks of a peer's chain in link keying, for the SERIAL of its INTRO. -/
def peerAccepted (d : Dev) (serial : Nat) (bs : List Byte) : Bool :=
  attChainForm bs && field bs 24 8 == serial % 2 ^ 64 && lcPairs d.sec.lc (bits (field bs 6 1) 2 0) &&
    (d.sec.lc != lcDeploy || field bs 32 32 == ownerIdOf d)

end Sys2Proof.Machine
end

