-- ==== Sys2Proof/Machine/Link.lean ====
section
/-! DEFINITION. Fabric ports: training and keying (R181-R187), admission (R187, R188), the receiver and retry (R178,
R190-R193), lane changes (R194-R199), key rotation (R200-R202) and port states (R203, R204). -/

namespace Sys2Proof.Machine

/-! ## Reasons (R206) -/

abbrev rsDisabled : Nat := 1
abbrev rsNoSignal : Nat := 2
abbrev rsTrainTimeout : Nat := 3
abbrev rsWidth : Nat := 4
abbrev rsTooLong : Nat := 5
abbrev rsKeying : Nat := 6
abbrev rsReplay : Nat := 7
abbrev rsTag : Nat := 8
abbrev rsSilence : Nat := 9
abbrev rsKeyLimit : Nat := 10
abbrev rsProtocol : Nat := 11
abbrev rsHold : Nat := 12
abbrev rsReset : Nat := 13
abbrev rsVersion : Nat := 14
abbrev rsMiswire : Nat := 15

/-- The LNK page of a port. -/
def lnkPage (p : Nat) : Nat := 0x020 + p

/-- LNK_CTRL.ENABLE and COMPAT_ALLOW. -/
def lnkEnabled (d : Dev) (p : Nat) : Bool := (d.rd (lnkReg p 0x010)).testBit 0
def compatAllow (d : Dev) (p : Nat) : Bool := (d.rd (lnkReg p 0x010)).testBit 4

/-- The ports are held DOWN: bring-up has HALTED or the life cycle is SCRAP (R416, R496), or a JTAG instruction drives the pins
in DEPLOY (R437). -/
def portsBarred (d : Dev) : Bool := bits (d.rd Reg.MOD_BOOT) 31 28 == 0xF || d.sec.lc == 4 || d.sec.pinsDriven

/-- The chain in the body of KX1 or KX2, after the encapsulation key or the ciphertext (R186). -/
def keyChain (m : KeyMsg) : List Byte := m.body.drop 1568

/-- Link keying may succeed: not in BLANK or SCRAP (R416), nor while the signature engine refuses in MAKER (R437). -/
def keyingAllowed (d : Dev) : Bool := decide (1 ≤ d.sec.lc ∧ d.sec.lc ≤ 3) && dbgMode d != 3

/-! ## DOWN (R203, R204) -/

/-- Packets queued for a port that went DOWN are refused (R226, R246); of a pass-along packet the rest of the path is dropped
(R233). -/
def Dev.dropQueued (d : Dev) : List QPkt → Dev
  | [] => d
  | q :: qs => Dev.dropQueued
      (if q.started then d
       else if q.pkt.passAlong then d.count Reg.RTR_MCAST_DROP_COUNT
       else (d.rtrRefused).nack q.pkt PORT_REFUSED) qs

/-- The queues of a port are emptied. -/
def Dev.dropQueues (d : Dev) (p : Nat) : List Nat → Dev
  | [] => d
  | v :: vs =>
    let q := outQ d p v
    Dev.dropQueues ((d.setOutQ p v []).dropQueued q) p vs

/-- The port goes DOWN with a reason: its retry buffer is discarded and counted, its keys are zeroised, the router is told,
DOWN is raised when it carried frames, and the agent compares its ports with the plan (R324). -/
def Dev.lnkDown (d : Dev) (p reason : Nat) : Dev :=
  let x := portOf d p
  let carried := x.carries || x.st == .hold
  let d := d.setLnk p { Lnk.reset with
    reason := reason, attempts := x.attempts, txFrames := x.txFrames, rxFrames := x.rxFrames, tags := x.tags, laneCe := x.laneCe }
  let d := d.wr (lnkReg p 0x084) 0
  let d : Dev := if anyLive d then { d with rtr := { d.rtr with downSince := setBit d.rtr.downSince p } } else d
  let d := if carried then (d.countBy (lnkReg p 0x12C) x.retry.length).raise (lnkPage p) 5 else d
  let q := c0Wait d p
  let i := SMap.get (fun _ => []) d.rtr.c0in p
  let d : Dev := { d.setC0Wait p [] with rtr := { (d.setC0Wait p []).rtr with c0in := SMap.put (fun _ => []) d.rtr.c0in p [] } }
  (((d.dropQueued (q.map (fun k => ⟨k, none, [], false⟩))).dropQueued i).dropQueues p (upFrom 0 16)).agtSettle

/-- The rate word of a port (R182): bit 0 for 200 Gb/s per lane, while COMPAT_ALLOW is 1, and bit 1 for 400 Gb/s. -/
def ownRates (d : Dev) (p : Nat) : Nat := if compatAllow d p then 3 else 2

/-- A DOWN port starts training at DETECT, where its lanes send the rate word (R182, R203). -/
def Dev.lnkTrain (d : Dev) (p : Nat) : Dev :=
  let x := portOf d p
  ((d.setLnk p { x with st := .detect, attempts := (x.attempts + 1) % 2 ^ 32 }).count (lnkReg p 0x128)).send
    (.rateWord p (ownRates d p))

/-- LNK_RETRY_INTERVAL passes for a DOWN port with ENABLE 1. -/
def execLnkRetryInterval (p : Fin 6) (s : State) : Host.Outcome State Fault Refusal :=
  doneDev s (fun d =>
    if (portOf d p.val).st = .down ∧ lnkEnabled d p.val ∧ ¬ portsBarred d ∧ d.domainOn (lnkPage p.val) then d.lnkTrain p.val else d)

/-! ## Training (R181, R182, R194) -/

/-- The widths of the ladder (R177, R189), widest first. -/
def ladder (slow : Bool) : List Nat := if slow then [16, 8, 4, 2, 1] else [24, 20, 16, 12, 8, 4, 2, 1]

/-- The lanes a port can use: all 24, in compatibility mode the lower 16 (R189). -/
def Lnk.lanes (x : Lnk) : Nat := if x.slow then 2 ^ 16 - 1 else 2 ^ 24 - 1

/-- The `w` lowest lanes of a mask. -/
def lowestLanes (mask : Nat) : Nat → List Nat → Nat
  | _, [] => 0
  | 0, _ => 0
  | w + 1, l :: ls => if mask.testBit l then 2 ^ l + lowestLanes mask w ls else lowestLanes mask (w + 1) ls

/-- The width chosen from the lanes good at both ends (R194). -/
def chooseWidth (slow : Bool) (mask : Nat) : Nat :=
  ((ladder slow).find? (fun w => decide (w ≤ popCount 24 mask))).getD 0

/-- The lanes in use change: LNK_LANE_GOOD, LNK_LANE_ACTIVE and the width. -/
def Dev.setLanes (d : Dev) (p both : Nat) : Dev :=
  let x := portOf d p
  let w := chooseWidth x.slow both
  (((d.setLnk p { x with width := w }).wr (lnkReg p 0x080) both).wr (lnkReg p 0x084) (lowestLanes both w (upFrom 0 24)))

/-- DETECT ends (R182): whether signal was found, and the rate word of the far end. -/
def execDetectDone (p : Fin 6) (signal : Bool) (rates : BitVec 2) (s : State) : Host.Outcome State Fault Refusal :=
  doneDev s (fun d =>
    let p := p.val
    let x := portOf d p
    if x.st ≠ .detect then d
    else
      let common := ownRates d p &&& rates.toNat
      if ¬ signal ∨ common = 0 then d.lnkDown p rsNoSignal
      else d.setLnk p { x with st := .equalize, slow := !common.testBit 1 })

/-- EQUALIZE ends with the lanes that adapted; the others enter the bad mask (R181). -/
def execEqualizeDone (p : Fin 6) (lanes : BitVec 24) (s : State) : Host.Outcome State Fault Refusal :=
  doneDev s (fun d =>
    let p := p.val
    let x := portOf d p
    if x.st ≠ .equalize then d
    else
      let m := if x.slow then lanes.toNat % 2 ^ 16 else lanes.toNat
      if popCount 24 m < d.rd (lnkReg p 0x088) then d.lnkDown p rsNoSignal
      else
        d.setLnk p { x with st := .align, good := m, bad := x.lanes - (x.lanes &&& m) })

/-- This module's introduction at a port (R183). -/
def ownIntro (d : Dev) (p : Nat) : Intro :=
  ⟨Config.serial, maValid d, myMa d, p, 0x0200, (match d.bel.parlour with | some x => x % 2 ^ 128 | none => 0), 0x3F,
    (portOf d p).good, (portOf d p).attempts⟩

/-- The payload of an introduction frame. -/
def introBytes (i : Intro) : List Byte :=
  leBytes 8 i.serial ++ leBytes 2 (b2n i.maValid * 2 ^ 15 + i.ma % 2 ^ 15) ++ leBytes 1 i.port ++ [0] ++ leBytes 2 i.proto ++ [0, 0] ++
    leBytes 16 i.digest ++ leBytes 8 i.cap ++ leBytes 4 (i.lanes % 2 ^ 24) ++ leBytes 4 i.attempt ++ List.replicate 208 0

/-- An introduction is sent, with START 31 and COUNT 16 (R183, R184). -/
def Dev.sendIntro (d : Dev) (p : Nat) : Dev :=
  let i := ownIntro d p
  d.send (.intro p i (codeword (clearFrame (hdrWord 0 3 0 false 31 16) (introBytes i))))

/-- ALIGN ends: the measured one-way delay in 0.1 ns and the lanes the far end found good. DESIGN CHOICE (log entry 198): a width of
the lanes good at both ends that is below LNK_MIN_WIDTH, even 0, for which R181 gives this step no end, lets training go on. -/
def execAlignDone (p : Fin 6) (delay : BitVec 16) (peer : BitVec 24) (s : State) : Host.Outcome State Fault Refusal :=
  doneDev s (fun d =>
    let p := p.val
    let x := portOf d p
    if x.st ≠ .align then d
    else if 250 < delay.toNat then (d.wr (lnkReg p 0x0A8) delay.toNat).lnkDown p rsTooLong
    else
      let d := (d.wr (lnkReg p 0x0A8) delay.toNat).setLanes p (x.good &&& peer.toNat)
      (d.setLnk p { portOf d p with st := .intro, intro := none, echoed := false }).sendIntro p)

/-- During INTRO the introduction is sent again (R181). -/
def execIntroResend (p : Fin 6) (s : State) : Host.Outcome State Fault Refusal :=
  doneDev s (fun d => if (portOf d p.val).st = .intro then d.sendIntro p.val else d)

/-- Corrected symbols are counted on their lanes, in the registers and for the measure (R195, R206). -/
def Dev.countSymbols (d : Dev) (p : Nat) : List Nat → Dev
  | [] => d
  | l :: ls =>
    let x := portOf d p
    Dev.countSymbols ((d.setLnk p { x with laneCe := SMap.put (fun _ => 0) x.laneCe l (SMap.get (fun _ => 0) x.laneCe l + 1) }).count
      (lnkReg p (0x180 + 4 * l))) p ls

/-- Check 1 (R178): up to 4 symbols in error are corrected, each on the lane that carried it (R173). An armed check of bit 0 inverts
one parity symbol, of bit 1 five of them (R207); which parity symbol bit 0 takes is a free value. -/
def Dev.rxFec (d : Dev) (p : Nat) (f : RxFrame) : Bool × Dev :=
  let b := lnkPage p
  let inj := d.armedFirst b [0, 1]
  let e := match inj with | some i => d.disarm b i | none => d
  let n := e.fresh % 8
  let e := if inj = some 0 then e.used else e
  let errs := if inj = some 0 then (if f.errors.contains (228 + n) then f.errors else f.errors ++ [228 + n]) else f.errors
  if inj = some 1 ∨ 4 < errs.length then (false, (e.count (lnkReg p 0x114)).raise b 1)
  else if errs = [] then (true, e)
  else (true, (e.countSymbols p (errs.map (symbolLane (e.rd (lnkReg p 0x084))))).raise b 0)

/-- The fields of a frame's header are valid (R174, R178 check 4). -/
def frameFieldsOk (f : RxFrame) : Bool :=
  [0, 1, 3, 4].contains f.ftype && decide ((f.start ≤ 15 ∨ f.start = 31) ∧ f.count ≤ 16)

/-- What of a frame's checks 1, 2 and 4 fails (R178): 0 none, 1 the frame is bad, 2 a protocol fault. An armed check of bit 2 inverts
the CRC of the next frame whose CRC is checked. -/
def Dev.rxCheck (d : Dev) (p : Nat) (f : RxFrame) : Nat × Dev :=
  let b := lnkPage p
  let r := d.rxFec p f
  let d := r.2
  if ¬ r.1 then (1, d)
  else
    let inj := (d.armedFirst b [2]).isSome
    let d := if inj then d.disarm b 2 else d
    if ¬ f.crcOk ∨ inj then (1, (d.count (lnkReg p 0x118)).raise b 2)
    else (if frameFieldsOk f then 0 else 2, d)

/-- The neighbour sent what no replay cures (R178): PROTOCOL. -/
def Dev.protocolFault (d : Dev) (p : Nat) : Dev := (d.raise (lnkPage p) 9).lnkDown p rsProtocol

/-- An introduction frame arrives (R184). -/
def execIntroFrame (p : Fin 6) (f : RxFrame) (i : Intro) (s : State) : Host.Outcome State Fault Refusal :=
  doneDev s (fun d =>
    let p := p.val
    if (portOf d p).st ≠ .intro ∨ ¬ portRuns d p then d
    else
      let r := d.rxCheck p f
      let d := r.2
      let x := portOf d p
      if r.1 = 1 then d
      else if r.1 = 2 then d.protocolFault p
      else if x.intro ≠ none ∧ x.intro ≠ some i then d.lnkDown p rsTrainTimeout
      else
        let act := d.rd (lnkReg p 0x084)
        d.setLnk p { x with intro := some i, echoed := (i.lanes &&& act) == act })

/-- The peer's introduction goes to the LNK_PEER registers (R184). -/
def Dev.storePeer (d : Dev) (p : Nat) (i : Intro) : Dev :=
  let d := (d.wr (lnkReg p 0x0C0) i.serial).wr (lnkReg p 0x0C4) (i.serial / 2 ^ 32)
  let d := d.wr (lnkReg p 0x0C8) ((i.proto % 2 ^ 16) * 2 ^ 16 + b2n i.maValid * 2 ^ 15 + i.ma % 2 ^ 15)
  let d := d.wr (lnkReg p 0x0CC) ((i.attempt % 256) * 2 ^ 24 + i.port % 8)
  let d := (d.wr (lnkReg p 0x0D0) i.cap).wr (lnkReg p 0x0D4) (i.cap / 2 ^ 32)
  (upFrom 0 4).foldl (fun d k => d.wr (lnkReg p (0x0D8 + 4 * k)) (i.digest / 2 ^ (32 * k))) d

/-- The port goes to MISWIRED with a kind, and its entry is reported (R187, R188): 1 LOOPBACK, 2 SERIAL, 3 PORT, 4 ADDRESS, 5 PLAN. -/
def Dev.miswire (d : Dev) (p kind : Nat) : Dev :=
  (((d.setLnk p { portOf d p with st := .miswired, reason := rsMiswire, miswire := kind }).raise (lnkPage p) 7).send
    (.report 7 p LnkSt.miswired.code)).agtSettle

/-- The KEYX frames of a message: fragments of 256 bytes, each with its index (R174, R186). -/
def keyxFrames : Nat → Nat → List Byte → List (List Byte)
  | 0, _, _ => []
  | n + 1, i, bs =>
    clearFrame (hdrWord (i % 2 ^ 16) 4 0 false 31 ((min 256 bs.length + 15) / 16)) bs ::
      (if bs.length ≤ 256 then [] else keyxFrames n (i + 1) (bs.drop 256))

/-- A message of the keying exchange is sent. -/
def Dev.sendKey (d : Dev) (p n : Nat) (message : List Byte) : Dev :=
  d.send (.keyMsg p n message ((keyxFrames message.length 0 message).map codeword))

/-- The transcript digests of R186: T1 over both introductions and the body of KX1, T2 over T1 and the body of KX2. -/
def transcript1 (initiator responder : Intro) (body : List Byte) : Nat :=
  Config.shake256 (introBytes initiator ++ introBytes responder ++ body)
def transcript2 (t1 : Nat) (body : List Byte) : Nat := Config.shake256 (leBytes 64 t1 ++ body)

/-- The initiator sends KX1: a fresh encapsulation key and its chain, signed over T1. -/
def Dev.sendKx1 (d : Dev) (p : Nat) (peer : Intro) : Dev :=
  let body := Config.kemKey d.fresh ++ attChain d
  let t1 := transcript1 (ownIntro d p) peer body
  (d.used.setLnk p { portOf d p with trans := t1 }).sendKey p 1 (body ++ Config.linkSign t1)

/-- Both introductions are exchanged and echoed (R183, R185). -/
def execIntroDone (p : Fin 6) (s : State) : Host.Outcome State Fault Refusal :=
  doneDev s (fun d =>
    let p := p.val
    let x := portOf d p
    match x.st, x.intro, x.echoed with
    | .intro, some i, true =>
      if i.serial = Config.serial then (d.storePeer p i).miswire p 1
      else
        let d := d.setLnk p { x with st := .keying, secret := none }
        if Config.serial < i.serial then d.sendKx1 p i else d
    | _, _, _ => d)

/-- The MA of the module that a port faces (R169), from this module's MA and the axis lengths. -/
def neighbourMa (d : Dev) (p : Nat) : Nat :=
  let a := p / 2
  let len := bits (d.rd Reg.RTB_DIMS) (5 * a + 4) (5 * a) + 1
  let c := bits (myMa d) (5 * a + 4) (5 * a)
  setBits (myMa d) (5 * a + 4) (5 * a) (if p % 2 = 0 then (c + 1) % len else (c + len - 1) % len)

/-- The expected neighbour (LNK_EXPECT). -/
def expectSerial (d : Dev) (p : Nat) : Nat := d.rd (lnkReg p 0x0B4) + d.rd (lnkReg p 0x0B8) * 2 ^ 32

/-- The port comes up in a state: every VC is granted RTR_VC_MIN frames, told in a CTRL frame (R240). -/
def Dev.linkUp (d : Dev) (p : Nat) (st : LnkSt) : Dev :=
  let g := d.rd Reg.RTR_VC_MIN
  let x := portOf d p
  let d := d.setLnk p { x with
    st := st, credOut := (upFrom 0 16).map (fun v => (v, g)), recvOn := [], credIn := [], sentOn := [] }
  d.sendCtrl p false false false 0 0

/-- The admission table (R187). -/
def Dev.admissionState (d : Dev) (p : Nat) (i : Intro) : Dev :=
  let d := d.storePeer p i
  let x := portOf d p
  let major := bits i.proto 15 8
  let minor := bits i.proto 7 0
  let compat := decide (major = 1 ∧ 4 ≤ minor) && compatAllow d p
  if ¬ ((major = 2 ∧ ¬ x.slow) ∨ compat) then
    let d := d.linkUp p .quarantine
    ((d.setLnk p { portOf d p with reason := rsVersion, miswire := 0 }).raise (lnkPage p) 8).send (.report 7 p LnkSt.quarantine.code)
  else
    let d := d.setLnk p { x with compat := compat }
    let ctrl := d.rd (lnkReg p 0x0B0)
    if ¬ ctrl.testBit 31 then d.linkUp p .held
    else
      let d := d.linkUp p .up
      if i.serial ≠ expectSerial d p then d.miswire p 2
      else if i.port ≠ bits ctrl 2 0 then d.miswire p 3
      else if i.maValid ∧ maValid d ∧ i.ma ≠ neighbourMa d p then d.miswire p 4
      else d

/-- Admission (R187), once KEYING has ended; the agent then compares its ports with the plan (R324). -/
def Dev.admission (d : Dev) (p : Nat) (i : Intro) : Dev := (d.admissionState p i).agtSettle

/-- A key and salt out of KMAC256 with 288 bits (R186, R201). -/
def linkKeyOf (out : Nat) : LinkKey := ⟨out % 2 ^ 256, out / 2 ^ 256 % 2 ^ 32⟩

/-- The keys of both directions are derived from the shared secret over T2 and the serial of the module that transmits (R186). -/
def Dev.deriveKeys (d : Dev) (p secret t2 peer : Nat) : Dev :=
  let key (serial : Nat) : LinkKeys :=
    ⟨0, some (linkKeyOf (Config.kmac256 secret (leBytes 64 t2 ++ leBytes 8 serial) "LN link key")), none, 0, 0⟩
  d.setLnk p { portOf d p with
    tx := key Config.serial, rx := key peer, secret := none, trans := 0, rot := none, rotSeen := none }

/-- KEYING fails (R186). -/
def Dev.keyingFails (d : Dev) (p : Nat) : Dev := (d.raise (lnkPage p) 6).lnkDown p rsKeying

/-- The KEYX frames that carry a message pass checks 1, 2 and 4 (R178): 0 all of them, 1 one is bad and the message is not whole,
2 a protocol fault. -/
def Dev.keyFrames (d : Dev) (p : Nat) : List RxFrame → Nat × Dev
  | [] => (0, d)
  | f :: fs =>
    let r := d.rxCheck p f
    if r.1 = 0 then Dev.keyFrames r.2 p fs else r

/-- A message of the keying exchange arrives at a port in KEYING whose peer is known, and is taken when it is whole. -/
def onKey (p : Fin 6) (m : KeyMsg) (f : Lnk → Intro → Dev → Dev) (s : State) : Host.Outcome State Fault Refusal :=
  doneDev s (fun d =>
    let p := p.val
    match (portOf d p).st, (portOf d p).intro with
    | .keying, some i =>
      if ¬ portRuns d p then d
      else
        let r := d.keyFrames p m.frames
        if r.1 = 1 then r.2
        else if r.1 = 2 then r.2.protocolFault p
        else f (portOf r.2 p) i r.2
    | _, _ => d)

/-- The responder receives KX1 and answers KX2: the ciphertext and its chain, signed over T2. -/
def execKx1 (p : Fin 6) (m : KeyMsg) (s : State) : Host.Outcome State Fault Refusal :=
  onKey p m (fun x i d =>
    let p := p.val
    if Config.serial < i.serial then d
    else if ¬ m.valid ∨ ¬ keyingAllowed d ∨ ¬ peerAccepted d i.serial (keyChain m) then d.keyingFails p
    else
      let body := Config.kemText d.fresh ++ attChain d
      let t2 := transcript2 (transcript1 i (ownIntro d p) m.body) body
      (d.used.setLnk p { x with secret := some m.secret, trans := t2 }).sendKey p 2 (body ++ Config.linkSign t2)) s

/-- The initiator receives KX2, derives the keys and sends KX3, the tag over T2. -/
def execKx2 (p : Fin 6) (m : KeyMsg) (s : State) : Host.Outcome State Fault Refusal :=
  onKey p m (fun x i d =>
    let p := p.val
    let t2 := transcript2 x.trans m.body
    if ¬ (Config.serial < i.serial) then d
    else if ¬ m.valid ∨ ¬ keyingAllowed d ∨ ¬ peerAccepted d i.serial (keyChain m) then d.keyingFails p
    else ((d.sendKey p 3 (Config.kxTag m.secret t2)).deriveKeys p m.secret t2 i.serial).admission p i) s

/-- The responder receives KX3 and derives the keys. -/
def execKx3 (p : Fin 6) (m : KeyMsg) (s : State) : Host.Outcome State Fault Refusal :=
  onKey p m (fun x i d =>
    let p := p.val
    match x.secret with
    | some k => if ¬ m.valid ∨ ¬ keyingAllowed d then d.keyingFails p else (d.deriveKeys p k x.trans i.serial).admission p i
    | none => d) s

/-- LNK_TRAIN_TIMEOUT expires. -/
def execLnkTrainTimeout (p : Fin 6) (s : State) : Host.Outcome State Fault Refusal :=
  doneDev s (fun d => if (portOf d p.val).st.training then d.lnkDown p.val rsTrainTimeout else d)

/-! ## Receiving (R178, R191-R193) -/

/-- The key generation a frame was sealed under is one this side holds, in the slot that KEYSEL names (R178 check 3,
R200). -/
def keyHeld (x : Lnk) (f : RxFrame) : Bool :=
  match f.gen with
  | none => false
  | some g =>
    decide (g % 2 = b2n f.keysel) && decide (x.rx.gen ≤ g ∧ g ≤ x.rx.gen + 1) && (x.rx.slot g).isSome

/-- A tag does not verify: counted; beyond the limit of the measure the port goes DOWN (R193). True when it stays up. -/
def Dev.tagFails (d : Dev) (p : Nat) : Bool × Dev :=
  let d := (d.count (lnkReg p 0x11C)).raise (lnkPage p) 3
  let x := portOf d p
  let d := d.setLnk p { x with tags := x.tags + 1 }
  if d.rd (lnkReg p 0x098) < x.tags + 1 then (false, d.lnkDown p rsTag) else (true, d)

/-- A NAK is sent and counts as a replay event; beyond LNK_REPLAY_LIMIT the port goes DOWN (R192, R193). -/
def Dev.sendNak (d : Dev) (p : Nat) : Dev :=
  let x := portOf d p
  let d := (d.setLnk p { x with nak := true, events := x.events + 1 }).count (lnkReg p 0x110)
  if d.rd (lnkReg p 0x094) < x.events + 1 then (d.raise (lnkPage p) 10).lnkDown p rsReplay
  else d.sendCtrl p true false false 0 0

/-- A frame that cannot be taken: a NAK unless one is outstanding. -/
def Dev.badData (d : Dev) (p : Nat) : Dev := if (portOf d p).nak then d else d.sendNak p

/-- Whole packets leave a VC's stream for the router; a LENGTH that exceeds what a packet has ends it (R209). -/
def takePackets : Nat → List Byte → List (Packet × HdrCheck) × List Byte
  | 0, bs => ([], bs)
  | n + 1, bs =>
    if bs.length < 32 then ([], bs)
    else
      let w0 := field bs 0 4
      if 4096 < bits w0 12 0 then ([((Packet.parse bs).1, if (Packet.parse bs).2 then .length else .hchk)], [])
      else
        let k := linkBytes w0
        if bs.length < k then ([], bs)
        else
          let r := takePackets n (bs.drop k)
          let q := Packet.parse (bs.take k)
          ((q.1, if q.2 then .ok else .hchk) :: r.1, r.2)

/-- The key of the previous generation is zeroised at the first DATA frame accepted under the next (R201 step 5). -/
def Dev.retireKey (d : Dev) (p gen : Nat) : Dev :=
  let x := portOf d p
  if gen = x.rx.gen + 1 ∧ (x.rx.slot gen).isSome then
    (d.setLnk p { x with rx := { x.rx.setSlot x.rx.gen none with gen := gen } }).count (lnkReg p 0x124)
  else d

/-- A DATA frame accepted in order: its bytes join their VC's stream, and whole packets go to the router. -/
def Dev.acceptData (d : Dev) (p : Nat) (f : RxFrame) : Dev :=
  let d := match f.gen with | some g => d.retireKey p g | none => d
  let x := portOf d p
  let vc := f.vc
  let r := takePackets 10 (SMap.get (fun _ => []) x.stream vc ++ padTo (16 * f.count) f.payload)
  let d := d.setLnk p { x with
    expect := (x.expect + 1) % 2 ^ 40, nak := false, events := 0
    rxFrames := (x.rxFrames + 1) % 2 ^ 64
    recvOn := SMap.put (fun _ => 0) x.recvOn vc ((SMap.get (fun _ => 0) x.recvOn vc + 1) % 2 ^ 16)
    stream := SMap.put (fun _ => []) x.stream vc r.2 }
  { d with rtr := { d.rtr with inbox := d.rtr.inbox ++ r.1.map (fun k => ⟨p, vc, k.1, k.2⟩) } }

/-- The port enters HOLD, or starts its lane change again, and sends lane-change ordered sets (R195, R198). -/
def Dev.enterHold (d : Dev) (p : Nat) : Dev :=
  let x := portOf d p
  let x := if x.st = .hold then { x with change := HoldStep.sets }
    else { x with st := .hold, saved := x.st, holdStart := d.clk.aon, change := .sets, nak := false }
  (d.setLnk p x).send (.laneSets p x.bad false)

/-- A lane in use becomes bad (R195, R198), at a port in a state of R203's table, looped back or not. -/
def Dev.laneBad (d : Dev) (p lane : Nat) : Dev :=
  let x := portOf d p
  if (x.st.carries ∨ x.st = .hold) ∧ (d.rd (lnkReg p 0x084)).testBit lane ∧ ¬ x.bad.testBit lane then
    ((d.setLnk p { x with bad := setBit x.bad lane }).raise (lnkPage p) 4).enterHold p
  else d

/-- The lanes whose corrected symbols exceed LNK_LANE_LIMIT in the measure become bad (R195). -/
def Dev.laneLimit (d : Dev) (p : Nat) : Dev :=
  (((portOf d p).laneCe.filter (fun e => decide (d.rd (lnkReg p 0x08C) < e.2))).map (·.1)).foldl (fun d l => d.laneBad p l) d

/-- A frame of a port that carries frames is received, and its effect; a frame of another port, or one that a stopped island holds
at its crossing (R38), has none. -/
def onFrame (p : Fin 6) (f : Dev → Dev) (s : State) : Host.Outcome State Fault Refusal :=
  doneDev s (fun d => if (portOf d p.val).carries ∧ portRuns d p.val then (f d).laneLimit p.val else d)

/-- A frame has a tag to check: it is a DATA or a CTRL frame (R178 check 3). -/
def frameTagged (f : RxFrame) : Bool := f.ftype == 0 || f.ftype == 1

/-- A frame without a tag that passed its FEC and CRC at a port that carries frames: a fault of its fields is a protocol fault (R178);
an introduction or a keying frame is for a port in training. -/
def Dev.untagged (d : Dev) (p fault : Nat) : Dev := if fault = 2 then d.protocolFault p else d

/-- A DATA frame is received (R178, R192). An armed check of bit 3 inverts the tag of the next DATA frame whose tag is checked. -/
def execDataFrame (p : Fin 6) (f : RxFrame) (s : State) : Host.Outcome State Fault Refusal :=
  onFrame p (fun d =>
    let p := p.val
    let r := d.rxCheck p f
    let inj := r.2.armed (lnkPage p) 3
    if r.1 = 1 then r.2.badData p
    else if ¬ frameTagged f then r.2.untagged p r.1
    else
      let d := if inj then r.2.disarm (lnkPage p) 3 else r.2
      if ¬ keyHeld (portOf d p) f ∨ inj then
        let t := d.tagFails p
        if t.1 then t.2.badData p else t.2
      else if r.1 = 2 then d.protocolFault p
      else
        let x := portOf d p
        let ahead := (f.seq + 2 ^ 40 - x.expect) % 2 ^ 40
        if ahead = 0 then d.acceptData p f
        else if ahead < 2 ^ 39 then d.badData p
        else d) s

/-- The frames up to a cumulative acknowledgement leave the retry buffer (R190). -/
def ackRetry (x : Lnk) (ack : Nat) : Lnk :=
  { x with retry := x.retry.filter (fun f => decide ((f.seq + 2 ^ 40 - ack - 1) % 2 ^ 40 < 2 ^ 39)) }

/-- The cumulative fields of a CTRL frame are taken; a replay whose first frame it acknowledges is over (R192). -/
def Dev.takeCtrl (d : Dev) (p : Nat) (f : RxFrame) (c : CtrlFields) : Dev :=
  let x := ackRetry (portOf d p) c.ack
  d.setLnk p { x with
    ctrlRx := some f.seq
    replaying := x.replaying.filter (fun r => r.1 == (c.ack + 1) % 2 ^ 40)
    credIn := ((upFrom 0 16).zip c.credits).foldl (fun m k => SMap.put (fun _ => 0) m k.1 (k.2 % 2 ^ 16)) x.credIn }

/-- The checks of a CTRL frame: whether it is accepted. -/
def Dev.acceptCtrl (d : Dev) (p : Nat) (f : RxFrame) (c : CtrlFields) : Bool × Dev :=
  let r := d.rxCheck p f
  let d := r.2
  if r.1 = 1 then (false, d)
  else if ¬ frameTagged f then (false, d.untagged p r.1)
  else if ¬ keyHeld (portOf d p) f then (false, (d.tagFails p).2)
  else if r.1 = 2 then (false, d.protocolFault p)
  else
    let ok := match (portOf d p).ctrlRx with
      | none => true
      | some l => decide (0 < (f.seq + 2 ^ 40 - l) % 2 ^ 40 ∧ (f.seq + 2 ^ 40 - l) % 2 ^ 40 < 2 ^ 39)
    if ok then (true, d.takeCtrl p f c) else (false, d)

/-- NAK: the stored frames are replayed from ACK + 1; a duplicate for an E that is being replayed is ignored (R192). -/
def Dev.takeNak (d : Dev) (p : Nat) (c : CtrlFields) : Dev :=
  let x := portOf d p
  let e := (c.ack + 1) % 2 ^ 40
  match x.replaying with
  | some r =>
    if d.clk.aon < r.2 then d
    else (d.setLnk p { x with replaying := some (e, replayEnd d p x.retry.length) }).replay p x.retry
  | none => (d.setLnk p { x with replaying := some (e, replayEnd d p x.retry.length) }).replay p x.retry

/-- The key and salt of the next generation (R201 step 3). -/
def rotatedKey (k : LinkKey) (gen nt nr : Nat) : LinkKey :=
  linkKeyOf (Config.kmac256 k.key (leBytes 4 gen ++ leBytes 32 nt ++ leBytes 32 nr) "LN link rotate")

/-- ROT: the next generation is derived and ROTACK answered; a repeated ROT gets the same nonce (R201). A ROT for a generation whose
predecessor is not yet retired gets no answer. -/
def Dev.takeRot (d : Dev) (p : Nat) (c : CtrlFields) : Dev :=
  let x := portOf d p
  match x.rx.slot (x.rx.gen + 1), x.rotSeen, x.rx.cur with
  | some _, some (g, n), _ => if g = c.gen then d.sendCtrl p false false true g n else d
  | none, _, some k =>
    if c.gen = x.rx.gen + 1 then
      let n := d.fresh % 2 ^ 256
      (d.used.setLnk p { x with rx := x.rx.setSlot c.gen (some (rotatedKey k c.gen c.nonce n)), rotSeen := some (c.gen, n) }).sendCtrl
        p false false true c.gen n
    else d
  | _, _, _ => d

/-- ROTACK: new frames go under the new key, whose frame counts begin at 0 (R201 steps 3 and 4). -/
def Dev.takeRotack (d : Dev) (p : Nat) (c : CtrlFields) : Dev :=
  let x := portOf d p
  match x.rot, x.tx.cur with
  | some (g, nt), some k =>
    if g = c.gen then
      (d.setLnk p { x with
        tx := { x.tx.setSlot g (some (rotatedKey k g nt c.nonce)) with gen := g, dataCount := 0, ctrlCount := 0 }, rot := none }).count
        (lnkReg p 0x124)
    else d
  | _, _ => d

/-- A CTRL frame is received: once accepted, its ACK and credits are taken, then every flag that it carries (R191). -/
def onCtrl (p : Fin 6) (f : RxFrame) (c : CtrlFields) (s : State) : Host.Outcome State Fault Refusal :=
  onFrame p (fun d =>
    let p := p.val
    let r := d.acceptCtrl p f c
    let d := r.2
    if ¬ r.1 then d
    else
      let d := if c.nak then d.takeNak p c else d
      let d := if c.rot then d.takeRot p c else d
      (if c.rotack then d.takeRotack p c else d).linkSend p) s

/-- A CTRL frame (R191). -/
def execCtrlFrame (p : Fin 6) (f : RxFrame) (c : CtrlFields) (s : State) : Host.Outcome State Fault Refusal := onCtrl p f c s

/-- A CTRL frame with NAK (R192). -/
def execNakFrame (p : Fin 6) (f : RxFrame) (c : CtrlFields) (s : State) : Host.Outcome State Fault Refusal :=
  onCtrl p f { c with nak := true } s

/-- A CTRL frame with ROT (R201). -/
def execRot (p : Fin 6) (f : RxFrame) (c : CtrlFields) (s : State) : Host.Outcome State Fault Refusal :=
  onCtrl p f { c with rot := true } s

/-- A CTRL frame with ROTACK (R201). -/
def execRotack (p : Fin 6) (f : RxFrame) (c : CtrlFields) (s : State) : Host.Outcome State Fault Refusal :=
  onCtrl p f { c with rotack := true } s

/-- 200 ns pass with a NAK outstanding (R192). -/
def execNakRepeat (p : Fin 6) (s : State) : Host.Outcome State Fault Refusal :=
  doneDev s (fun d => if (portOf d p.val).carries ∧ (portOf d p.val).nak then d.sendNak p.val else d)

/-- A CTRL frame is due: no DATA frame is ready in this slot, or the 127 slots before it carried DATA (R176). -/
def execCtrlFrameDue (p : Fin 6) (s : State) : Host.Outcome State Fault Refusal :=
  doneDev s (fun d =>
    if (portOf d p.val).carries ∧ portRuns d p.val then d.sendCtrl p.val false false false 0 0 else d)

/-! ## Lane changes (R194-R199) -/

/-- LANE_BAD. -/
def execLaneBad (p : Fin 6) (lane : Fin 24) (s : State) : Host.Outcome State Fault Refusal :=
  doneDev s (fun d => d.laneBad p.val lane.val)

/-- The new lanes are chosen from both masks (R194, R195, R197). -/
def Dev.changeLanes (d : Dev) (p : Nat) : Dev :=
  let x := portOf d p
  let all := x.bad ||| x.peerBad
  let both := x.lanes &&& (0xFFFFFF ^^^ (all % 2 ^ 24))
  if chooseWidth x.slow both < d.rd (lnkReg p 0x088) then d.lnkDown p rsWidth
  else
    let d := d.setLanes p both
    d.setLnk p { portOf d p with change := .chosen }

/-- Lane-change ordered sets with the peer's bad mask arrive (R195, R198): they answer this port's own, or begin a change, also one that
begins again after the masks were exchanged, which this port answers with its own mask. -/
def execLaneChangeSet (p : Fin 6) (mask : BitVec 24) (s : State) : Host.Outcome State Fault Refusal :=
  doneDev s (fun d =>
    let p := p.val
    let x := portOf d p
    if x.st.carries ∨ x.st = .hold then
      let d := if x.st = .hold ∧ x.change = .sets then d else d.enterHold p
      (d.setLnk p { portOf d p with peerBad := mask.toNat }).changeLanes p
    else d)

/-- Deskew and FEC lock on the new lanes finish; lane-ready ordered sets go out. -/
def execLaneDeskewDone (p : Fin 6) (s : State) : Host.Outcome State Fault Refusal :=
  doneDev s (fun d =>
    let x := portOf d p.val
    if x.st = .hold ∧ x.change = .chosen then
      (d.setLnk p.val { x with change := .ready }).send (.laneSets p.val x.bad true)
    else d)

/-- The frames that end a hold (R195, R198): a CTRL frame, the frames after the peer's ACK, and a ROT or a ROTACK that was not answered.
A looped-back port carries none (R185). -/
def Dev.holdFrames (d : Dev) (p : Nat) (x : Lnk) : Dev :=
  if (portOf d p).looped then d
  else
    let d := (d.sendCtrl p false false false 0 0).replay p (portOf d p).retry
    let d := match x.rot with | some (g, n) => d.sendCtrl p false true false g n | none => d
    let d := match x.rx.slot (x.rx.gen + 1), x.rotSeen with | some _, some (g, n) => d.sendCtrl p false false true g n | _, _ => d
    d.linkSend p

/-- Lane-ready ordered sets are exchanged: the port is in the state it held before, and its frames go on (R195). -/
def execLaneReady (p : Fin 6) (ack : BitVec 40) (s : State) : Host.Outcome State Fault Refusal :=
  doneDev s (fun d =>
    let p := p.val
    let x := portOf d p
    if x.st = .hold ∧ x.change = .ready then
      let d := (d.wr (lnkReg p 0x0AC) ((d.clk.aon - x.holdStart) * 10)).count (lnkReg p 0x120)
      (d.setLnk p { ackRetry x ack.toNat with st := x.saved, change := .none, peerBad := 0, replaying := none }).holdFrames p x
    else d)

/-- A hold lasts too long (R197). -/
def execHoldTimeout (p : Fin 6) (s : State) : Host.Outcome State Fault Refusal :=
  doneDev s (fun d => if (portOf d p.val).st = .hold then d.lnkDown p.val rsHold else d)

/-- More than half of the active lanes lose lock at once (R197). -/
def execLockLost (p : Fin 6) (s : State) : Host.Outcome State Fault Refusal :=
  doneDev s (fun d =>
    if (portOf d p.val).st.carries ∨ (portOf d p.val).st = .hold then d.lnkDown p.val rsNoSignal else d)

/-- Background equalisation of a widen ends with the lanes that passed at both ends (R199). -/
def execWidenEqualizeDone (p : Fin 6) (lanes : BitVec 24) (s : State) : Host.Outcome State Fault Refusal :=
  doneDev s (fun d =>
    let p := p.val
    let x := portOf d p
    if ¬ (x.widening ∧ x.st.carries) then d
    else
      let m := if x.slow then lanes.toNat % 2 ^ 16 else lanes.toNat
      let both := d.rd (lnkReg p 0x080) ||| m
      let x := { x with widening := false, good := x.good ||| m, bad := x.bad - (x.bad &&& m) }
      let d := (d.setLnk p x).wr (lnkReg p 0x080) both
      if x.width < chooseWidth x.slow both then d.enterHold p else d)

/-! ## Rotation (R200-R202) -/

/-- The transmitter starts a rotation: ROT with a fresh nonce. -/
def Dev.startRotation (d : Dev) (p : Nat) : Dev :=
  let x := portOf d p
  if x.rot = none ∧ x.tx.cur.isSome ∧ (x.carries ∨ x.st = .hold) then
    let n := d.fresh % 2 ^ 256
    let d := d.used.setLnk p { x with rot := some (x.tx.gen + 1, n) }
    if x.st = .hold then d else d.sendCtrl p false true false (x.tx.gen + 1) n
  else d

/-- The exponent at which a key is rotated: LNK_KEY_LIMIT, in compatibility mode at most 32 (R189). -/
def keyLimit (d : Dev) (p : Nat) : Nat :=
  let v := d.rd (lnkReg p 0x090)
  if (portOf d p).compat then min v 32 else v

/-- A frame count under one key reaches 2^LNK_KEY_LIMIT (R201). -/
def execKeyCountLimit (p : Fin 6) (s : State) : Host.Outcome State Fault Refusal :=
  doneDev s (fun d => if (portOf d p.val).keyFrames (2 ^ keyLimit d p.val) then d.startRotation p.val else d)

/-- No ROTACK arrives within 10 us (R202); the timeout pauses during a hold (R198). -/
def execRotResend (p : Fin 6) (s : State) : Host.Outcome State Fault Refusal :=
  doneDev s (fun d =>
    let x := portOf d p.val
    match x.rot with
    | some (g, n) => if x.carries then d.sendCtrl p.val false true false g n else d
    | none => d)

/-- A frame count under one key reaches 2^39 (R202). -/
def execKeyLimit (p : Fin 6) (s : State) : Host.Outcome State Fault Refusal :=
  doneDev s (fun d => if (portOf d p.val).carries ∧ (portOf d p.val).keyFrames (2 ^ 39) then d.lnkDown p.val rsKeyLimit else d)

/-- No good frame arrives for LNK_SILENCE_TIMEOUT (R203). DESIGN CHOICE (log entry 243): a looped-back port, which carries no frame at
all, stays MISWIRED. -/
def execSilence (p : Fin 6) (s : State) : Host.Outcome State Fault Refusal :=
  doneDev s (fun d => if (portOf d p.val).carries then d.lnkDown p.val rsSilence else d)

/-! ## Register commands -/

/-- The effect of a write of LNK_CTRL (R206). -/
def Dev.lnkCtrl (d : Dev) (master p v : Nat) : Nat × Dev :=
  let d := d.plainWrite master (lnkReg p 0x010) v
  let st := (portOf d p).st
  let d := if ¬ v.testBit 0 then d.lnkDown p rsDisabled else d
  let d := if v.testBit 0 ∧ v.testBit 1 then (if st = .down then d else d.lnkDown p 0) else d
  let d := if v.testBit 0 ∧ v.testBit 1 ∧ ¬ portsBarred d ∧ d.domainOn (lnkPage p) then d.lnkTrain p else d
  let d := if v.testBit 2 ∧ (portOf d p).st.carries then d.setLnk p { portOf d p with widening := true } else d
  (OK, if v.testBit 3 then d.startRotation p else d)

/-- A write of LNK_CTRL. -/
def lnkCtrlWrite (master : Byte) (p v : Nat) (s : State) : State :=
  mgmtWrite master.toNat (mAddr (lnkReg p 0x010)) 32 v (devEffect (fun d => d.lnkCtrl master.toNat p v)) s

/-- The ENABLE and COMPAT_ALLOW bits as they stand. -/
def lnkCtrlKept (d : Dev) (p : Nat) : Nat := d.rd (lnkReg p 0x010) &&& 0x11

/-- WIDEN. -/
def execWiden (master : Byte) (p : Fin 6) (s : State) : Host.Outcome State Fault Refusal :=
  done (lnkCtrlWrite master p.val (lnkCtrlKept s.dev p.val + 4) s)

/-- ROTATE. -/
def execRotate (master : Byte) (p : Fin 6) (s : State) : Host.Outcome State Fault Refusal :=
  done (lnkCtrlWrite master p.val (lnkCtrlKept s.dev p.val + 8) s)

/-- LINK_RETRAIN. -/
def execLinkRetrain (master : Byte) (p : Fin 6) (s : State) : Host.Outcome State Fault Refusal :=
  done (lnkCtrlWrite master p.val (lnkCtrlKept s.dev p.val + 2) s)

/-- ENABLE, with the COMPAT_ALLOW bit that the same write carries. -/
def execEnablePort (master : Byte) (p : Fin 6) (enable compat : Bool) (s : State) : Host.Outcome State Fault Refusal :=
  done (lnkCtrlWrite master p.val (b2n enable + 16 * b2n compat) s)

/-- The effect of a write of LNK_ADMIT (R188). DESIGN CHOICE (log entry 199): in a state for which the rule names no effect the write
completes OK and changes nothing. DESIGN CHOICE (log entry 241): a looped-back MISWIRED port, which has no keys, goes to UP too and then
sends its frames in clear. -/
def Dev.lnkAdmit (d : Dev) (p v : Nat) : Nat × Dev :=
  let st := (portOf d p).st
  match bits v 1 0 with
  | 1 =>
    if st = .held ∨ st = .miswired then
      (OK, ((d.setLnk p { portOf d p with st := .up }).linkSend p).agtSettle)
    else (OK, d)
  | 2 => if st = .held then (OK, d.miswire p 5) else (OK, d)
  | _ => (OUT_OF_RANGE, d)

/-- ADMIT. -/
def execAdmitPort (master : Byte) (p : Fin 6) (s : State) : Host.Outcome State Fault Refusal :=
  done (mgmtWrite master.toNat (mAddr (lnkReg p.val 0x0BC)) 32 1 (devEffect (fun d => d.lnkAdmit p.val 1)) s)

/-- MARK_MISWIRED. -/
def execMarkMiswired (master : Byte) (p : Fin 6) (s : State) : Host.Outcome State Fault Refusal :=
  done (mgmtWrite master.toNat (mAddr (lnkReg p.val 0x0BC)) 32 2 (devEffect (fun d => d.lnkAdmit p.val 2)) s)

end Sys2Proof.Machine
end

