-- ==== Sys2Proof/Machine/RemoteAccess.lean ====
section
/-! DEFINITION. Packets from end to end: injection and arrival, remote writes and reads through windows (R215-R217), the ends
of operations (R218), line multicast copies (R233), and the remote-access engine (R219, R220). -/

namespace Sys2Proof.Machine

/-! ## Ends of operations (R218) -/

/-- The array's window writes that a test names have failed: they await no acknowledgement any more (R123). -/
def Dev.dropWrites (d : Dev) (p : Nat → Bool) : Dev :=
  match d.arr.exec with
  | some e =>
    let gone (w : ArrOut) : Bool := p w.n && match w.what with | .window _ _ => true | _ => false
    d.setExec { e with
      unacked := e.unacked.filter (fun w => !gone w)
      broken := (e.unacked.filter gone).map (·.block) ++ e.broken }
  | none => d

/-- The operation of an entry ends with a status, which its engine learns: the entry of a remote access or a mailbox post is
freed; the array frees its own when it drains. -/
def Dev.opEnd (d : Dev) (i st : Nat) : Dev :=
  let e := optEntry d i
  if e.owner = 0 then
    let d := d.optRelease i
    { d with rtr := { d.rtr with
      ra := mapFirst (fun j => j.entry == some i) (fun j => { j with entry := none, ended := some st }) d.rtr.ra } }
  else if e.owner = 1 then (if st = OK then d else d.arrFail st)
  else if e.owner < 1000 then
    let d := d.optRelease i
    let d : Dev := { d with mbx := { d.mbx with remote := d.mbx.remote.filter (fun x => x.1 != e.owner - 2) } }
    d.mbxPostDone (e.owner - 2) st
  else d

/-- How many packets of an operation a positive acknowledgement of a 16-bit SEQ covers: the number after the last one acknowledged
that has this SEQ, when so many have been sent (R217). -/
def OptEntry.covers (e : OptEntry) (seq : Nat) : Nat :=
  let n := e.done + (seq % 2 ^ 16 + 1 + 2 ^ 16 - e.done % 2 ^ 16) % 2 ^ 16
  if n ≤ e.sent then n else e.done

/-- Packets up to a SEQ are acknowledged positively; the operation ends with OK when all are. -/
def Dev.opAck (d : Dev) (i seq : Nat) : Dev :=
  let e := optEntry d i
  let n := e.covers seq
  let d := d.optDone i n
  if e.owner = 1 then
    match d.arr.exec with
    | some x => ((x.unacked.map (·.n)).filter (fun k => decide (k < n))).foldl (fun d k => d.arrAck k OK) d
    | none => d
  else if (optEntry d i).done = e.total then d.opEnd i OK else d

/-- A NACK of the packet with a SEQ ends the operation with its status (R217, R218); an array's write that it refuses has failed. A
source that receives EPOCH_STALE raises its error, and its agent reports it (R238). -/
def Dev.opNack (d : Dev) (i seq st : Nat) : Dev :=
  let d := if st = EPOCH_STALE then (d.raise 0x028 5).send (.report 1 i (bits (d.rd Reg.RTB_LIVE_EPOCH) 31 0)) else d
  let d := d.opEnd i st
  if (optEntry d i).owner = 1 then d.dropWrites (fun n => n % 2 ^ 16 == seq % 2 ^ 16) else d

/-- The destination acknowledges an output write (R119). A LOCAL write takes effect now and is answered by the memory; a
collective's answer is the command's status, and a window's is the acknowledgement of its packet: DONE of the entry counts it (R217,
R296), and an entry that is uncorrectable takes none (R297). -/
def execArrOutputAck (n : Nat) (status : Byte) (s : State) : Host.Outcome State Fault Refusal :=
  match s.dev.arr.exec with
  | none => done s
  | some e =>
    match e.unacked.find? (fun w => w.n == n) with
    | none => done s
    | some w =>
      match w.what with
      | .loc a bs =>
        if gdWaits s.dev (arrUser s.dev false) a bs.length then
          doneDev s (fun d => if status.toNat = OK then d else d.arrAck n status.toNat)
        else
        let r := gdWrite s (arrUser s.dev false) a bs
        done (r.2.onDev (fun d => d.arrAck n (if r.1 = OK then status.toNat else r.1)))
      | .window _ _ =>
        doneDev s (fun d =>
          match e.entry with
          | none => d.arrAck n status.toNat
          | some i =>
            let r := d.optRead i
            if ¬ r.1 then r.2 else if status.toNat = OK then r.2.opAck i n else r.2.opNack i n status.toNat)
      | .collective _ => doneDev s (fun d => d.arrAck n status.toNat)

/-! ## Injection and arrival -/

/-- The packet that injection takes next: the oldest held packet whose channel has no old packet left, which is released, else the
oldest offer (R232). -/
def Dev.nextOffer (d : Dev) : Option (Packet × Bool × Dev) :=
  match takeFirst (fun q => unackedOf d (!liveBit d) q.channel == 0) d.rtr.held with
  | some (q, rest) => some (q, true, { d with rtr := { d.rtr with held := rest } })
  | none =>
    match d.rtr.offers with
    | q :: rest => some (q, false, { d with rtr := { d.rtr with offers := rest } })
    | [] => none

/-- An OPEN was injected: its participation awaits the CREDIT that answers it (R232, R279). -/
def Dev.openInjected (d : Dev) (pkt : Packet) : Dev :=
  if ¬ pkt.isOpen then d
  else match (liveEntry d pkt.opid).bind (partAt d) with
  | some x => d.setPart { x with openOut := x.openOut + 1 }
  | none => d

/-- One offered packet goes to the router: dropped when its operation has ended (R218), held under R232 unless it is `released`, or injected; a
refusal of an acknowledged packet ends its operation (R226). Nothing further is sent for an entry that is uncorrectable (R297). -/
def Dev.injectOffer (d : Dev) (pkt : Packet) (released : Bool) : Dev :=
  let live := liveEntry d pkt.opid
  let e := if pkt.acked then live else none
  if (pkt.acked ∨ pkt.isOpen) ∧ live = none then d
  else if pkt.holds ∧ live.any (fun i => (optEntry d i).bad) then d
  else if ¬ released ∧ mustHold d pkt then { d with rtr := { d.rtr with held := d.rtr.held ++ [pkt] } }
  else
    let r := d.inject pkt
    match e with
    | some i => if r.1 = OK then (r.2.countInjected pkt).optSent i else r.2.opNack i pkt.seq r.1
    | none => if r.1 = OK then (r.2.countInjected pkt).openInjected pkt else r.2

/-- PACKET_INJECT: the next packet, or one named by the command. While the router's island is stopped packets wait (R38). -/
def execPacketInject (o : Option Packet) (s : State) : Host.Outcome State Fault Refusal :=
  doneDev s (fun d =>
    match o with
    | some p => if d.stopped.contains .router then d.offer p else d.injectOffer p false
    | none => if d.stopped.contains .router then d else match d.nextOffer with
      | some (p, released, d) => d.injectOffer p released
      | none => d)

/-- A whole packet has arrived by a port (R209): a wrong HCHK, a LENGTH above 4,096 or a reserved PTYPE is a protocol fault
of the neighbour. DESIGN CHOICE (log entry 247): a wrong HCHK found on arrival raises HCHK and is not counted in RTR_HCHK_COUNT. -/
def Dev.arrive (d : Dev) (a : Arrival) : Dev :=
  if a.chk = .hchk then (d.raise 0x028 0).protocolFault a.port
  else if a.chk = .length ∨ 4096 < a.pkt.length ∨ ¬ (1 ≤ a.pkt.ptype ∧ a.pkt.ptype ≤ 10) then d.protocolFault a.port
  else d.route a.pkt (a.port, a.vc)

/-- PACKET_ARRIVAL. -/
def execPacketArrival (o : Option (Fin 6 × Fin 16 × Packet)) (s : State) : Host.Outcome State Fault Refusal :=
  doneDev s (fun d =>
    match o with
    | some (p, v, pkt) =>
      if d.stopped.contains .router then { d with rtr := { d.rtr with inbox := d.rtr.inbox ++ [⟨p.val, v.val, pkt, .ok⟩] } }
      else d.arrive ⟨p.val, v.val, pkt, .ok⟩
    | none => if d.stopped.contains .router then d else match d.rtr.inbox with
      | a :: rest => ({ d with rtr := { d.rtr with inbox := rest } } : Dev).arrive a
      | [] => d)

/-- The packet of a type that this module consumes next: the one a command names, else the oldest that waits. -/
def Dev.takeSink (d : Dev) (ptype : Nat) (o : Option Packet) : Option (Packet × Dev) :=
  match o with
  | some p => some ({ p with ptype := ptype }, d)
  | none =>
    d.fromSink (fun p => p.ptype == ptype)

/-! ## Acknowledgement at the destination (R217) -/

/-- A positive ACK for a pair. -/
def Dev.ackPair (d : Dev) (a : AckPair) : Dev :=
  d.sendAck ⟨a.ptype, 0, false, false, false, 0, 0, a.src, a.tenant, a.system, 0, a.channel, 0, a.opid, a.seq, []⟩ OK

/-- An accepted packet counts towards its pair's ACK. -/
def Dev.accepted (d : Dev) (p : Packet) : Dev :=
  let old := d.rtr.pairs.find? (fun a => a.src == p.src && a.opid == p.opid)
  let others := d.rtr.pairs.filter (fun a => !(a.src == p.src && a.opid == p.opid))
  let n := (match old with | some a => a.count | none => 0) + 1
  let a : AckPair := ⟨p.src, p.opid, n, p.seq, p.ptype, p.channel, p.tenant, p.system⟩
  if bits (d.rd Reg.RTR_ACK) 7 0 ≤ n ∨ (old = none ∧ 1024 ≤ d.rtr.pairs.length) then
    ({ d with rtr := { d.rtr with pairs := others } } : Dev).ackPair a
  else { d with rtr := { d.rtr with pairs := others ++ [a] } }

/-- ACK_DELAY of a pair has passed. -/
def execAckDelay (src opid : Nat) (s : State) : Host.Outcome State Fault Refusal :=
  doneDev s (fun d =>
    match takeFirst (fun a => a.src == src && a.opid == opid) d.rtr.pairs with
    | some (a, rest) => ({ d with rtr := { d.rtr with pairs := rest } } : Dev).ackPair a
    | none => d)

/-! ## Windows at the destination (R215, R216) -/

/-- The bytes a packet writes through a window, under a permission (R215): the status, and the state after it. -/
def windowStore (s : State) (p : Packet) (perm : Nat) : Nat × State :=
  let st := windowCheck s.dev p.window p.tenant p.system perm p.offset p.length
  if st ≠ OK then (st, s)
  else gdWrite s (windowUser s.dev 8 p.window) (windowAddr s.dev p.window p.offset) p.payload

/-- The memory behind a window does not answer at a range that a packet reaches (R38, R133). -/
def windowWaits (d : Dev) (p : Packet) (n : Nat) : Bool := gdWaits d (windowUser d 8 p.window) (windowAddr d p.window p.offset) n

/-- A packet that cannot be consumed yet stays where it waits; one that a command brings joins those that wait. -/
def keepPacket (s : State) (o : Option Packet) : State :=
  match o with
  | some p => s.onDev (fun d => d.deliver p none)
  | none => s

/-- WRITE. -/
def execWritePkt (o : Option Packet) (s : State) : Host.Outcome State Fault Refusal :=
  match s.dev.takeSink ptWrite o with
  | none => done s
  | some (p, d) =>
    if windowWaits d p p.length then done (keepPacket s o) else
    let r := windowStore { s with dev := d } p 117
    done (r.2.onDev (fun d =>
      if r.1 = OK then { d with rtr := { d.rtr with stored := d.rtr.stored ++ [p] } } else d.nack p r.1))

/-- The Hall has acknowledged the write of the oldest WRITE stored (R217). -/
def execWriteStored (s : State) : Host.Outcome State Fault Refusal :=
  doneDev s (fun d =>
    match d.rtr.stored with
    | p :: rest => ({ d with rtr := { d.rtr with stored := rest } } : Dev).accepted p
    | [] => d)

/-- The answer to a READ_REQ: RET_WINDOW, RET_OFFSET and RLEN of its payload. -/
def readAnswer (p : Packet) (data : List Byte) : Packet :=
  ⟨ptReadResp, 3, false, false, false, p.src, 0, 0, p.tenant, p.system, bits (field p.payload 6 2) 11 0, p.channel,
    field p.payload 0 6, p.opid, p.seq, data⟩

/-- READ_REQ. -/
def execReadReq (o : Option Packet) (s : State) : Host.Outcome State Fault Refusal :=
  match s.dev.takeSink ptReadReq o with
  | none => done s
  | some (p, d) =>
    let n := bits (field p.payload 8 2) 12 0
    if windowWaits d p n then done (keepPacket s o) else
    let st := if 4096 < n then CLASS_INVALID else windowCheck d p.window p.tenant p.system 118 p.offset n
    if st ≠ OK then done { s with dev := d.nack p st }
    else
      let a := windowAddr d p.window p.offset
      let r := gdRead d (windowUser d 8 p.window) a n
      if r.1 ≠ OK then done { s with dev := r.2.nack p r.1 }
      else done { s with dev := { r.2 with rtr := { r.2.rtr with
        reads := r.2.rtr.reads ++ [(readAnswer p (s.mem.bytes a n), [])] } } }

/-- The memory read of the oldest READ_REQ completes, and its READ_RESP is sent. -/
def execReadDataReady (s : State) : Host.Outcome State Fault Refusal :=
  doneDev s (fun d =>
    match d.rtr.reads with
    | (p, _) :: rest => (({ d with rtr := { d.rtr with reads := rest } } : Dev).inject p).2
    | [] => d)

/-- READ_RESP: its bytes are written through the requester's window, and its operation, whose entry is read, counts it or fails; with
an uncorrectable entry it does neither (R297). -/
def execReadResp (o : Option Packet) (s : State) : Host.Outcome State Fault Refusal :=
  match s.dev.takeSink ptReadResp o with
  | none => done s
  | some (p, d) =>
    if windowWaits d p p.length then done (keepPacket s o) else
    let r := windowStore { s with dev := d } p 117
    done (r.2.onDev (fun d =>
      match liveEntry d p.opid with
      | none => d
      | some i =>
        let e := d.optRead i
        if ¬ e.1 then e.2
        else if r.1 = OK then e.2.opAck i (optEntry e.2 i).done else e.2.opNack i p.seq r.1))

/-- MCAST: the local copy is written under MCAST permission; a failed check is counted and answered to nobody. -/
def execMcastPkt (o : Option Packet) (s : State) : Host.Outcome State Fault Refusal :=
  match s.dev.takeSink ptMcast o with
  | none => done s
  | some (p, d) =>
    if windowWaits d p p.length then done (keepPacket s o) else
    let r := windowStore { s with dev := d } p 119
    done (r.2.onDev (fun d =>
      if r.1 = OK then d else { d with rtr := { d.rtr with mcastFailed := d.rtr.mcastFailed + 1 } }))

/-- An ACK at the operation's source (R217, R218). -/
def Dev.takeAck (d : Dev) (p : Packet) : Dev :=
  let st := field p.payload 0 1
  match liveEntry d p.opid with
  | none => if st = OK then d.count Reg.RTR_STALE_ACK_COUNT else d
  | some i =>
    let r := d.optRead i
    let d := r.2
    if ¬ r.1 then d
    else if st ≠ OK then d.opNack i p.seq st
    else if p.src ≠ (optEntry d i).dest then d.count Reg.RTR_STALE_ACK_COUNT
    else d.opAck i p.seq

/-- ACK. -/
def execAckPkt (o : Option Packet) (s : State) : Host.Outcome State Fault Refusal :=
  doneDev s (fun d =>
    match d.takeSink ptAck o with
    | some (p, d) => d.takeAck p
    | none => d)

/-- RTR_OP_TIMEOUT passes for an entry without progress (R218). A collective participation has timers of its own. -/
def execRtrOpTimeout (i : BitVec 12) (s : State) : Host.Outcome State Fault Refusal :=
  doneDev s (fun d =>
    let e := optEntry d i.toNat
    if e.kind ≠ 0 ∧ e.owner < 1000 then
      let d := d.opEnd i.toNat TIMEOUT
      if e.owner = 1 then d.dropWrites (fun _ => true) else d
    else d)

/-! ## The remote-access engine (R219, R220) -/

/-- What the engine's accesses and packets carry. -/
def raUser (d : Dev) : MemUser :=
  ⟨bits (d.rd Reg.RTR_RA_TENANT) 8 0, (d.rd Reg.RTR_RA_TENANT).testBit 9, false, 8⟩

/-- Word `i` of a descriptor, and fields of it. -/
def RaJob.word (j : RaJob) (i : Nat) : Nat := listAt 0 j.words i
def RaJob.op (j : RaJob) : Nat := bits (j.word 0) 31 28
def RaJob.len (j : RaJob) : Nat := j.word 1
def RaJob.localAt (j : RaJob) : Nat := j.word 2 + bits (j.word 3) 15 0 * 2 ^ 32
def RaJob.offset (j : RaJob) : Nat := j.word 6 + bits (j.word 7) 15 0 * 2 ^ 32

/-- The packets of a descriptor: one even when LENGTH is 0 (R220). -/
def RaJob.packets (j : RaJob) : Nat := max 1 ((j.len + 4095) / 4096)

/-- The engine refuses the descriptor (R220). -/
def RaJob.invalid (j : RaJob) : Bool :=
  !(j.op == 1 || j.op == 2) ||
  bits (j.word 0) 25 10 != 0 || (j.word 0).testBit 8 || bits (j.word 3) 31 16 != 0 || bits (j.word 4) 4 0 != 0 ||
  bits (j.word 5) 11 0 != 0 || bits (j.word 7) 31 16 != 0 || (upFrom 8 7).any (fun i => j.word i != 0) ||
  (let c := bits (j.word 0) 27 26
   !(c == 2 || (c == 3 && j.op == 1))) ||
  decide (268435456 < j.len) ||
  (j.op == 1 && j.len != 0 && (gdWing j.localAt j.len).isNone)

/-- The effect of a write of RTR_RA_SUBMIT: the descriptor is read before the write completes. -/
def raSubmitEffect (v : Nat) (s : State) : Nat × State :=
  if 64 ≤ s.dev.rtr.ra.length then (QUEUE_FULL, s)
  else
    let a := v * 64
    let r := gdRead s.dev (raUser s.dev) a 64
    if r.1 ≠ OK then (r.1, { s with dev := r.2.raise 0x028 8 })
    else
      let d := r.2
      (OK, { s with dev := { d with rtr := { d.rtr with
        ra := d.rtr.ra ++ [⟨wordsOf (s.mem.bytes a 64) 16, a, none, false, none⟩] } } })

/-- RTR_RA_SUBMIT. -/
def execRtrRaSubmit (master : Byte) (value : Word) (s : State) : Host.Outcome State Fault Refusal :=
  done (mgmtWrite master.toNat (mAddr Reg.RTR_RA_SUBMIT) 32 value.toNat (raSubmitEffect value.toNat) s)

/-- The descriptor's operation has not begun. -/
def RaJob.fresh (j : RaJob) : Bool := j.entry.isNone && !j.waiting && j.ended.isNone

/-- Packet `k` of a descriptor, with a payload. -/
def raPacket (d : Dev) (j : RaJob) (i k : Nat) (payload : List Byte) : Packet :=
  let u := raUser d
  ⟨if j.op = 1 then ptWrite else ptReadReq, bits (j.word 0) 27 26, false, false, false, bits (j.word 4) 31 17, 0, 0,
    u.tenant, u.system, bits (j.word 4) 16 5, bits (j.word 5) 19 12, (j.offset + 4096 * k) % 2 ^ 48, opidOf d i,
    k % 2 ^ 16, payload⟩

/-- The packets of a descriptor are offered from number `k` on; a source read that fails ends the operation. -/
def raOffer (m : Mem) (j : RaJob) (i : Nat) : Nat → Nat → Dev → Dev
  | 0, _, d => d
  | n + 1, k, d =>
    let len := min 4096 (j.len - 4096 * k)
    if j.op = 1 then
      let r := gdRead d (raUser d) (j.localAt + 4096 * k) len
      if r.1 ≠ OK then r.2.opEnd i r.1
      else raOffer m j i n (k + 1) (r.2.offer (raPacket r.2 j i k (m.bytes (j.localAt + 4096 * k) len)))
    else
      let req := leBytes 6 (j.localAt + 4096 * k) ++ leBytes 2 (bits (j.word 5) 31 20) ++ leBytes 2 len ++ List.replicate 6 0
      raOffer m j i n (k + 1) (d.offer (raPacket d j i k req))

/-- The descriptor takes an operation-table entry and begins to send; `none` when no entry is free. -/
def raBegin (m : Mem) (d : Dev) (j : RaJob) (p : RaJob → Bool) : Option Dev :=
  (d.optTake j.op 0 (bits (j.word 4) 31 17) (bits (j.word 5) 19 12) j.packets 0 2).map (fun r =>
    let d : Dev := { r.2 with rtr := { r.2.rtr with
      ra := mapFirst p (fun j => { j with entry := some r.1, waiting := false }) r.2.rtr.ra } }
    raOffer m j r.1 j.packets 0 d)

/-- The previous descriptor has sent its last packet: none of a remote-access operation is still offered or held. -/
def raSent (d : Dev) : Bool :=
  d.rtr.ra.all (fun j => !j.waiting && match j.entry with
    | some i => (d.rtr.offers ++ d.rtr.held).all (fun q => q.opid != opidOf d i)
    | none => true)

/-- The memory a descriptor reads or writes does not answer (R38, R133). -/
def raWaits (d : Dev) (j : RaJob) : Bool := j.op == 1 && gdWaits d (raUser d) j.localAt j.len

/-- RA_START. -/
def execRaStart (s : State) : Host.Outcome State Fault Refusal :=
  doneDev s (fun d =>
    match d.rtr.ra.find? (fun j => j.fresh), raSent d with
    | some j, true =>
      if raWaits d j then d
      else if j.invalid then
        { d with rtr := { d.rtr with ra := mapFirst (fun j => j.fresh) (fun j => { j with ended := some RA_INVALID }) d.rtr.ra } }
      else (match raBegin s.mem d j (fun j => j.fresh) with
        | some d => d
        | none =>
          ({ d with rtr := { d.rtr with ra := mapFirst (fun j => j.fresh) (fun j => { j with waiting := true }) d.rtr.ra } } : Dev).optWait 0)
    | _, _ => d)

/-- RA_ENTRY_TAKEN. -/
def execRaEntryTaken (s : State) : Host.Outcome State Fault Refusal :=
  doneDev s (fun d =>
    match d.rtr.ra.find? (fun j => j.waiting) with
    | some j => if raWaits d j then d else (raBegin s.mem d j (fun j => j.waiting)).getD d
    | none => d)

/-- RA_COMPLETE: descriptors end in the order they were submitted. -/
def execRaComplete (s : State) : Host.Outcome State Fault Refusal :=
  match s.dev.rtr.ra with
  | j :: rest =>
    (match j.ended with
      | some st =>
        if gdWaits s.dev (raUser s.dev) (j.addr + 60) 4 then done s else
        let w := gdWrite s (raUser s.dev) (j.addr + 60) (leBytes 4 (2 ^ 31 + bits (j.word 0) 7 0 * 2 ^ 8 + st))
        done (w.2.onDev (fun d =>
          let d := if w.1 ≠ OK then d.raise 0x028 8 else d
          let d := ({ d with rtr := { d.rtr with ra := rest } } : Dev).bump Reg.RTR_RA_DONE
          if (j.word 0).testBit 9 then d.notify Reg.RTR_RA_NOTIFY else d))
      | none => done s)
  | [] => done s

end Sys2Proof.Machine
end

