-- ==== Sys2Proof/Machine/Belfry.lean ====
section
/-! DEFINITION. The agent's receive queue and relay (R223, R320, R366), terms (R304-R308), election, heartbeat, takeover and
fencing (R309-R314). -/

namespace Sys2Proof.Machine

/-! ## The receive queue (R223, R366) -/

/-- A message is delivered to the agent. -/
def Dev.agtDeliver (d : Dev) (m : TMsg) : Dev := { d with agt := { d.agt with msgs := d.agt.msgs ++ [m] } }

/-- A message with a wrong tag is discarded and counted (R367); one whose fields are invalid is discarded (R366). -/
def Dev.agtAccept (d : Dev) (m : Option TMsg) (tag : Bool) : Dev :=
  if ¬ tag then d.count Reg.ETH_AUTH_FAIL_COUNT
  else match m with
    | some m => d.agtDeliver m
    | none => d

/-- The packet that a command names, or the oldest MGMT packet delivered here. -/
def takeMgmt (d : Dev) (o : Option Packet) : Option (Packet × Dev) := d.takeSink ptMgmt o

/-- MGMT: a MGMT packet enters the receive queue, relay packets to be relayed, others as messages. -/
def execMgmtPkt (o : Option Packet) (tag : Bool) (s : State) : Host.Outcome State Fault Refusal :=
  doneDev s (fun d =>
    match takeMgmt d o with
    | none => d
    | some (p, d) =>
      if 256 ≤ d.agt.rxq.length + d.agt.msgs.length then { d with agt := { d.agt with dropped := d.agt.dropped + 1 } }
      else if field p.payload 0 1 = 0xB1 then { d with agt := { d.agt with rxq := d.agt.rxq ++ [(p, tag)] } }
      else d.agtAccept (parseTosto (.fabric p.src) 192 p.payload) tag)

/-- A relay packet is discarded (R320). -/
def Dev.relayDrop (d : Dev) : Dev := (d.count Reg.AGT_RELAY_DROP_COUNT).raise 0x069 4

/-- A relay payload as the next hop finds it: the arrival port in place of the element used, NEXT advanced. -/
def relayNext (bs : List Byte) (arrival : Nat) : List Byte :=
  let n := field bs 2 1
  let path := listSet (relayPath bs) n arrival
  slice bs 0 2 ++ [BitVec.ofNat 8 (n + 1)] ++ slice bs 3 5 ++ packPath path ++ bs.drop 32

/-- A relay packet goes its way (R320). -/
def Dev.relay (d : Dev) (p : Packet) (tag : Bool) : Dev :=
  let bs := p.payload
  let len := field bs 1 1
  let n := field bs 2 1
  let arrival := bits p.via 4 2
  if len = 0 ∨ 64 < len ∨ len < n then d.relayDrop
  else if n = len then
    let origin := if (field bs 4 2).testBit 15 then some (bits (field bs 4 2) 14 0) else none
    d.agtAccept (parseTosto (.relay origin (returnPath arrival (relayPath bs)) (field bs 6 2)) 160 (bs.drop 32)) tag
  else
    let port := listAt 0 (relayPath bs) n
    let q := mgmtPacket false 0 (4 * port) (relayNext bs arrival)
    if port ≤ 5 ∧ portTakes d port q then d.offer q else d.relayDrop

/-- RELAY. -/
def execRelay (o : Option Packet) (tag : Bool) (s : State) : Host.Outcome State Fault Refusal :=
  doneDev s (fun d =>
    match o with
    | some p => d.relay p tag
    | none => match d.agt.rxq with
      | (p, t) :: rest => ({ d with agt := { d.agt with rxq := rest } } : Dev).relay p t
      | [] => d)

/-- The message of a family and code that the agent takes next: the one a command names, else the oldest delivered. -/
def takeMsg (d : Dev) (fam code : Nat) (o : Option TMsg) : Option (TMsg × Dev) :=
  match o with
  | some m => some ({ m with family := fam, code := code }, d)
  | none =>
    (takeFirst (fun m => m.family == fam && m.code == code) d.agt.msgs).map (fun r =>
      (r.1, { d with agt := { d.agt with msgs := r.2 } }))

/-- The body of a Belfry message is as the tables of R321 and R359 lay it out. A body of the two messages that are answered with a
status, ROUTE_PREPARE and POLICY_SET, is checked where the answer is made. -/
def belfryBody (code : Nat) (b : List Byte) : Bool :=
  match code with
  | 1 => b.length == 25
  | 2 => b.length == 12
  | 3 => b.length == 13
  | 4 => b.length == 55
  | 5 => b.length == 8
  | 6 => b.length == 6
  | 7 => b.length == 4
  | 8 => b.length == 112
  | 9 => b.length == 14
  | 10 | 11 => decide (1 ≤ field b 2 1 ∧ field b 2 1 ≤ 48) && b.length == 3 + 2 * field b 2 1
  | 12 => b.length == 7
  | 14 => b.length == 8
  | 15 => b.length == 74
  | 17 => b.length == 4
  | _ => true

/-- The meaning of a Belfry message: what the agent does with it, nothing when none waits; one whose body is not as the tables lay it
out is discarded (R18, R366). -/
def onBelfry (code : Nat) (o : Option TMsg) (f : TMsg → Dev → Dev) (s : State) : Host.Outcome State Fault Refusal :=
  doneDev s (fun d => match takeMsg d famBelfry code o with | none => d | some (m, d) => if belfryBody code m.body then f m d else d)

/-! ## Roles and terms (R299, R304, R306) -/

abbrev roAgent : Nat := 0
abbrev roCandidate : Nat := 1
abbrev roStandby : Nat := 2
abbrev roActive : Nat := 3
abbrev roVoter : Nat := 4
abbrev roFenced : Nat := 5

/-- BEL_ROLE.ROLE. -/
def belRole (d : Dev) : Nat := bits (d.rd Reg.BEL_ROLE) 2 0
def Dev.setRole (d : Dev) (v : Nat) : Dev := d.wr Reg.BEL_ROLE (setBits (d.rd Reg.BEL_ROLE) 2 0 v)

/-- This module does the manager's work, and serves the PEAL and JOB families: the active manager, or each voter in trio mode
(R315, R374). -/
def servesJobs (d : Dev) : Bool := belRole d == roActive || (trioMode d && belRole d == roVoter)

/-- This module's rank in the active plan. -/
def myRank (d : Dev) : Option Nat := d.agt.plan.bind (fun x => x.rankOf Config.serial)

/-- The plan gives the module its role: VOTER, CANDIDATE or AGENT; a STANDBY, ACTIVE or FENCED that the plan still names
keeps its role. -/
def Dev.roleFromPlan (d : Dev) : Dev :=
  match d.agt.plan, myRank d with
  | some x, some r =>
    let d := d.wr Reg.BEL_ROLE (setBits (d.rd Reg.BEL_ROLE) 6 4 r)
    if x.trio ∧ r ≤ 2 then d.setRole roVoter
    else if belRole d = roAgent ∨ belRole d = roVoter then d.setRole roCandidate else d
  | _, _ => d.setRole roAgent

/-- A register that names voters is written by a voted write (R317): the module named takes the VOTER role, and one that is named no more
is a CANDIDATE again (R299). -/
def Dev.nameVoters (d : Dev) (key v : Nat) : Dev :=
  let d := d.wr key v
  if (voters d).any (fun x => x.2 == myMa d) then d.setRole roVoter
  else if belRole d = roVoter then d.setRole roCandidate else d

/-- TERM_NOTICE to the sender of a message. -/
def Dev.termNotice (d : Dev) (m : TMsg) : Dev :=
  d.answer m 6 (leBytes 4 (d.rd Reg.AGT_TERM) ++ leBytes 2 (bits (d.rd Reg.AGT_MANAGER) 15 0))

/-- The check of a manager write's term (R306): `OK`, or the refusal. -/
def Dev.termCheck (d : Dev) (m : TMsg) (term : Nat) : Nat × Dev :=
  let at_ := d.rd Reg.AGT_TERM
  if at_ < term then (NO_CLAIM, (d.count Reg.AGT_TERM_STALE_COUNT).termNotice m)
  else if term < at_ then (TERM_STALE, ((d.count Reg.AGT_TERM_STALE_COUNT).raise 0x069 0).termNotice m)
  else if (msgMa m).isSome ∧ msgMa m = managerMa d then (OK, d)
  else (TERM_STALE, (d.count Reg.AGT_TERM_STALE_COUNT).raise 0x069 0)

/-- The fields of a CLAIM that its tag covers (R305). -/
def claimFields (term ma rank serial plan : Nat) : List Byte :=
  leBytes 4 term ++ leBytes 2 ma ++ leBytes 1 rank ++ leBytes 8 serial ++ leBytes 8 plan

/-- A packet of this module that carries a manager write and has not left (R313): a REG WRITE request, or a Belfry message
with a TERM that an agent checks. -/
def isManagerWrite (d : Dev) (p : Packet) : Bool :=
  let relayed := field p.payload 0 1 == 0xB1
  let o := if relayed then 32 else 0
  let fam := field p.payload (o + 1) 1
  let code := field p.payload (o + 2) 1
  p.ptype == ptMgmt && (!relayed || (originMa d == some (bits (field p.payload 4 2) 14 0) && field p.payload 2 1 == 1)) &&
    field p.payload (o + 3) 1 == 0 &&
    ((fam == famReg && code == 2) || (fam == famBelfry && (code == 4 || code == 12 || code == 13 || code == 16)))

/-- Every manager write that has not left the module is withdrawn (R313). -/
def Dev.withdrawWrites (d : Dev) : Dev :=
  { d with rtr := { d.rtr with
    offers := d.rtr.offers.filter (fun p => !isManagerWrite d p)
    held := d.rtr.held.filter (fun p => !isManagerWrite d p)
    c0wait := SMap.mapVals (fun _ => []) (fun q => q.filter (fun p => !isManagerWrite d p)) d.rtr.c0wait
    outq := SMap.mapVals (fun _ => []) (fun q => q.filter (fun x => x.started || x.from_.isSome || !isManagerWrite d x.pkt)) d.rtr.outq } }

/-- The manager's term ends for a higher one: it stops writing and becomes CANDIDATE (R309, R313). -/
def Dev.demote (d : Dev) : Dev :=
  if belRole d = roActive ∨ belRole d = roFenced then
    let d := (d.setRole roCandidate).withdrawWrites
    ({ d with
      mgr := { d.mgr with
        scripts := [], install := none, frontier := [], settling := false, taken := none, copied := none, sets := none, masks := [] }
      bel := { d.bel with mate := none } } : Dev).raise 0x068 3
  else d

/-- CLAIM reaches the agent (R306). -/
def execClaim (o : Option TMsg) (tag : Bool) (s : State) : Host.Outcome State Fault Refusal :=
  onBelfry 4 o (fun m d =>
    let term := field m.body 0 4
    let ma := bits (field m.body 4 2) 14 0
    let rank := field m.body 6 1
    let serial := field m.body 7 8
    let named : Bool := match d.agt.plan with
      | none => true
      | some x => field m.body 15 8 == x.id && x.cands.any (fun c => c.1 == serial && c.2.2 == rank)
    if trioMode d then d
    else if term ≤ d.rd Reg.AGT_TERM then d.termNotice m
    else if ¬ tag ∨ ¬ named then (d.count Reg.AGT_CLAIM_INVALID_COUNT).raise 0x069 1
    else
      let old := d.rd Reg.AGT_TERM
      let d := (d.wr Reg.AGT_TERM term).wr Reg.AGT_MANAGER (0x8000 + ma)
      let d : Dev := { d with agt := { d.agt with path := (match m.src with | .relay _ p _ => some p | _ => none) } }
      let d := d.demote
      d.answer m 5 (leBytes 4 term ++ leBytes 4 old)) s

/-- TERM_NOTICE reaches a manager: one with a higher term ends its term (R309), and any ends FENCED (R313). -/
def execTermNotice (o : Option TMsg) (s : State) : Host.Outcome State Fault Refusal :=
  onBelfry 6 o (fun m d =>
    let term := field m.body 0 4
    if d.rd Reg.BEL_TERM < term ∨ belRole d = roFenced then
      let d : Dev := { d with bel := { d.bel with seenCount := max d.bel.seenCount (term / 8) } }
      d.demote
    else d) s

/-! ## Claiming (R305, R309, R322) -/

/-- The ports over which management travels. -/
def mgmtPorts (d : Dev) : List Nat :=
  (upFrom 0 6).filter (fun p => match (portOf d p).routeSt with | .up | .held | .quarantine | .miswired => true | _ => false)

/-- One relayed message of the manager, with the term's next tag. -/
def Dev.mgrRelay (d : Dev) (path : List Nat) (family code : Nat) (body : List Byte) : Dev :=
  let t := d.mgr.tag
  ({ d with mgr := { d.mgr with tag := (t + 1) % 2 ^ 16 } } : Dev).sendMsg ⟨.relay none path t, family, code, false, t, t, OK, body⟩

/-- One routed message of the manager. -/
def Dev.mgrRouted (d : Dev) (ma family code : Nat) (body : List Byte) : Dev :=
  let t := d.mgr.tag
  ({ d with mgr := { d.mgr with tag := (t + 1) % 2 ^ 16 } } : Dev).sendMsg ⟨.fabric ma, family, code, false, t, t, OK, body⟩

/-- One message of the manager to a module: routed, or by relay where no route leads (R320). -/
def Dev.mgrTo (d : Dev) (ma family code : Nat) (body : List Byte) : Dev :=
  if hasRoute d ma then d.mgrRouted ma family code body
  else match relayPathTo d ma with
    | some p => d.mgrRelay p family code body
    | none => d

/-- The CLAIM of this module's term. -/
def claimBody (d : Dev) : List Byte :=
  let f := claimFields (d.rd Reg.BEL_TERM) (myMa d) ((myRank d).getD 0) Config.serial (match d.agt.plan with | some x => x.id | none => 0)
  f ++ leBytes 32 (Config.claimTag f)

/-- What discovery sends first along a path: CLAIM, or in trio mode DISCOVER, since no CLAIM is used (R315, R322). -/
def Dev.meet (d : Dev) (path : List Nat) : Dev :=
  if trioMode d then d.mgrRelay path famBelfry 7 (leBytes 4 0) else d.mgrRelay path famBelfry 4 (claimBody d)

/-- A relay path joins those that discovery follows; at most 256 exchanges are outstanding (R322). -/
def Dev.explore (d : Dev) (path : List Nat) : Dev :=
  if d.mgr.frontier.contains path ∨ 64 < path.length then d
  else
    let n := d.mgr.frontier.length
    let d : Dev := { d with mgr := { d.mgr with frontier := d.mgr.frontier ++ [path] } }
    if n < 256 then d.meet path else d

/-- An exchange ends; the next path that waited is claimed. -/
def Dev.explored (d : Dev) (path : List Nat) : Dev :=
  let f := d.mgr.frontier.filter (fun p => p != path)
  let was := d.mgr.frontier.length
  let d : Dev := { d with mgr := { d.mgr with frontier := f } }
  if 256 < was ∧ f.length < was then
    (match f.drop 255 with | p :: _ => d.meet p | [] => d)
  else d

/-- A manager's record of a module it has not met. -/
def MgrMod.new : MgrMod := ⟨[], 0, 0, 0, false, [], false, false, [], [], 0⟩
def mgrMod (d : Dev) (ma : Nat) : Option MgrMod := SMap.get (fun _ => none) d.mgr.mods ma
def Dev.setMgrMod (d : Dev) (ma : Nat) (x : Option MgrMod) : Dev :=
  { d with mgr := { d.mgr with mods := SMap.put (fun _ => none) d.mgr.mods ma x } }

/-- RTR_MA gets a value: with VALID an UNADDRESSED agent becomes ADDRESSED and compares its ports with the plan (R324). -/
def Dev.takeMa (d : Dev) (v : Nat) : Dev :=
  let d := d.wr Reg.RTR_MA (bits v 15 0)
  (if v.testBit 15 ∧ agtSt d = agUnaddressed then d.setAgtSt agAddressed else d).agtSettle

/-- A candidate claims (R305): COUNT is one more than the highest it has seen. It becomes ACTIVE, its own agent accepts, its
position comes from the plan, and CLAIM goes to every agent: to every position when routes exist, by relay where a route fails, and
to its neighbours by one-hop relay otherwise. -/
def Dev.claim (d : Dev) : Dev :=
  match d.agt.plan, myRank d with
  | some x, some r =>
    let count := max (d.rd Reg.AGT_TERM / 8) d.bel.seenCount + 1
    let term := (count * 8 + (7 - r)) % 2 ^ 32
    let ma := match x.candidate r with | some c => c.2.1 | none => 0
    let before := managerMa d
    let d := if maValid d then d else d.takeMa (0x8000 + ma)
    let d := ((d.setRole roActive).wr Reg.BEL_TERM term).wr Reg.AGT_TERM term
    let d := d.wr Reg.AGT_MANAGER (0x8000 + myMa d)
    let d : Dev := { d with
      bel := { d.bel with stagger := false, mate := none, peers := [] }
      mgr := { d.mgr with
        mods := SMap.mapVals (fun _ => none) (fun o => o.map (fun y => { y with acked := false })) d.mgr.mods
        copied := none, sets := none, masks := [] } }
    if routesExist d then
      -- what the last term left is read and resolved once the agents have answered (R307, R355)
      let d : Dev := { d with mgr := { d.mgr with taken := some (before.getD (myMa d)), settling := true } }
      ((x.all.filter (fun a => a != myMa d && !x.empty a)).foldl (fun d a => d.mgrTo a famBelfry 4 (claimBody d)) d)
    else (mgmtPorts d).foldl (fun d p => d.explore [p]) d
  | _, _ => d

/-- A voter begins discovery: its position comes from the plan, and it meets its neighbours by relay (R315, R322). -/
def Dev.voterBegins (d : Dev) : Dev :=
  match d.agt.plan, myRank d with
  | some x, some r =>
    let d := if maValid d then d else d.takeMa (0x8000 + x.voter r)
    if routesExist d then
      (x.all.filter (fun a => a != myMa d && !x.empty a)).foldl (fun d a => d.mgrTo a famBelfry 7 (leBytes 4 0)) d
    else (mgmtPorts d).foldl (fun d p => d.explore [p]) d
  | _, _ => d

/-- At the discovery step of bring-up a candidate's wait begins (R309), and a voter begins discovery. DESIGN CHOICE (log entry
221): so does a module that its plan reaches when it is already there. -/
def Dev.atDiscovery (d : Dev) : Dev :=
  if belRole d = roCandidate then { d with bel := { d.bel with stagger := true } }
  else if belRole d = roVoter then d.voterBegins
  else d

/-- CLAIM_STAGGER: the candidate's wait ends (R309). -/
def execClaimStagger (s : State) : Host.Outcome State Fault Refusal :=
  doneDev s (fun d =>
    if ¬ d.bel.stagger ∨ belRole d ≠ roCandidate then d
    else if (managerMa d).isSome ∧ managerMa d ≠ originMa d then { d with bel := { d.bel with stagger := false } }
    else d.claim)

/-- STANDBY: a candidate is appointed by the manager of the term (R310). -/
def execStandby (src : BitVec 15) (term : Word) (s : State) : Host.Outcome State Fault Refusal :=
  doneDev s (fun d =>
    let r := d.termCheck ⟨.fabric src.toNat, famBelfry, 0, false, 0, 0, OK, []⟩ term.toNat
    let d := r.2
    if r.1 = OK ∧ (belRole d = roCandidate ∨ belRole d = roStandby) then
      let d := (d.setRole roStandby).wr Reg.BEL_TERM term.toNat
      { d with bel := { d.bel with mate := some src.toNat, peers := [] } }
    else d)

/-! ## Heartbeat (R311-R313) -/

/-- What is kept of a peer. -/
def HbPeer.new : HbPeer := ⟨0, 0, false, false, 0, 0, none, false⟩
def hbPeer (d : Dev) (ma : Nat) : HbPeer := SMap.get (fun _ => HbPeer.new) d.bel.peers ma
def Dev.setHbPeer (d : Dev) (ma : Nat) (x : HbPeer) : Dev :=
  { d with bel := { d.bel with peers := SMap.put (fun _ => HbPeer.new) d.bel.peers ma x } }

/-- The peers a role exchanges heartbeats with: the mate, or the other voters (R311, R317). -/
def hbMates (d : Dev) : List Nat :=
  if belRole d = roVoter then ((voters d).map (·.2)).filter (fun a => a != myMa d)
  else if belRole d = roActive ∨ belRole d = roStandby ∨ belRole d = roFenced then d.bel.mate.toList
  else []

/-- HEARTBEAT to a peer (R311). -/
def Dev.sendHeartbeat (d : Dev) (ma : Nat) : Dev :=
  d.sendMsg ⟨.fabric ma, famBelfry, 1, false, 0, 0, OK,
    leBytes 4 (d.rd Reg.BEL_TERM) ++ leBytes 4 d.bel.hbSeq ++ leBytes 4 (hbPeer d ma).seq ++
      leBytes 1 (b2n (belRole d == roFenced)) ++ leBytes 4 (d.rd Reg.RTB_LIVE_EPOCH) ++
      leBytes 8 (match d.agt.plan with | some x => x.id | none => 0)⟩

/-- A period's end for one peer: a miss, which is an event at the standby and at a voter, and a period without a newer ACK_SEQ are
counted. -/
def Dev.hbTick (d : Dev) (ma : Nat) : Dev :=
  let x := hbPeer d ma
  let watches := belRole d == roStandby || belRole d == roVoter
  let d := d.setHbPeer ma { x with
    got := false, acked := false,
    misses := if x.got then 0 else x.misses + 1,
    unacked := if x.acked then 0 else x.unacked + 1 }
  if watches ∧ ¬ x.got then d.raise 0x068 0 else d

/-- HB_MISS: at BEL_HB_MISS consecutive misses the standby, or a voter, sends PROBE, routed and relayed (R312, R317). -/
def execHbMiss (s : State) : Host.Outcome State Fault Refusal :=
  doneDev s (fun d =>
    if belRole d ≠ roStandby ∧ belRole d ≠ roVoter then d
    else match (hbMates d).find? (fun a => decide (d.rd Reg.BEL_HB_MISS ≤ (hbPeer d a).misses) && (hbPeer d a).probe.isNone) with
    | none => d
    | some a =>
      let nonce := d.fresh % 2 ^ 64
      let d := d.used.setHbPeer a { hbPeer d a with probe := some nonce }
      let body := leBytes 4 (d.rd Reg.BEL_TERM) ++ leBytes 8 nonce
      let d := d.sendMsg ⟨.fabric a, famBelfry, 2, false, 0, 0, OK, body⟩
      match relayPathTo d a with
      | some p => d.sendMsg ⟨.relay none p 0, famBelfry, 2, false, 0, 0, OK, body⟩
      | none => d)

/-- PROBE reaches a manager or voter, which answers with its FENCED state. -/
def execProbe (o : Option TMsg) (s : State) : Host.Outcome State Fault Refusal :=
  onBelfry 2 o (fun m d =>
    if belRole d = roActive ∨ belRole d = roFenced ∨ belRole d = roVoter then
      d.answer m 3 (leBytes 4 (d.rd Reg.BEL_TERM) ++ slice m.body 4 8 ++ leBytes 1 (b2n (belRole d == roFenced)))
    else d) s

/-- PROBE_ACK: with the current term and FENCED 0 it clears the misses. -/
def execProbeAck (o : Option TMsg) (s : State) : Host.Outcome State Fault Refusal :=
  onBelfry 3 o (fun m d =>
    match (hbMates d).find? (fun a => (hbPeer d a).probe == some (field m.body 4 8)) with
    | none => d
    | some a =>
      if field m.body 0 4 = d.rd Reg.BEL_TERM ∧ ¬ (field m.body 12 1).testBit 0 then
        (d.setHbPeer a { hbPeer d a with probe := none, misses := 0, silent := false }).count Reg.BEL_HB_LATE_COUNT
      else d) s

/-- The lowest-ranked READY candidate that is not one of the modules named (R310, R317); a single-fed one only when no other
is READY (R355). -/
def nextCandidate (d : Dev) (but : List Nat) : Option Nat :=
  match d.agt.plan with
  | none => none
  | some x =>
    let ready (fed : Bool) : Option Nat := ((upFrom 0 8).filterMap x.candidate).findSome? (fun c =>
      match mgrMod d c.2.1 with
      | some y =>
        if bits y.agt 3 0 = agReady ∧ y.acked ∧ ¬ y.lost ∧ (fed → ¬ y.singleFed) ∧ ¬ but.contains c.2.1 then some c.2.1 else none
      | none => none)
    match ready true with
    | some a => some a
    | none => ready false

/-- FENCE: BEL_FENCE_MISS periods have passed without a newer ACK_SEQ of the standby (R313). -/
def execFence (s : State) : Host.Outcome State Fault Refusal :=
  doneDev s (fun d =>
    match d.bel.mate with
    | none => d
    | some a =>
      if belRole d = roActive ∧ d.rd Reg.BEL_FENCE_MISS ≤ (hbPeer d a).unacked then
        (((d.setRole roFenced).count Reg.BEL_FENCE_COUNT).raise 0x068 2).withdrawWrites
      else d)

/-- The active manager appoints a standby; `unacked` periods have passed without a newer ACK_SEQ already. -/
def Dev.appoint (d : Dev) (a unacked : Nat) : Dev :=
  let d : Dev := { d with bel := { d.bel with mate := some a, peers := [] }, mgr := { d.mgr with copied := none } }
  (d.setHbPeer a { HbPeer.new with unacked := unacked }).send (.appoint a (d.rd Reg.BEL_TERM))

/-- Once a bank is LIVE the active manager has a standby: it appoints the lowest-ranked READY candidate when it has none
(R310). -/
def Dev.appointStandby (d : Dev) : Dev :=
  if belRole d ≠ roActive ∨ ¬ routesExist d ∨ d.bel.mate.isSome then d
  else match nextCandidate d [myMa d] with
    | none => d
    | some a => d.appoint a 0

/-- The standby whose heartbeats have stopped is replaced by the next candidate (R355). DEDUCED (log entry 250): at BEL_HB_MISS periods
without one; the periods that count toward the fence run on, so that R314 holds. -/
def Dev.replaceSilent (d : Dev) : Dev :=
  match d.bel.mate with
  | none => d
  | some a =>
    if belRole d = roActive ∧ d.rd Reg.BEL_HB_MISS ≤ (hbPeer d a).misses then
      match nextCandidate d [myMa d, a] with
      | some c => d.appoint c (hbPeer d a).unacked
      | none => d
    else d

/-- HEARTBEAT_PERIOD. -/
def execHeartbeatPeriod (s : State) : Host.Outcome State Fault Refusal :=
  doneDev s (fun d =>
    let alive := decide (d.bel.silent < 2)
    let d := ((hbMates d).foldl (fun d a => d.hbTick a) d).replaceSilent
    let mates := hbMates d
    let d := if alive ∧ mates ≠ [] then
        mates.foldl (fun d a => d.sendHeartbeat a) ({ d with bel := { d.bel with hbSeq := (d.bel.hbSeq + 1) % 2 ^ 32 } } : Dev)
      else d
    { d with bel := { d.bel with silent := min 2 (d.bel.silent + 1) } })

/-! ## The standby's copy (R310) -/

/-- The manager state that the standby is to hold. -/
def mgrCopyOf (d : Dev) : MgrCopy :=
  ⟨d.agt.plan, d.mgr.mods, d.rd Reg.RTB_LIVE_EPOCH, d.mgr.excluded, d.mgr.install, d.mgr.slices⟩

/-- After a change the active manager copies its state to its standby (DESIGN CHOICE, log entry 218). -/
def Dev.copyManager (d : Dev) : Dev :=
  match d.bel.mate with
  | some a =>
    if belRole d = roActive ∧ d.mgr.copied ≠ some (mgrCopyOf d) then
      ({ d with mgr := { d.mgr with copied := some (mgrCopyOf d) } } : Dev).send (.report 8 a 0)
    else d
  | none => d

end Sys2Proof.Machine
end

