-- ==== Sys2Proof/Machine/Mailbox.lean ====
section
/-! DEFINITION. Mailboxes (R394-R415): posts by every path, the FIFO and its reads, the latch, receiver and sender resets, and
the registers of the MBX page. -/

namespace Sys2Proof.Machine

/-! ## The FIFO -/

/-- A master that may hold a latch or pop a FIFO (R394). -/
def mbxReader (m : Nat) : Bool :=
  m == 1 || m == 2 || m == 3 || m == 7 || decide (0x10 ≤ m ∧ m ≤ 0x1F) || m == 0x80 || m == 0x81

/-- A master with compose registers (R412). -/
def mbxSender (m : Nat) : Bool := m == 1 || m == 2 || m == 3 || m == 7

/-- MBXm_CFG. -/
def mbxCfg (d : Dev) (m : Nat) : Nat := d.rd (mbxKey Reg.MBXM_CFG m)

/-- A mailbox is owned by an owner. -/
def mbxOwned (d : Dev) (sys : Bool) (t m : Nat) : Bool :=
  let c := mbxCfg d m
  c.testBit 9 == sys && (sys || bits c 8 0 == t)

/-- An offset of the MBX page that a tenant reads as any master does: its own mailbox's, while it is bound (R435). -/
def mbxExact (d : Dev) (t off : Nat) : Bool := decide (0x800 ≤ off) && mbxOwned d false t ((off - 0x800) / 0x20) && boundTo d t

/-- The 8-bit epoch of a sender (R411). -/
def mbxEpoch (d : Dev) (master : Nat) : Nat := SMap.get (fun _ => 0) d.mbx.epoch master

/-- A sender reset: its epoch advances. -/
def Dev.mbxEpochNext (d : Dev) (master : Nat) : Dev :=
  { d with mbx := { d.mbx with epoch := SMap.put (fun _ => 0) d.mbx.epoch master ((mbxEpoch d master + 1) % 256) } }

/-- A message enters the FIFO, and its doorbell rings after it (R396). -/
def Dev.mbxEnter (d : Dev) (m : Nat) (msg : MbxMsg) (bell : Option Nat) : Dev :=
  let d := if msg.data = [] then d else
    let x := d.mbox m
    (d.setMbox m { x with fifo := x.fifo ++ [msg] }).mbxInterrupt m
  match bell with
  | some n => d.ring m n
  | none => d

/-- A post that does not come from MBX_TX_POST (R398): its status and the device; `offHigh` says that OFFSET[47:14] of its
packet is not 0. -/
def Dev.mbxPost (d : Dev) (m : Nat) (offHigh : Bool) (msg : MbxMsg) (bell : Option Nat) : Nat × Dev :=
  let c := mbxCfg d m
  if (windowCheck.scrubbing d ∨ windowCheck.entersTransit d) ∧ ¬ msg.system then (SCRUB, d)
  else if offHigh then (WINDOW_FAULT, d)
  else if 64 ≤ m then (WINDOW_FAULT, d)
  else if ¬ c.testBit 31 then (RECEIVER_RESET, d)
  else if ¬ c.testBit 30 then (WINDOW_FAULT, d)
  else if c.testBit 9 ≠ msg.system ∨ (¬ msg.system ∧ bits c 8 0 ≠ msg.tenant) then (WINDOW_FAULT, d)
  else if msg.data ≠ [] ∧ 16 ≤ (d.mbox m).fifo.length then (MBX_FULL, (d.count Reg.MBX_FULL_COUNT).raise 0x050 3)
  else (OK, d.mbxEnter m msg bell)

/-- MBX_POST_PACKET (R397, R398). -/
def execMbxPostPacket (o : Option Packet) (s : State) : Host.Outcome State Fault Refusal :=
  doneDev s (fun d =>
    match d.takeSink ptMbxPost o with
    | none => d
    | some (p, d) =>
      let msg : MbxMsg := ⟨p.payload, true, true, p.src, p.system, p.tenant, bits p.offset 7 0⟩
      let r := d.mbxPost p.window (bits p.offset 47 14 != 0) msg
        (if p.offset.testBit 13 then some (bits p.offset 12 8) else none)
      if r.1 = OK then r.2.accepted p else r.2.nack p r.1)

/-! ## Local and remote posts (R399, R412) -/

/-- STATUS of the last post of a master. -/
def Dev.mbxTxStatus (d : Dev) (master st : Nat) : Dev :=
  let k := bankKey master Reg.MBX_TX_STATUS
  d.wr k (setBits (d.rd k) 7 0 st)

/-- A waiting remote post takes an entry when one is free, and its packet is offered. -/
def Dev.mbxRemoteTake (d : Dev) (master : Nat) : Option Dev :=
  match SMap.get (fun _ => none) d.mbx.remote master with
  | none => none
  | some o =>
    (d.optTake 3 (2 + master) o.pkt.dest o.pkt.channel 1 0 2).map (fun r =>
      let m := SMap.put (fun _ => none) r.2.mbx.remote master (some { o with entry := some r.1 })
      ({ r.2 with mbx := { r.2.mbx with remote := m } } : Dev).offer { o.pkt with opid := opidOf r.2 r.1 })

/-- The composed data of a master. -/
def mbxCompose (d : Dev) (master len : Nat) : List Byte :=
  (((upFrom 0 64).map (fun i => leBytes 4 (d.rd (bankKey master (Reg.MBX_TX_DATA + 4 * i))))).flatten).take len

/-- The effect of a write of MBX_TX_POST: the status, or none when the write has to wait for FIFO space. -/
def Dev.mbxTxPost (d : Dev) (master v : Nat) (entry : Bool) : Option Nat × Dev :=
  let m := bits v 29 24
  let len := bits v 8 0
  let rem := d.rd (bankKey master Reg.MBX_TX_REMOTE)
  let remote := rem.testBit 31
  let bell := if v.testBit 15 then some (bits v 20 16) else none
  let data := mbxCompose d master len
  if ¬ mbxSender master then (some ACCESS_DENIED, d)
  else if 256 < len ∨ (remote ∧ ¬ rem.testBit 30 ∧ 224 < len) then (some OUT_OF_RANGE, d)
  else if (d.rd (bankKey master Reg.MBX_TX_STATUS)).testBit 30 then (some QUEUE_FULL, d)
  else if remote then
    let off := mbxEpoch d master + (match bell with | some n => n * 2 ^ 8 + 2 ^ 13 | none => 0)
    let pkt : Packet := ⟨ptMbxPost, if rem.testBit 30 then 2 else 0, false, false, false, bits rem 14 0, 0, 0, 0, true, m,
      bits rem 29 22, off, 0, 0, data⟩
    let r := SMap.put (fun _ => none) d.mbx.remote master (some ⟨pkt, none⟩)
    let d : Dev := { d with mbx := { d.mbx with remote := r } }
    let k := bankKey master Reg.MBX_TX_STATUS
    let d := d.wr k (bits (d.rd k) 29 29 * 2 ^ 29 + 2 ^ 30)
    (some OK, (d.mbxRemoteTake master).getD (d.optWait (2 + master)))
  else
    let msg : MbxMsg := ⟨data, false, true, master, true, 0, mbxEpoch d master⟩
    if ¬ (mbxCfg d m).testBit 31 then (some RECEIVER_RESET, d.mbxTxStatus master RECEIVER_RESET)
    else if len ≠ 0 ∧ 16 ≤ (d.mbox m).fifo.length then
      let x := d.mbox m
      (none, d.setMbox m { x with waits := x.waits ++ [⟨master, msg, bell, entry⟩] })
    else (some OK, (d.mbxEnter m msg bell).mbxTxStatus master OK)

/-- MBX_POST_ENTRY_TAKEN. -/
def execMbxPostEntryTaken (master : Byte) (s : State) : Host.Outcome State Fault Refusal :=
  doneDev s (fun d =>
    match SMap.get (fun _ => none) d.mbx.remote master.toNat with
    | some o => if o.entry = none then (d.mbxRemoteTake master.toNat).getD d else d
    | none => d)

/-! ## Reading (R401-R403) -/

/-- The header word of a message (R414). -/
def MbxMsg.rx (x : MbxMsg) : Nat :=
  2 ^ 31 + b2n x.remote * 2 ^ 30 + b2n x.srcValid * 2 ^ 29 + x.data.length * 2 ^ 20 + x.src % 2 ^ 15

/-- Another master holds the latch. -/
def mbxLatched (d : Dev) (master m : Nat) : Bool := (d.mbox m).holder != 0 && (d.mbox m).holder != master

/-- The waiting post of the lowest master (R400), and the others. -/
def firstWait (ws : List MbxWait) : Option (MbxWait × List MbxWait) :=
  match (ws.map (·.master)).min? with
  | none => none
  | some k => takeFirst (fun w => w.master == k) ws

/-- A post that waited is answered: its write completes, or, for an entry of a message, is taken up by its request. -/
def Dev.mbxPostAnswer (d : Dev) (w : MbxWait) (st : Nat) : Dev :=
  let d := d.mbxTxStatus w.master st
  if w.entry then
    { d with acc := { d.acc with waiting := ⟨w.master, mAddr Reg.MBX_TX_POST, true, 32, 0, OK, true, some st⟩ :: d.acc.waiting } }
  else d.complete w.master (mAddr Reg.MBX_TX_POST) st 0

/-- A freed slot takes a waiting local post, whose write completes OK (R399). -/
def Dev.mbxSlotFreed (d : Dev) (m : Nat) : Dev :=
  let x := d.mbox m
  match firstWait x.waits with
  | some (w, rest) =>
    if x.fifo.length < 16 then
      ((d.setMbox m { x with waits := rest }).mbxEnter m w.msg w.bell).mbxPostAnswer w OK
    else d
  | none => d

/-- A read of MBXm_RX: status, value and device. -/
def Dev.mbxRx (d : Dev) (master m : Nat) : Nat × Nat × Dev :=
  let x := d.mbox m
  if ¬ mbxReader master ∨ mbxLatched d master m then (MBX_LATCHED, 0, d)
  else match x.fifo with
  | [] => (OK, 0, d.setMbox m { x with cur := none, cursor := 0, bad := false })
  | msg :: rest =>
    (OK, msg.rx, (d.setMbox m { x with fifo := rest, cur := some msg, cursor := 0, bad := false }).mbxSlotFreed m)

/-- What the check of a message word finds: an armed check, or what the word itself shows (R402, R415). -/
def Dev.mbxWordCheck (d : Dev) (err : WordErr) : WordErr × Dev :=
  match d.armedFirst 0x050 [0, 1] with
  | some 0 => (if err = .uncorrectable then err else .corrected, d.disarm 0x050 0)
  | some _ => (.uncorrectable, d.disarm 0x050 1)
  | none => (err, d)

/-- A read of MBXm_DATA. -/
def Dev.mbxData (d : Dev) (master m : Nat) (err : WordErr) : Nat × Nat × Dev :=
  let x := d.mbox m
  if ¬ mbxReader master ∨ mbxLatched d master m then (MBX_LATCHED, 0, d)
  else match x.cur with
  | none => (OK, 0, d)
  | some msg =>
    let next := min 64 (x.cursor + 1)
    let w := field msg.data (4 * x.cursor) 4
    if 64 ≤ x.cursor then (OK, 0, d)
    else if x.cursor % 2 = 1 then
      (if x.bad then MBX_UE else OK, if x.bad then 0 else w, d.setMbox m { x with cursor := next, bad := false })
    else
      let r := d.mbxWordCheck err
      let d := r.2
      match r.1 with
      | .corrected =>
        let k := mbxKey Reg.MBXM_STATE m
        let d := (d.count Reg.MBX_CE_COUNT).raise 0x050 0
        let d := d.wr k (setBits (d.rd k) 31 24 (satAdd 8 (bits (d.rd k) 31 24) 1))
        (OK, w, d.setMbox m { x with cursor := next, bad := false })
      | .uncorrectable =>
        (MBX_UE, 0, ((d.count Reg.MBX_UE_COUNT).raise 0x050 1).setMbox m { x with cursor := next, bad := true })
      | .clean => (OK, w, d.setMbox m { x with cursor := next, bad := false })

/-! ## The latch (R404-R406) -/

/-- The masters that would take a free latch, in the arbiter's order: those above its pointer first (R405). -/
def latchOrder (ptr : Nat) (ms : List Nat) : Option Nat :=
  match (ms.filter (fun m => decide (ptr < m))).min? with
  | some m => some m
  | none => ms.min?

/-- Reads of MBXm_LATCH in one cycle: the holder after them and whether the pointer moves. -/
def Dev.latchReads (d : Dev) (m : Nat) (readers : List Nat) : Dev :=
  let x := d.mbox m
  let claim := readers.filter (fun r => mbxReader r && r != 1)
  if x.holder ≠ 0 then d
  else match latchOrder x.ptr claim with
  | none => d
  | some w => d.setMbox m { x with holder := w, ptr := if 1 < claim.length then w else x.ptr }

/-- What a reader of the latch reads after the cycle's claims. -/
def latchValue (d : Dev) (m reader : Nat) : Nat := if (d.mbox m).holder = reader then 0 else (d.mbox m).holder

/-- A receiver reset of mailbox `m` (R409, R410). -/
def Dev.mbxReset (d : Dev) (m : Nat) : Dev :=
  let x := d.mbox m
  let gone := x.fifo.length + (if x.cur.isSome then 1 else 0)
  let k := mbxKey Reg.MBXM_STATE m
  let d := d.wr k (setBits (d.rd k) 15 8 (satAdd 8 (bits (d.rd k) 15 8) gone))
  let d := d.countBy Reg.MBX_DISCARD_COUNT gone
  let senders := [1, 2, 3, 7].filter (fun c => x.fifo.any (fun msg => !msg.remote && msg.src == c))
  let d := senders.foldl (fun d c =>
    let k := bankKey c Reg.MBX_TX_STATUS
    d.wr k (setBits (setBit (d.rd k) 29) 7 0 RECEIVER_RESET)) d
  let d := d.wr (mbxKey Reg.MBXM_DB m) 0
  let d := d.wr (mbxKey Reg.MBXM_CFG m) (clearBit (mbxCfg d m) 31)
  let d := d.setMbox m { Mbx.empty with ptr := x.ptr }
  x.waits.foldl (fun d w => d.mbxPostAnswer w RECEIVER_RESET) d

/-- A write of MBXm_CFG (R406, R409): its other fields first, then RESET or RELEASE. A write refused with MBX_LATCHED
changes nothing. -/
def Dev.mbxCfgWrite (d : Dev) (master m v : Nat) : Nat × Dev :=
  if (v.testBit 29 ∨ v.testBit 28) ∧ mbxLatched d master m ∧ master ≠ 1 then (MBX_LATCHED, d)
  else
    let d := d.plainWrite master (mbxKey Reg.MBXM_CFG m) v
    let d := if v.testBit 28 then d.setMbox m { d.mbox m with holder := 0 } else d
    let d := if v.testBit 29 then d.mbxReset m else d
    (OK, d.mbxInterrupt m)

/-! ## The page -/

/-- A write on the MBX page: the status, none when it waits, and the device. -/
def Dev.mbxWrite (d : Dev) (master off v : Nat) (entry : Bool) : Option Nat × Dev :=
  let key := 0x50000 + off
  if key = Reg.MBX_TX_POST then d.mbxTxPost master v entry
  else if off < 0x080 then (some OK, d.headerWrite master 0x050 off v)
  else if (key = Reg.MBX_TX_REMOTE ∨ key = Reg.MBX_TX_STATUS ∨ (0x400 ≤ off ∧ off < 0x500)) ∧ ¬ mbxSender master then
    (some ACCESS_DENIED, d)
  else if 0x800 ≤ off then
    let m := (off - 0x800) / 0x20
    (match off % 0x20 with
      | 0x10 => let r := d.mbxCfgWrite master m v; (some r.1, r.2)
      | 0x1C => (some OK, (d.plainWrite master key v).mbxInterrupt m)
      | _ => (some OK, d.plainWrite master key v))
  else (some OK, d.plainWrite master key v)

/-- A word with a bit for each mailbox of a half that a test names. -/
def mbxBits (p : Nat → Bool) (lo : Nat) : Nat := sumList ((upFrom 0 32).map (fun i => b2n (p (lo + i)) * 2 ^ i))

/-- A read of a block register of the MBX page; `err` is what the check of a message word finds. -/
def Dev.mbxRead (d : Dev) (master off : Nat) (err : WordErr := .clean) : Nat × Nat × Dev :=
  let key := 0x50000 + off
  if key = Reg.MBX_SIGNAL_LO then (OK, mbxBits d.mbxSignals 0, d)
  else if key = Reg.MBX_SIGNAL_HI then (OK, mbxBits d.mbxSignals 32, d)
  else if key = Reg.MBX_NONEMPTY_LO then (OK, mbxBits (fun m => (d.mbox m).fifo != []) 0, d)
  else if key = Reg.MBX_NONEMPTY_HI then (OK, mbxBits (fun m => (d.mbox m).fifo != []) 32, d)
  else if (key = Reg.MBX_TX_REMOTE ∨ key = Reg.MBX_TX_STATUS ∨ key = Reg.MBX_TX_POST ∨ (0x400 ≤ off ∧ off < 0x500)) ∧
      ¬ mbxSender master then (ACCESS_DENIED, 0, d)
  else if key = Reg.MBX_TX_STATUS then
    let k := bankKey master key
    (OK, d.rd k, d.wr k (clearBit (d.rd k) 29))
  else if 0x800 ≤ off then
    let m := (off - 0x800) / 0x20
    let x := d.mbox m
    (match off % 0x20 with
      | 0x00 => let d := d.latchReads m [master]; (OK, latchValue d m master, d)
      | 0x04 => d.mbxRx master m
      | 0x08 => d.mbxData master m err
      | 0x0C => (OK, (match x.cur with
          | some c => c.sepoch * 2 ^ 24 + b2n c.system * 2 ^ 9 + c.tenant % 512
          | none => 0), d)
      | 0x10 => (OK, d.rd key, d)
      | 0x14 => (OK, d.rd key + x.holder * 2 ^ 16 + x.fifo.length, d)
      | _ => (OK, d.rd key, d))
  else let r := d.plainRead master key; (OK, r.1, r.2)

/-! ## What ends a master -/

/-- MBX_LATCH_TIMEOUT passes without an access by the holder (R406). -/
def execMbxLatchTimeout (m : Fin 64) (s : State) : Host.Outcome State Fault Refusal :=
  doneDev s (fun d =>
    let x := d.mbox m.val
    if x.holder = 0 then d
    else ((d.setMbox m.val { x with holder := 0 }).count Reg.MBX_LATCH_EXPIRED_COUNT).raise 0x050 2)

/-- Posts of a master that wait are given up: nothing is posted (R399, R411). -/
def Dev.mbxAbandon (d : Dev) (master : Nat) : Dev :=
  { d with mbx := { d.mbx with
    box := SMap.mapVals (fun _ => Mbx.empty) (fun x => { x with waits := x.waits.filter (fun w => w.master != master) }) d.mbx.box } }

/-- A list of mailboxes is reset. -/
def Dev.mbxResets (d : Dev) : List Nat → Dev
  | [] => d
  | m :: ms => Dev.mbxResets (d.mbxReset m) ms

/-- A reset of kind B of a core, or the close of a session (R406, R409, R411): its accesses that wait are discarded,
latches it holds are free, and the mailboxes it consumes are reset. -/
def Dev.mbxMasterGone (d : Dev) (master : Nat) : Dev :=
  let d := d.mbxAbandon master
  let d : Dev := { d with acc := { d.acc with waiting := d.acc.waiting.filter (fun a => a.master != master) } }
  let d : Dev := { d with mbx := { d.mbx with
    box := SMap.mapVals (fun _ => Mbx.empty) (fun x => if x.holder = master then { x with holder := 0 } else x) d.mbx.box } }
  d.mbxResets ((upFrom 0 64).filter (fun m => bits (mbxCfg d m) 23 16 == master))

end Sys2Proof.Machine
end

