-- ==== Sys2Proof/Machine/Session.lean ====
section
/-! DEFINITION. The host port: the frame filter (R365, R376, R377), sessions (R368-R370), and the requests that wait for the AGT
hardware (R371). -/

namespace Sys2Proof.Machine

/-! ## Sessions (R368, R369) -/

/-- The key of a slot's ETH_SLOT register. -/
def slotKey (slot : Nat) : Nat := Reg.ETH_SLOT + 4 * slot

/-- A slot serves tenant sessions, and which tenant. -/
def slotTenant (d : Dev) (slot : Nat) : Option Nat :=
  if (d.rd (slotKey slot)).testBit 30 then some (bits (d.rd (slotKey slot)) 8 0) else none

/-- The session of a slot is open. -/
def sessOpen (d : Dev) (slot : Nat) : Bool := (sessOf d slot).st == 2

/-- A session closes, or a reservation ends: the slot is free; what an open session's master held is given up (R369, R406,
R409). -/
def Dev.closeSess (d : Dev) (slot : Nat) : Dev :=
  let d : Dev := { d with acc := { d.acc with runs := d.acc.runs.filter (fun r => r.master != 0x10 + slot) } }
  if sessOpen d slot then
    ((d.setSess slot Session.empty).wr Reg.ETH_SESSIONS (clearBit (d.rd Reg.ETH_SESSIONS) slot)).mbxMasterGone (0x10 + slot)
  else d.setSess slot Session.empty

/-- Several sessions close. -/
def Dev.closeAll (d : Dev) : List Nat → Dev
  | [] => d
  | s :: ss => Dev.closeAll (d.closeSess s) ss

/-- A wrong proof or tag is counted (R367, R369). -/
def Dev.authFail (d : Dev) : Dev := d.count Reg.ETH_AUTH_FAIL_COUNT

/-! ## Frames (R365, R370, R376, R377) -/

/-- A frame is dropped under R365. -/
def Dev.ethDrop (d : Dev) : Dev := d.count Reg.ETH_DROP_COUNT

/-- MACsec secures the port: a live peer and an SA. -/
def msecSecured (d : Dev) : Bool := d.host.mkaPeer && d.host.rxSa != []

/-- The port is filtered under R377. -/
def msecRequired (d : Dev) : Bool := (d.rd Reg.MSEC_MODE).testBit 0

/-- The port takes in what is neither EAPOL nor a Knock: it has power and no stopped island, and under REQUIRED it is secured (R38, R377,
R388). -/
def hostRuns (d : Dev) : Bool := d.powered.core && !d.stopped.contains .host && !(msecRequired d && !msecSecured d)

/-- The family and code that the table *Tosto families* lets through without a session. -/
def openFamily (m : TMsg) : Bool :=
  (m.family == famSession && (m.code == 1 || m.code == 2)) || (m.family == famAtt && m.code == 1) ||
    (m.family == famKey && m.code == 1) || m.family == famImage

/-- The families that the host path carries. -/
def hostFamily (m : TMsg) : Bool := decide (1 ≤ m.family ∧ m.family ≤ 12) && m.family != famBelfry

/-- The SEQ is new to a session: above the highest accepted, or within the 64 below it and not seen (R370). -/
def seqNew (x : Session) (seq : Nat) : Bool :=
  decide (x.high < seq) || (decide (x.high ≤ seq + 64) && !x.seen.testBit (x.high - seq))

/-- The session after a SEQ was accepted; bit i of `seen` stands for `high` - i. -/
def seqTake (x : Session) (seq : Nat) : Session :=
  if x.high < seq then { x with high := seq, seen := (x.seen * 2 ^ min 65 (seq - x.high) + 1) % 2 ^ 65 }
  else { x with seen := setBit x.seen (x.high - seq) }

/-- A Tosto datagram with SESSION 0: it waits when its family needs no session, and is discarded otherwise. -/
def Dev.tostoClient (d : Dev) (m : TMsg) (tagOk fieldsOk : Bool) : Dev :=
  if ¬ openFamily m ∨ ¬ tagOk then d.authFail
  else if ¬ fieldsOk ∨ m.status ≠ 0 ∨ m.family = famImage then d
  else { d with host := { d.host with clients := d.host.clients ++ [m] } }

/-- A Tosto datagram of a session. -/
def Dev.tostoSession (d : Dev) (slot : Fin 16) (m : TMsg) (seq : Nat) (tagOk fieldsOk : Bool) : Dev :=
  let x := sessOf d slot.val
  let m := { m with src := .host slot, seq := seq }
  if x.st ≠ 2 then d.send (.tosto { m with reply := true, status := NO_SESSION, body := [] })
  else if ¬ tagOk then d.authFail
  else match x.cache.find? (fun r => r.seq == seq) with
  | some r => d.send (.tosto r)
  | none =>
    if ¬ seqNew x seq then (d.count Reg.ETH_REPLAY_COUNT).raise 0x040 2
    else
      let d := d.setSess slot.val (seqTake x seq)
      if ¬ fieldsOk ∨ 1408 < m.body.length ∨ ¬ hostFamily m ∨ ¬ codeKnown m.family m.code ∨ m.reply ∨ m.status ≠ 0 then
        d.reply m BAD_MESSAGE []
      else if 8 ≤ x.queue.length then d.reply m QUEUE_FULL []
      else
        let y := seqTake x seq
        d.setSess slot.val { y with queue := y.queue ++ [m] }

/-- A frame that the port takes, by its kind. PTP, RoCEv2, EAPOL and Knock frames go on to commands of their own. -/
def Dev.ethKind (d : Dev) (k : EthKind) : Dev :=
  match k with
  | .arp forUs => if forUs then d.send (.ethAnswer 0) else d
  | .neighbour forUs => if forUs then d.send (.ethAnswer 1) else d
  | .echo _ forUs => if forUs then d.send (.ethAnswer 2) else d
  | .tosto port m session seq tagOk fieldsOk =>
    if port ≠ d.rd Reg.ETH_TOSTO_PORT then d.ethDrop
    else if session = 0 then
      d.tostoClient { m with src := (match m.src with | .client a => .client a | _ => .client 0), seq := seq } tagOk fieldsOk
    else if 0x10 ≤ session ∧ session ≤ 0x1F then d.tostoSession ⟨(session - 0x10) % 16, Nat.mod_lt _ (by decide)⟩ m seq tagOk fieldsOk
    else d.send (.tosto { m with reply := true, status := NO_SESSION, seq := seq, body := [] })
  | .roce | .ptp | .eapol | .knock => d
  | .pfc priority quanta =>
    let v := d.rd Reg.ETH_PFC
    if v.testBit 3 ∧ bits v 2 0 = priority.val then { d with host := { d.host with paused := quanta } } else d.ethDrop
  -- what comes to the Tosto port and is no Tosto message is discarded (R366)
  | .otherUdp port => if port = d.rd Reg.ETH_TOSTO_PORT then d else d.ethDrop
  | .otherType => d.ethDrop

/-- The frame's VLAN tag is as ETH_VLAN has it (R365): the one tag when EN is 1, none when it is 0. -/
def vlanOk (d : Dev) (f : EthFrame) : Bool :=
  if (d.rd Reg.ETH_VLAN).testBit 12 then f.vlan == some (bits (d.rd Reg.ETH_VLAN) 11 0) else f.vlan == none

/-- A protected frame fails its check, or an armed inverted check makes it fail (R393). -/
def Dev.msecIcv (d : Dev) : Dev := (d.count Reg.MSEC_ICV_COUNT).raise 0x041 0

/-- A packet number is accepted under a receive SA (R376): it is at most MSEC_REPLAY_WINDOW below the lowest that was not seen yet. -/
def pnAccepted (d : Dev) (next pn : Nat) : Bool := decide (1 ≤ pn ∧ next ≤ pn + d.rd Reg.MSEC_REPLAY_WINDOW)

/-- The SA of an association number has taken a packet number. -/
def Dev.pnSeen (d : Dev) (an pn : Nat) : Dev :=
  { d with host := { d.host with rxSa := d.host.rxSa.map (fun x => if x.1 = an then (an, max x.2 (pn + 1)) else x) } }

/-- ETH_FRAME. A stopped host island takes in nothing (R38). -/
def execEthFrame (f : EthFrame) (s : State) : Host.Outcome State Fault Refusal :=
  doneDev s (fun d =>
    let knock := f.kind == .knock
    if d.stopped.contains .host then d
    else if 9216 < f.bytes ∨ (¬ knock ∧ ¬ vlanOk d f) then d.ethDrop
    else match f.secured with
    | none =>
      if msecRequired d ∧ ¬ knock ∧ f.kind ≠ .eapol then d.count Reg.MSEC_UNPROTECTED_COUNT
      else if d.powered.core ∨ knock then d.ethKind f.kind else d
    | some x =>
      let armed := d.armed 0x041 0
      let d := if armed then d.disarm 0x041 0 else d
      if msecRequired d ∧ ¬ msecSecured d then d.count Reg.MSEC_UNPROTECTED_COUNT
      else if ¬ x.ok ∨ armed ∨ ¬ d.host.rxSa.any (fun sa => sa.1 == x.an.val && pnAccepted d sa.2 x.pn) then d.msecIcv
      else if d.powered.core then (d.pnSeen x.an.val x.pn).ethKind f.kind else d)

/-! ## Requests that wait (R371) -/

/-- The slots in the order round robin looks at them after the slot served last. -/
def slotOrder (turn : Nat) : List (Fin 16) :=
  (upFrom 1 16).map (fun i => ⟨(turn + i) % 16, Nat.mod_lt _ (by decide)⟩)

/-- The oldest request of the next session whose turn it is, when it is of a family and code; a session waits while an unseal of
its own runs (R431) and while an entry of its request waits (R371). -/
def nextSession (d : Dev) (fam code : Nat) : Option (TMsg × Dev) :=
  (slotOrder d.host.turn).findSome? (fun s =>
    let x := sessOf d s.val
    match x.queue with
    | m :: rest =>
      if m.family = fam ∧ m.code = code ∧ ¬ d.sec.unsealing.any (fun j => j.req.src == .host s) ∧
          ¬ d.acc.runs.any (fun r => r.msg.src == .host s) then
        let d := d.setSess s.val { x with queue := rest }
        some (m, { d with host := { d.host with turn := s.val } })
      else none
    | [] => none)

/-- The request of a family and code that the AGT hardware executes next: the one a command names, else one of a session, of a
client without one, or of the fabric. -/
def takeReq (d : Dev) (fam code : Nat) (o : Option TMsg) : Option (TMsg × Dev) :=
  match o with
  | some m => some ({ m with family := fam, code := code, reply := false }, d)
  | none =>
    match nextSession d fam code with
    | some r => some r
    | none =>
      match takeFirst (fun m => m.family == fam && m.code == code) d.host.clients with
      | some r => some (r.1, { d with host := { d.host with clients := r.2 } })
      | none =>
        (takeFirst (fun m => m.family == fam && m.code == code && !m.reply) d.agt.msgs).map (fun r =>
          (r.1, { d with agt := { d.agt with msgs := r.2 } }))

/-- The master ID a request's accesses carry (R371). -/
def reqMaster (d : Dev) (m : TMsg) : Nat :=
  match m.src with
  | .host slot => 0x10 + slot.val
  | .client _ => 0x81
  | _ =>
    if (msgMa m).isSome ∧ (msgMa m = managerMa d ∨ (trioMode d ∧ (voters d).any (fun v => some v.2 == msgMa m))) then 0x80 else 0x81

/-- The tenant a request comes from: none for the owner and for the fabric. -/
def reqTenant (d : Dev) (m : TMsg) : Option Nat :=
  match m.src with
  | .host slot => slotTenant d slot.val
  | _ => none

/-- The families that travel on the fabric (R367). -/
def fabricFamily (f : Nat) : Bool := [famReg, famMbx, famAtt, famKey, famRec, famStatus].contains f

/-- A request may be executed: `OK`, the status that answers it, or none when it is discarded (R367, R369, R388). -/
def reqAllowed (d : Dev) (m : TMsg) : Option Nat :=
  match m.src with
  | .host slot =>
    if ¬ sessOpen d slot.val then some NO_SESSION
    else if windowCheck.scrubbing d ∧ (slotTenant d slot.val).isSome then some SCRUB
    else some OK
  | .client _ => if openFamily m then some OK else none
  | _ => if fabricFamily m.family then some OK else none

/-- The families that the Keep core answers, while it is stopped: their requests wait (R38, R439). -/
def keepSilent (d : Dev) (fam : Nat) : Bool := (fam == famAtt || fam == famKey) && d.coreStopped 1

/-- A request of a family and code is executed by `f`, or answered or discarded before it is; nothing happens when none waits, or
while the core that answers it is stopped. -/
def onReq (fam code : Nat) (o : Option TMsg) (f : TMsg → State → State) (s : State) : Host.Outcome State Fault Refusal :=
  if keepSilent s.dev fam then done s
  else match takeReq s.dev fam code o with
  | none => done s
  | some (m, d) =>
    let s := { s with dev := d }
    match reqAllowed d m with
    | none => done s
    | some st => if st = OK then done (f m s) else done (s.onDev (fun d => d.reply m st []))

/-- The same for a request that touches the device alone. -/
def onReqDev (fam code : Nat) (o : Option TMsg) (f : TMsg → Dev → Dev) (s : State) : Host.Outcome State Fault Refusal :=
  onReq fam code o (fun m s => s.onDev (f m)) s

/-! ## The SESSION family (R369) -/

/-- A slot that is free and serves a principal. -/
def slotServes (d : Dev) (slot : Nat) (tenant : Option Nat) : Bool :=
  (sessOf d slot).st == 0 && (d.rd (slotKey slot)).testBit 31 && slotTenant d slot == tenant

/-- OPEN: `nonce` is NONCE_M. -/
def execOpenSession (o : Option TMsg) (nonce : Nat) (s : State) : Host.Outcome State Fault Refusal :=
  onReqDev famSession 1 o (fun m d =>
    let kind := field m.body 0 1
    let t := field m.body 2 2
    if m.body.length ≠ 36 ∨ 1 < kind ∨ field m.body 1 1 ≠ 0 ∨ (kind = 1 ∧ 511 < t) then d
    else
      let who := if kind = 1 then some t else none
      match (upFrom 0 16).find? (fun i => slotServes d i who) with
      | none => d.reply m SESSION_FULL []
      | some i =>
        (d.setSess i { Session.empty with st := 1, tenant := who, nonceH := field m.body 4 32, nonceM := nonce % 2 ^ 256 }).reply m OK
          (leBytes 4 i ++ leBytes 32 nonce)) s

/-- An armed inverted check of the key store spoils the next key read (R447). -/
def Dev.storeSpoils (d : Dev) : Bool × Dev :=
  if d.armed 0x059 0 then (true, (d.disarm 0x059 0).raise 0x059 0) else (false, d)

/-- A tenant's session key. -/
def sessKey (d : Dev) (t : Nat) : Option Nat := SMap.get (fun _ => none) d.sec.sessKeys t
def Dev.setSessKey (d : Dev) (t : Nat) (k : Option Nat) : Dev :=
  { d with sec := { d.sec with sessKeys := SMap.put (fun _ => none) d.sec.sessKeys t k } }

/-- The key of a principal as the key store gives it: the owner's (0 when it is zeroised), or a tenant's (R369, R428). A key the
check spoils is zeroised. -/
def Dev.principalKey (d : Dev) (who : Option Nat) : Option Nat × Dev :=
  let r := d.storeSpoils
  match who with
  | none =>
    if r.1 then (none, { r.2 with sec := { r.2.sec with config := r.2.sec.config.map (fun c => { c with session := 0 }) } })
    else ((r.2.sec.config.map (fun c => c.session)).filter (fun k => k != 0), r.2)
  | some t => if r.1 then (none, r.2.setSessKey t none) else (sessKey r.2 t, r.2)

/-- PROVE: `proofOk` says that PROOF is correct for the slot's principal and nonces. -/
def execProve (o : Option TMsg) (proofOk : Bool) (s : State) : Host.Outcome State Fault Refusal :=
  onReqDev famSession 2 o (fun m d =>
    let slot := field m.body 0 1
    let x := sessOf d slot
    if m.body.length ≠ 36 ∨ 15 < slot ∨ field m.body 1 3 ≠ 0 then d
    else
    let r := d.principalKey x.tenant
    let d := r.2
    if x.st = 1 ∧ proofOk ∧ r.1.isSome then
      let d := d.setSess slot { x with st := 2, high := 0, seen := 1, cache := [], queue := [] }
      ((d.wr Reg.ETH_SESSIONS (setBit (d.rd Reg.ETH_SESSIONS) slot)).mbxEpochNext (0x10 + slot)).reply m OK []
    else
      let d := if x.st = 1 then d.setSess slot Session.empty else d
      (d.authFail.raise 0x040 1).reply m AUTH_FAIL []) s

/-- CLOSE, which has no body: the reply leaves before the session closes. -/
def execCloseSession (o : Option TMsg) (s : State) : Host.Outcome State Fault Refusal :=
  onReqDev famSession 3 o (fun m d =>
    match m.src with
    | .host slot => if m.body ≠ [] then d.reply m BAD_MESSAGE [] else (d.reply m OK []).closeSess slot.val
    | _ => d) s

/-- PROVE_TIMEOUT. -/
def execProveTimeout (slot : Fin 16) (s : State) : Host.Outcome State Fault Refusal :=
  doneDev s (fun d => if (sessOf d slot.val).st = 1 then d.setSess slot.val Session.empty else d)

/-- SESSION_IDLE. -/
def execSessionIdle (slot : Fin 16) (s : State) : Host.Outcome State Fault Refusal :=
  doneDev s (fun d => if sessOpen d slot.val then d.closeSess slot.val else d)

/-- The effect of a write of ETH_SLOT (R368). -/
def slotWriteEffect (master slot v : Nat) (s : State) : Nat × State :=
  (OK, s.onDev (fun d => (d.closeSess slot).plainWrite master (slotKey slot) v))

/-- ETH_SLOT_WRITE. -/
def execEthSlotWrite (master : Byte) (slot : Fin 16) (value : Word) (s : State) : Host.Outcome State Fault Refusal :=
  done (mgmtWrite master.toNat (mAddr (slotKey slot.val)) 32 value.toNat
    (slotWriteEffect master.toNat slot.val value.toNat) s)

end Sys2Proof.Machine
end

