-- ==== Sys2Proof/Machine/HostTime.lean ====
section
/-! DEFINITION. MACsec key agreement (R376-R378) and the PTP block with the calendar clock (R382, R383). -/

namespace Sys2Proof.Machine

/-! ## MACsec (R376-R378) -/

/-- MSEC_STATUS with a state and, when SECURED, the transmit AN. -/
def Dev.msecStatus (d : Dev) (v : Nat) : Dev := d.wr Reg.MSEC_STATUS (v + 16 * (d.host.txSa.getD 0 % 4))

/-- 30 s of the 100 MHz clock (R378). -/
def secureLimit : Nat := 3000000000

/-- Strongroom sets MSEC_MODE REQUIRED and writes a record, when the port is secured within 30 s of the key's delivery. -/
def Dev.msecRequire (d : Dev) : Dev :=
  if msecRequired d ∨ secureLimit < d.clk.aon - d.host.cakAt then d
  else (d.wr Reg.MSEC_MODE 1).append 0x14 1 0 [1]

/-- MKA_FRAME. -/
def execMkaFrame (k : MkaStep) (s : State) : Host.Outcome State Fault Refusal :=
  doneDev s (fun d =>
    if d.host.cak = none ∨ ¬ d.powered.core then d
    else match k with
    | .invalid => d
    | .peer =>
      let d : Dev := { d with host := { d.host with mkaPeer := true } }
      if d.host.txSa = none then d.msecStatus 2 else d
    | .sak an =>
      if d.host.mkaPeer then
        let rx := ((an.val, 1) :: d.host.rxSa.filter (fun x => x.1 != an.val)).take 2
        (({ d with host := { d.host with rxSa := rx } } : Dev)).send (.mka 2)
      else d
    | .transmit =>
      match d.host.rxSa with
      | [] => d
      | (an, _) :: _ =>
        if d.host.mkaPeer then
          let d : Dev := { d with host := { d.host with txSa := some an } }
          ((d.count Reg.MSEC_SAK_COUNT).msecStatus 3).msecRequire
        else d)

/-- SAK_PN_LIMIT: the module asks the key server for a new SAK. -/
def execSakPnLimit (an : Fin 4) (s : State) : Host.Outcome State Fault Refusal :=
  doneDev s (fun d => if d.host.txSa = some an.val then d.send (.mka 1) else d)

/-- MKA_LOST: the peer is gone and no SA secures the port. -/
def execMkaLost (s : State) : Host.Outcome State Fault Refusal :=
  doneDev s (fun d =>
    if d.host.mkaPeer then
      let d : Dev := { d with host := { d.host with mkaPeer := false, rxSa := [], txSa := none } }
      (d.msecStatus (if d.host.cak.isSome then 1 else 0)).raise 0x041 1
    else d)

/-- MKA_HELLO: Strongroom sends its hello while it holds a CAK. -/
def execMkaHello (s : State) : Host.Outcome State Fault Refusal :=
  doneDev s (fun d => if d.host.cak.isSome ∧ d.powered.core then d.send (.mka 0) else d)

/-! ## PTP (R382, R383) -/

abbrev ptpFree : Nat := 0
abbrev ptpAcquiring : Nat := 1
abbrev ptpLocked : Nat := 2
abbrev ptpHoldover : Nat := 3

/-- The clock that PTP_GM names, none when it is 0. -/
def ptpNamed (d : Dev) : Option Nat :=
  let g := d.rd Reg.PTP_GM_LO + d.rd Reg.PTP_GM_HI * 2 ^ 32
  if g = 0 then none else some g

/-- A PTP message is taken: its domain and transport are the configured ones, and the port takes it in. -/
def ptpTakes (d : Dev) (h : PtpHdr) : Bool :=
  hostRuns d && h.domain == d.rd Reg.PTP_DOMAIN && h.transport == d.rd Reg.PTP_TRANSPORT

/-- It comes from the time transmitter followed, which is the one that PTP_GM names where it names one. -/
def ptpFrom (d : Dev) (h : PtpHdr) : Bool :=
  ptpTakes d h && d.host.gm == some h.clock && (ptpNamed d).all (fun g => g == h.clock)

/-- An offset in PTP_OFFSET: two's complement, saturating. -/
def offsetWord (x : Int) : Nat :=
  unsigned 32 (if x < -2147483648 then -2147483648 else if 2147483647 < x then 2147483647 else x)

/-- The distance of an offset from 0. -/
def offsetSize (x : Int) : Nat := x.natAbs

/-- The calendar clock steps by an offset; its record carries the old and the new time (R383). -/
def Dev.clockStep (d : Dev) (x : Int) : Dev :=
  let old := d.clk.cal
  let new := unsigned 64 ((old : Int) - x)
  let d : Dev := { d with clk := { d.clk with cal := new }, host := { d.host with slew := 0, gap := d.host.gap - x } }
  ((d.count Reg.PTP_STEP_COUNT).append 0x08 0 0 (leBytes 8 old ++ leBytes 8 new)).raise 0x043 1

/-- The lock count after an offset, and the state it gives. -/
def Dev.ptpLock (d : Dev) (x : Int) : Dev :=
  if offsetSize x ≤ d.rd Reg.PTP_LOCK_NS then
    let n := min 16 (d.host.inLock + 1)
    let d : Dev := { d with host := { d.host with inLock := n } }
    if n = 16 ∧ d.rd Reg.PTP_STATE = ptpAcquiring then d.wr Reg.PTP_STATE ptpLocked else d
  else
    let d : Dev := { d with host := { d.host with inLock := 0 } }
    if d.rd Reg.PTP_STATE = ptpLocked then d.wr Reg.PTP_STATE ptpAcquiring else d

/-- A Sync is complete: the clock is corrected by its offset, and the end-to-end delay is asked for. -/
def Dev.ptpCorrect (d : Dev) (origin receipt : Int) : Dev :=
  let x := receipt - origin - d.host.delay
  let d : Dev := { d with host := { d.host with sync := none, gap := receipt - origin } }
  let d := (d.wr Reg.PTP_OFFSET (offsetWord x)).ptpLock x
  let d := if offsetSize x ≤ 1000000 then ({ d with host := { d.host with slew := x } } : Dev) else d.clockStep x
  d.send .delayReq

/-- SYNC: `origin` and `receipt` are the time it left and, by this clock, the time it came; a two-step Sync waits for its
Follow_Up. -/
def execPtpSync (h : PtpHdr) (twoStep : Bool) (origin receipt : Int) (s : State) : Host.Outcome State Fault Refusal :=
  doneDev s (fun d =>
    if ¬ ptpFrom d h then d
    else if twoStep then ({ d with host := { d.host with sync := some receipt } } : Dev)
    else d.ptpCorrect origin receipt)

/-- FOLLOW_UP. -/
def execFollowUp (h : PtpHdr) (origin : Int) (s : State) : Host.Outcome State Fault Refusal :=
  doneDev s (fun d =>
    match d.host.sync with
    | some r => if ptpFrom d h then d.ptpCorrect origin r else d
    | none => d)

/-- DELAY_RESP: half of the two one-way differences is the path delay. `sent` is the time, by this clock, the Delay_Req left. -/
def execDelayResp (h : PtpHdr) (sent receipt : Int) (s : State) : Host.Outcome State Fault Refusal :=
  doneDev s (fun d =>
    if ptpFrom d h then ({ d with host := { d.host with delay := (d.host.gap + (receipt - sent)) / 2 } } : Dev) else d)

/-- The block follows a time transmitter. -/
def Dev.ptpFollow (d : Dev) (clock : Nat) : Dev :=
  let d : Dev := { d with host := { d.host with gm := some clock, inLock := 0, sync := none, delay := 0, gap := 0 } }
  d.wr Reg.PTP_STATE ptpAcquiring

/-- ANNOUNCE: `best` says that the best master clock algorithm prefers the sender to the clock followed now. -/
def execAnnounce (h : PtpHdr) (best : Bool) (s : State) : Host.Outcome State Fault Refusal :=
  doneDev s (fun d =>
    if ¬ ptpTakes d h ∨ d.host.gm = some h.clock then d
    else match ptpNamed d with
    | some g => if h.clock = g then d.ptpFollow g else d
    | none => if d.host.gm = none ∨ best then d.ptpFollow h.clock else d)

/-- The block enters HOLDOVER: no time transmitter is followed and the clock keeps its last frequency. -/
def Dev.ptpHold (d : Dev) : Dev :=
  if d.rd Reg.PTP_STATE = ptpAcquiring ∨ d.rd Reg.PTP_STATE = ptpLocked then
    let d : Dev := { d with host := { d.host with gm := none, inLock := 0, sync := none, slew := 0 } }
    (d.wr Reg.PTP_STATE ptpHoldover).raise 0x043 0
  else d

/-- ANNOUNCE_TIMEOUT. -/
def execAnnounceTimeout (s : State) : Host.Outcome State Fault Refusal := doneDev s Dev.ptpHold

/-- The engine still waits for an operation-table entry (R120, R219, R262, R412). -/
def optWaits (d : Dev) (owner : Nat) : Bool :=
  if owner = 0 then d.rtr.ra.any (·.waiting)
  else if owner = 1 then (match d.arr.exec with | some e => e.waitEntry && e.failed.isNone | none => false)
  else if owner = 1000 then d.col.checked && d.col.entry.isNone && d.col.waited
  else (match SMap.get (fun _ => none) d.mbx.remote (owner - 2) with | some o => o.entry.isNone | none => false)

/-- OPT WAIT of the requests that have waited longer than 1 ms, 100,000 ticks, each raised once (R297). -/
def Dev.optLate (d : Dev) : List (Nat × Nat) → Dev
  | [] => d
  | (owner, t) :: ws =>
    Dev.optLate (if d.clk.aon + 1 ≤ t + 100000 then d
      else
        let d := if optWaits d owner then d.raise 0x038 2 else d
        { d with optSince := SMap.put (fun _ => 0) d.optSince owner 0 }) ws

/-- One tick of the 100 MHz always-on clock: 10 ns of calendar time, and 1 ns in every 200 ticks of an offset still to slew,
which is 500 ppm (R36, R382, R383). -/
def Dev.tick (d : Dev) : Dev :=
  let n := d.clk.aon + 1
  let slews : Bool := n % 200 == 0 && d.host.slew != 0
  let by_ : Nat := if slews then (if 0 < d.host.slew then 9 else 11) else 10
  let left : Int := if slews then (if 0 < d.host.slew then d.host.slew - 1 else d.host.slew + 1) else d.host.slew
  ({ d with clk := ⟨n, (d.clk.cal + by_) % 2 ^ 64⟩, host := { d.host with slew := left } } : Dev).optLate d.optSince |>.copyManager

end Sys2Proof.Machine
end

