-- ==== Sys2Proof/Machine/Hall.lean ====
section
/-! DEFINITION. The Hall: arbitration of requests (R29, R30), responses and timeouts (R31), and the wing ports in ABSORB and
OFF with the loss of UCIe modules (R27, R32). -/

namespace Sys2Proof.Machine

/-! ## Wing ports (R32) -/

/-- An answer goes to a request's source; one bound for a wing whose port is not ACTIVE is discarded (R32). -/
def Dev.hallReplyTo (d : Dev) (r : HallReq) (st : Nat) : Dev :=
  if r.src.val < 8 ∧ ¬ wingActive d r.src.val then d else d.send (.hallReply r.src.val r.dst.val r.tag st)

/-- A request answered WING_RESET. -/
def Dev.hallRefuse (d : Dev) (r : HallReq) : Dev := (d.count Reg.HALL_WING_RESET_COUNT).hallReplyTo r WING_RESET

/-- Requests answered WING_RESET, oldest first. -/
def Dev.hallRefuses (d : Dev) : List HallReq → Dev
  | [] => d
  | r :: rs => Dev.hallRefuses (d.hallRefuse r) rs

/-- The GDDR7 requests that a wing's devices held are answered WING_RESET, and counted as such (R42). -/
def Dev.lineRefuses (d : Dev) : List GdReq → Dev
  | [] => d
  | .read a _ _ :: rs => Dev.lineRefuses ((d.count Reg.HALL_WING_RESET_COUNT).send (.line a WING_RESET [])) rs
  | .write a _ _ :: rs => Dev.lineRefuses ((d.count Reg.HALL_WING_RESET_COUNT).send (.line a WING_RESET [])) rs

/-- A Hall port cannot be crossed: the Hall's island is stopped, or that of every UCIe module an ACTIVE wing has in use, or of the
CXL controller or the host port behind it (R38). -/
def crossingHeld (d : Dev) (p : Nat) : Bool :=
  d.stopped.contains .hall ||
  (decide (p < 8) && wingActive d p && wingCut d p) ||
  (decide (10 ≤ p ∧ p ≤ 13) && d.cxlStopped (p - 10)) || (p == 14 && d.stopped.contains .host)

/-- Every request that the Hall has for a wing, forwarded or held at its crossing, is answered with WING_RESET at once (R32). -/
def Dev.hallAnswerAll (d : Dev) (w : Nat) : Dev :=
  let here (r : HallReq) : Bool := r.dst.val == w && !crossingHeld d r.src.val
  let gone := d.hall.fwd.filter (fun r => r.dst.val == w) ++ d.hall.waits.filter here
  let d : Dev := { d with hall := { d.hall with
    fwd := d.hall.fwd.filter (fun r => r.dst.val != w)
    waits := d.hall.waits.filter (fun r => !here r)
    expired := d.hall.expired.filter (fun e => e.2 != w) } }
  let held := (d.gddr.waits.filter (fun e => e.1 / 3 == w)).map (·.2)
  let d : Dev := { d with gddr := { d.gddr with waits := SMap.erase (fun k => k / 3 == w) d.gddr.waits } }
  (d.hallRefuses gone).lineRefuses held.flatten

/-- The port of a wing leaves ACTIVE for ABSORB or OFF: what is forwarded to it is answered, and the port shows its state. -/
def Dev.hallLeave (d : Dev) (w v : Nat) : Dev := (d.setWingState w v).hallAnswerAll w

/-- What the loss of a wing does to the array (R122): an operation that holds a tile of it fails with WING_RESET. -/
def Dev.arrWingLost (d : Dev) (w : Nat) : Dev := d.arrFailTiles WING_RESET (fun i => i / 64 == w)

/-- The Hall treats a wing as a wing in reset (R27). -/
def Dev.hallAbsorb (d : Dev) (w : Nat) : Dev := (d.hallLeave w 2).arrWingLost w

/-! ## Arbitration (R29) -/

/-- The weight of a source port. -/
def hallWeight (d : Dev) (p : Nat) : Nat := bits (d.rd (Reg.HALL_WEIGHT0 + 4 * (p / 4))) (8 * (p % 4) + 7) (8 * (p % 4))

/-- The oldest request of a source port among some. -/
def fromPort (rs : List HallReq) (p : Nat) : Option HallReq := rs.find? (fun r => r.src.val == p)

/-- The first of some ports, in order, that has a request and that a test names. -/
def firstPort (rs : List HallReq) (p : Nat → Bool) : List Nat → Option (Nat × HallReq)
  | [] => none
  | i :: is =>
    if p i then (match fromPort rs i with | some r => some (i, r) | none => firstPort rs p is) else firstPort rs p is

/-- The request of a destination port that is served next, with the place of its round robin after it: port 16 first; then
the port served last while some of its weight is left; then the next port with a weight; a port of weight 0 last. -/
def hallPick (d : Dev) (dst : Nat) (rs : List HallReq) : Option (HallReq × Dev) :=
  let turn := SMap.get (fun _ => 15) d.hall.turn dst
  let left := min (SMap.get (fun _ => 0) d.hall.left dst) (hallWeight d turn)
  let place (t l : Nat) : Dev :=
    { d with hall := { d.hall with
        turn := SMap.put (fun _ => 15) d.hall.turn dst t
        left := SMap.put (fun _ => 0) d.hall.left dst l } }
  let order := (upFrom 1 16).map (fun i => (turn + i) % 16)
  match fromPort rs 16 with
  | some r => some (r, d)
  | none =>
    match (if 0 < left then fromPort rs turn else none) with
    | some r => some (r, place turn (left - 1))
    | none =>
      match firstPort rs (fun p => hallWeight d p != 0) order with
      | some x => some (x.2, place x.1 (hallWeight d x.1 - 1))
      | none =>
        match firstPort rs (fun _ => true) order with
        | some x => some (x.2, place x.1 0)
        | none => none

/-- A request is accepted: it is forwarded, or answered WING_RESET when its wing port is not ACTIVE (R32). -/
def Dev.hallAccept (d : Dev) (r : HallReq) : Dev :=
  if r.dst.val < 8 ∧ ¬ wingActive d r.dst.val then d.hallRefuse r
  else ({ d with hall := { d.hall with fwd := d.hall.fwd ++ [r] } } : Dev).send (.hallForward r.src.val r.dst.val r.tag)

/-- The requests that wait for one destination port are served in the order of its arbitration. -/
def Dev.hallServe : Nat → Nat → List HallReq → Dev → Dev
  | 0, _, _, d => d
  | n + 1, dst, rs, d =>
    match hallPick d dst rs with
    | some x => Dev.hallServe n dst (rs.erase x.1) (x.2.hallAccept x.1)
    | none => d

/-- Every destination port serves its own. -/
def Dev.hallPorts (d : Dev) (rs : List HallReq) : List Nat → Dev
  | [] => d
  | p :: ps =>
    let mine := rs.filter (fun r => r.dst.val == p)
    Dev.hallPorts (Dev.hallServe mine.length p mine d) rs ps

/-- Requests that arrive together; none is accepted from a wing whose port is not ACTIVE (R32). -/
def Dev.hallArrive (d : Dev) (rs : List HallReq) : Dev :=
  d.hallPorts (rs.filter (fun r => decide (8 ≤ r.src.val) || wingActive d r.src.val)) (upFrom 0 17)

/-- Requests reach the Hall: those at a crossing that holds them wait (R38). -/
def Dev.hallTake (d : Dev) (rs : List HallReq) : Dev :=
  let held (r : HallReq) : Bool := crossingHeld d r.src.val || crossingHeld d r.dst.val
  ({ d with hall := { d.hall with waits := d.hall.waits ++ rs.filter held } } : Dev).hallArrive (rs.filter (fun r => !held r))

/-- HALL_REQUEST. While an island on its way is stopped a request waits at its crossing (R38). -/
def execHallRequest (reqs : List HallReq) (s : State) : Host.Outcome State Fault Refusal :=
  doneDev s (fun d => if d.powered.core then d.hallTake reqs else d)

/-! ## Responses and timeouts (R31) -/

/-- A response arrives at the Hall: it completes the request at its source, unless the request has completed with TIMEOUT or
WING_RESET, or the source is a wing whose port is not ACTIVE (R32). -/
def Dev.hallAnswer (d : Dev) (r : HallReq) (st : Nat) : Dev :=
  if d.hall.fwd.contains r then
    ({ d with hall := { d.hall with fwd := d.hall.fwd.erase r } } : Dev).hallReplyTo r st
  else d

/-- HALL_RESPONSE. -/
def execHallResponse (src dst : Fin 17) (tag status : Nat) (s : State) : Host.Outcome State Fault Refusal :=
  doneDev s (fun d =>
    if crossingHeld d src.val ∨ crossingHeld d dst.val then
      { d with hall := { d.hall with late := d.hall.late ++ [(⟨src, dst, tag⟩, status)] } }
    else d.hallAnswer ⟨src, dst, tag⟩ status)

/-- The user of a request at a GDDR7 controller, and its address. -/
def GdReq.user : GdReq → MemUser
  | .read _ _ u => u
  | .write _ _ u => u
def GdReq.addr : GdReq → Nat
  | .read a _ _ => a
  | .write a _ _ => a

/-- The oldest request of a source port that a device of a wing holds, and the device's requests without it. -/
def heldLine (d : Dev) (w src : Nat) : Option (Nat × GdReq × List GdReq) :=
  (upFrom (3 * w) 3).findSome? (fun k =>
    (takeFirst (fun q => sameSource q.user.port src) (SMap.get (fun _ => []) d.gddr.waits k)).map (fun x => (k, x)))

/-- The memory of a wing does not answer some address: HALL_TIMEOUT can pass for an access to it. -/
def wingHeld (d : Dev) (w : Nat) : Bool :=
  decide (w < 8) && wingActive d w && (wingCut d w || (upFrom 0 3).any (fun i => gdState d w i == 2 || d.gdStopped w i))

/-- The request that a source's HALL_TIMEOUT ends is completed with TIMEOUT: one forwarded, one held at its destination's crossing,
a line that a device holds, or an engine's access to memory that does not answer, which finds it when it asks next; none where no
such request is. The Hall's own island must run (R38). -/
def Dev.hallExpire (d : Dev) (src dst : Fin 17) (tag : Nat) : Option Dev :=
  let r : HallReq := ⟨src, dst, tag⟩
  if d.stopped.contains .hall then none
  else if d.hall.fwd.contains r then some (d.hallAnswer r TIMEOUT)
  else if d.hall.waits.contains r ∧ ¬ crossingHeld d src.val then
    some (({ d with hall := { d.hall with waits := d.hall.waits.erase r } } : Dev).hallReplyTo r TIMEOUT)
  else match (if dst.val < 8 then heldLine d dst.val src.val else none) with
  | some (k, q, rest) =>
    some (({ d with gddr := { d.gddr with waits := SMap.put (fun _ => []) d.gddr.waits k rest } } : Dev).send (.line q.addr TIMEOUT []))
  | none =>
    if wingHeld d dst.val ∧ ¬ d.hall.expired.contains (src.val, dst.val) then
      some { d with hall := { d.hall with expired := d.hall.expired ++ [(src.val, dst.val)] } }
    else none

/-- An island on the Hall's ways restarts: what waits at crossings that hold no longer completes (R38). -/
def Dev.hallRestart (d : Dev) : Dev :=
  let rs := d.hall.waits
  let d : Dev := { d with hall := { d.hall with expired := d.hall.expired.filter (fun e => wingHeld d e.2) } }
  let held (r : HallReq) : Bool := crossingHeld d r.src.val || crossingHeld d r.dst.val
  let as := d.hall.late.filter (fun a => !held a.1)
  let d : Dev := { d with hall := { d.hall with waits := [], late := d.hall.late.filter (fun a => held a.1) } }
  as.foldl (fun d a => d.hallAnswer a.1 a.2) (d.hallTake rs)

/-! ## UCIe modules (R27) -/

/-- Both modules of a wing have failed: the wing is lost, whether its port was ACTIVE or still OFF (R27, R32). -/
def Dev.wingLost (d : Dev) (w : Nat) : Dev :=
  if wingState d w ≠ 2 then (d.hallAbsorb w).raise 0x010 3 else d

/-- A UCIe module is taken out of use; when the wing's other one is out too, the wing is lost. -/
def Dev.ucieLost (d : Dev) (w m : Nat) : Dev :=
  if ¬ d.powered.wings.testBit w ∨ ucieOut d w m then d
  else
    let d := (d.wr Reg.HALL_UCIE_STATE (setBit (d.rd Reg.HALL_UCIE_STATE) (2 * w + m))).raise 0x010 1
    if ucieOut d w (1 - m) then d.wingLost w else d

/-- UCIE_LOST. -/
def execUcieLost (w : Fin 8) (m : Fin 2) (s : State) : Host.Outcome State Fault Refusal :=
  doneDev s (fun d => d.ucieLost w.val m.val)

/-- WING_LOST: both modules of a wing fail. -/
def execWingLost (w : Fin 8) (s : State) : Host.Outcome State Fault Refusal :=
  doneDev s (fun d => (d.ucieLost w.val 0).ucieLost w.val 1)

end Sys2Proof.Machine
end

