-- ==== Sys2Proof/Machine/Recorder.lean ====
section
/-! DEFINITION. The event recorder (R480-R495): slots and the read form, sealing, software appends, freezing, reading, clearing,
power loss and the scan. -/

namespace Sys2Proof.Machine

/-! ## Slots (R481, R482) -/

/-- A slot that nothing has written. -/
def RecBody.zero : RecBody := ⟨0, 0, 0, 0, false, false, 0, []⟩
def RecSlot.empty : RecSlot := ⟨RecBody.zero, 0, false⟩

/-- The slots of the two areas. -/
def permSlots : Nat := 1024
def circSlots : Nat := 8192

/-- Bytes 12-51 of a record. -/
def RecBody.bytes (b : RecBody) : List Byte :=
  leBytes 8 b.time ++ leBytes 6 b.num ++ leBytes 1 b.kind ++
    leBytes 1 (b.origin % 4 + 4 * b2n b.unsync + 8 * b2n b.perm) ++ leBytes 2 b.source ++ padTo 22 b.data

/-- The seal word of a record. -/
def RecBody.sealOf (b : RecBody) : Nat := (b.num % 2 ^ 32) * 2 ^ 32 + crc32c b.bytes

/-- The slot of an area, permanent (0) or circulating (1). -/
def recSlot (d : Dev) (area n : Nat) : RecSlot := SMap.get (fun _ => RecSlot.empty) (if area = 0 then d.recd.perm else d.recd.circ) n
def Dev.setRecSlot (d : Dev) (area n : Nat) (x : RecSlot) : Dev :=
  if area = 0 then { d with recd := { d.recd with perm := SMap.put (fun _ => RecSlot.empty) d.recd.perm n x } }
  else { d with recd := { d.recd with circ := SMap.put (fun _ => RecSlot.empty) d.recd.circ n x } }

/-- STATE of a slot at read: 0 SEALED, 1 UNSEALED, 2 EMPTY, 3 UE. -/
def RecSlot.state (x : RecSlot) : Nat :=
  if x.ue then 3 else if x.sealWord = 0 then 2 else if x.sealWord = x.body.sealOf then 0 else 1

/-- Permanent slots that are not EMPTY, and the lowest EMPTY one. -/
def permFill (d : Dev) : Nat := (d.recd.perm.filter (fun e => e.2.state != 2)).length
def permFree (d : Dev) : Option Nat := (upFrom 0 permSlots).find? (fun n => (recSlot d 0 n).state == 2)

/-- The read form of a slot (R481). -/
def readForm (area n : Nat) (x : RecSlot) : List Byte :=
  let b := leBytes 8 Config.serial ++ leBytes 2 n ++ leBytes 1 area ++ leBytes 1 x.state ++
    (if x.ue then List.replicate 48 0 else x.body.bytes ++ leBytes 8 x.sealWord)
  b ++ leBytes 4 (crc32c b)

/-- A read of a slot: it is six words of the MRAM (R482), so that each armed check is taken by one of them (R48, R478, R495). -/
def Dev.readSlot (d : Dev) (area n : Nat) : List Byte × Dev :=
  let x := recSlot d area n
  let ce := d.armed 0x061 0
  let ue := d.armed 0x061 1
  let d := if ce then (d.disarm 0x061 0).raise 0x061 0 else d
  let d := if ue then (d.disarm 0x061 1).raise 0x061 1 else d
  (readForm area n { x with ue := x.ue || ue }, if x.ue then d.raise 0x061 1 else d)

/-- Reads of several slots of an area, in their order. -/
def Dev.readSlots (d : Dev) (area : Nat) : List Nat → List Byte × Dev
  | [] => ([], d)
  | n :: ns =>
    let r := d.readSlot area n
    let q := Dev.readSlots r.2 area ns
    (r.1 ++ q.1, q.2)

/-! ## Sealing (R484, R486) -/

/-- A record is written to the circulating area, and to the permanent one while that has an EMPTY slot. -/
def Dev.writeRecord (d : Dev) (b : RecBody) : Dev :=
  let free := permFree d
  let b := { b with perm := free.isSome }
  let x : RecSlot := ⟨b, b.sealOf, false⟩
  let d := match free with | some n => d.setRecSlot 0 n x | none => d
  let d := d.setRecSlot 1 d.recd.head x
  { d with recd := { d.recd with head := (d.recd.head + 1) % circSlots, wrapped := d.recd.wrapped || d.recd.head + 1 == circSlots } }

/-- The entry at the head of the queue is gone: a held record takes the entry that frees. -/
def Dev.recPop (d : Dev) : Dev :=
  match d.recd.held with
  | h :: hs => { d with recd := { d.recd with queue := d.recd.queue.tail ++ [h], held := hs } }
  | [] => { d with recd := { d.recd with queue := d.recd.queue.tail } }

/-- The queue has become empty: R490's flush ends, or a LOST record follows pending losses. -/
def Dev.recEmptied (d : Dev) : Dev :=
  if d.recd.queue ≠ [] then d
  else if d.recd.flushing then { d with recd := { d.recd with flushing := false, stopped := true } }
  else
    let n := d.rd Reg.REC_LOST_PENDING
    let f := d.recd.firstLost.getD (0, 0)
    let last := d.recd.lastLost
    let d : Dev := { d with recd := { d.recd with lossNoted := false, firstLost := none } }
    if n = 0 then d
    else (d.wr Reg.REC_LOST_PENDING 0).append 0x02 0 0 (leBytes 4 n ++ leBytes 2 f.1 ++ leBytes 2 last ++ leBytes 8 f.2)

/-- The queue's head is the CLEAR record of a clear that has not zeroed the seal words yet. -/
def clearAtHead (d : Dev) : Bool :=
  match d.recd.clear, d.recd.queue with
  | some c, b :: _ => c.num == some b.num
  | _, _ => false

/-- The head of the queue is written and sealed; a FREEZE record's freeze takes effect. -/
def Dev.sealHead (d : Dev) : Dev :=
  match d.recd.queue with
  | [] => d
  | b :: _ =>
    let d := (d.writeRecord b).recPop
    let d := if d.recd.freezeAt = some b.num then
        ({ d with recd := { d.recd with freezeAt := none, frozen := true, frozenLost := 0 } } : Dev) else d
    d.recEmptied

/-- RECORD_SEALED. -/
def execRecordSealed (s : State) : Host.Outcome State Fault Refusal :=
  doneDev s (fun d => if d.recd.frozen ∨ ¬ d.recd.ready ∨ clearAtHead d then d else d.sealHead)

/-! ## Software appends (R485) -/

/-- The 24 bytes of a master's REC_SW_DATA. -/
def swData (d : Dev) (master : Nat) : List Byte :=
  ((upFrom 0 6).map (fun i => leBytes 4 (d.rd (bankKey master (Reg.REC_SW_DATA + 4 * i))))).flatten

/-- The effect of a write of REC_SW_APPEND. DESIGN CHOICE (log entry 269): after POWER_LOSS, when no append is taken (R490), it completes
OK and appends nothing. -/
def Dev.swAppend (d : Dev) (master v : Nat) : Nat × Dev :=
  let kind := bits v 7 0
  let keep : Bool := master == 1 && decide (0x10 ≤ kind ∧ kind ≤ 0x16)
  let core : Bool := (master == 2 || master == 3) && decide (0x80 ≤ kind)
  if ¬ keep ∧ ¬ core then (ACCESS_DENIED, d)
  else if 48 ≤ d.recd.queue.length then (QUEUE_FULL, d)
  else (OK, d.append kind (if keep then 1 else 2) (field (swData d master) 0 2) ((swData d master).drop 2))

/-- REC_SW_APPEND. -/
def execRecSwAppend (master : Byte) (value : Word) (s : State) : Host.Outcome State Fault Refusal :=
  done (mgmtWrite master.toNat (mAddr Reg.REC_SW_APPEND) 32 value.toNat
    (devEffect (fun d => d.swAppend master.toNat value.toNat)) s)

/-! ## Freezing (R487) -/

/-- REC_CTRL.FREEZE reads as the freeze stands. -/
def Dev.freezeBit (d : Dev) (on : Bool) : Dev := d.wr (rkey 0x061 0x010) (b2n on)

/-- A freeze is ordered: its record is queued or held, and takes effect once sealed. -/
def Dev.recFreeze (d : Dev) (source : Nat) : Dev :=
  if d.recd.frozen ∨ d.recd.freezeAt.isSome ∨ d.recd.stopped ∨ d.recd.flushing then d
  else
    let n := d.recd.nextNum
    let d := d.appendHeld 0x05 0 source []
    ({ d with recd := { d.recd with freezeAt := some n } } : Dev).freezeBit true

/-- A freeze ends: at once, and the RELEASE record follows it into the queue. -/
def Dev.recRelease (d : Dev) (source cause : Nat) : Dev :=
  if d.recd.frozen ∨ d.recd.freezeAt.isSome then
    let lost := d.recd.frozenLost
    let d : Dev := { d with recd := { d.recd with frozen := false, freezeAt := none, frozenLost := 0 } }
    (d.appendHeld 0x06 0 source (leBytes 1 cause ++ leBytes 4 lost)).freezeBit false
  else d

/-- A freeze or release by command. -/
def Dev.recFreezeTo (d : Dev) (on : Bool) (source : Nat) : Dev := if on then d.recFreeze source else d.recRelease source 0

/-- FREEZE: a write of REC_CTRL. -/
def execRecFreezeWrite (master : Byte) (on : Bool) (s : State) : Host.Outcome State Fault Refusal :=
  done (mgmtWrite master.toNat (mAddr (rkey 0x061 0x010)) 32 (b2n on)
    (devEffect (fun d => (OK, d.recFreezeTo on master.toNat))) s)

/-- REC_FREEZE_LIMIT passes since the freeze took effect. -/
def execRecFreezeLimit (s : State) : Host.Outcome State Fault Refusal :=
  doneDev s (fun d => if d.recd.frozen then d.recRelease 0 1 else d)

/-! ## The REC family (R488, R489) -/

/-- A REC request is checked as an access of the REC page under R56; tenant sessions are refused. -/
def recCheck (d : Dev) (m : TMsg) (write : Bool) : Nat :=
  if (reqTenant d m).isSome then ACCESS_DENIED
  else accessCheck d (reqMaster d m) (mAddr (rkey 0x061 (if write then 0x010 else 0x080))) 32 write 0

/-- A REC request that passes the check, or its refusal. -/
def onRec (code : Nat) (write : Bool) (o : Option TMsg) (f : TMsg → Dev → Dev) (s : State) : Host.Outcome State Fault Refusal :=
  onReqDev famRec code o (fun m d =>
    let st := recCheck d m write
    let d := d.settleStatus (reqMaster d m) (mAddr (rkey 0x061 0x080)) st
    if st ≠ OK then d.reply m st [] else f m d) s

/-- The most records a path carries. -/
def recLimit (m : TMsg) : Nat := match m.src with | .host _ => 20 | .client _ => 20 | _ => 2

/-- The reply body of READ and TAIL: COUNT, 0, SLOT and the records. -/
def recReply (n slot : Nat) (bs : List Byte) : List Byte := leBytes 1 n ++ [0] ++ leBytes 2 slot ++ bs

/-- The slots that a READ of a count from a slot upward returns: the circulating area wraps. -/
def readRange (area slot n : Nat) : List Nat := (upFrom slot n).map (fun i => if area = 1 then i % circSlots else i)

/-- READ. -/
def execRecRead (o : Option TMsg) (s : State) : Host.Outcome State Fault Refusal :=
  onRec 1 false o (fun m d =>
    let area := field m.body 0 1
    let slot := field m.body 2 2
    let n := field m.body 4 1
    if m.body.length ≠ 8 ∨ 1 < area ∨ field m.body 1 1 ≠ 0 ∨ field m.body 5 3 ≠ 0 ∨
        (if area = 0 then permSlots else circSlots) ≤ slot ∨ (area = 0 ∧ permSlots < slot + n) ∨ recLimit m < n then d.reply m BAD_MESSAGE []
    else
      let ns := readRange area slot n
      let r := d.readSlots area ns
      r.2.reply m OK (recReply ns.length slot r.1)) s

/-- The slots of the sealed circulating records with NUM below a bound, the newest `n`, oldest first. -/
def tailSlots (d : Dev) : Nat → Nat → List Nat → List Nat
  | 0, _, acc => acc
  | n + 1, bound, acc =>
    let best := d.recd.circ.foldl (fun (b : Option (Nat × Nat)) e =>
      if e.2.state = 0 ∧ e.2.body.num < bound then
        (match b with
          | some y => if y.2 < e.2.body.num then some (e.1, e.2.body.num) else some y
          | none => some (e.1, e.2.body.num))
      else b) none
    match best with
    | some y => tailSlots d n y.2 (y.1 :: acc)
    | none => acc

/-- TAIL. -/
def execRecTailRead (o : Option TMsg) (s : State) : Host.Outcome State Fault Refusal :=
  onRec 2 false o (fun m d =>
    let n := field m.body 0 1
    if m.body.length ≠ 4 ∨ field m.body 1 3 ≠ 0 ∨ recLimit m < n then d.reply m BAD_MESSAGE []
    else
      let ns := tailSlots d n (2 ^ 48) []
      let r := d.readSlots 1 ns
      r.2.reply m OK (recReply ns.length (ns.head?.getD 0) r.1)) s

/-- TOSTO_REC_FREEZE. -/
def execTostoRecFreeze (o : Option TMsg) (s : State) : Host.Outcome State Fault Refusal :=
  onRec 3 true o (fun m d =>
    if m.body.length ≠ 4 ∨ 1 < field m.body 0 1 ∨ field m.body 1 3 ≠ 0 then d.reply m BAD_MESSAGE []
    else (d.recFreezeTo (field m.body 0 1 == 1) (reqMaster d m)).reply m OK []) s

/-- The request comes from an owner session. -/
def ownerSession (d : Dev) (m : TMsg) : Bool :=
  match m.src with
  | .host slot => (slotTenant d slot.val).isNone
  | _ => false

/-- CLEAR: the CLEAR record is queued or held, with the permanent records that will be removed. After POWER_LOSS it removes none
(DESIGN CHOICE, log entry 269). -/
def execRecClear (o : Option TMsg) (s : State) : Host.Outcome State Fault Refusal :=
  onReqDev famRec 4 o (fun m d =>
    let area := field m.body 0 1
    if ¬ ownerSession d m then d.reply m ACCESS_DENIED []
    else if m.body.length ≠ 4 ∨ (area ≠ 1 ∧ area ≠ 2) ∨ field m.body 1 3 ≠ 0 then d.reply m BAD_MESSAGE []
    else if d.recd.frozen then d.reply m REC_FROZEN []
    else if d.recd.clear.isSome then d.reply m REC_BUSY []
    else if d.recd.stopped ∨ d.recd.flushing then d.reply m OK [0, 0, 0, 0]
    else
      let n := d.recd.nextNum
      let gone := min permSlots (permFill d + d.recd.queue.length + d.recd.held.length)
      let d := d.appendHeld 0x07 0 (reqMaster d m) (leBytes 1 area ++ leBytes 2 gone)
      let d : Dev := { d with recd := { d.recd with clear := some ⟨area, some n, gone⟩ } }
      d.reply m OK (leBytes 2 gone ++ [0, 0])) s

/-- Every seal word of an area reads 0: the slots are EMPTY. -/
def zeroSeals (m : SMap RecSlot) : SMap RecSlot :=
  SMap.mapVals (fun _ => RecSlot.empty) (fun x => { x with sealWord := 0, ue := false }) m

/-- REC_CLEAR_DONE: the seal words are zeroed, the NUM floor (the highest NUM given) and the clear count recorded, and the CLEAR record
written; a freeze that took effect before holds it up (R487, R489). -/
def execRecClearDone (s : State) : Host.Outcome State Fault Refusal :=
  doneDev s (fun d =>
    match d.recd.clear with
    | some c =>
      if clearAtHead d ∧ d.recd.ready ∧ ¬ d.recd.frozen then
        let d : Dev := { d with recd := { d.recd with
          perm := zeroSeals d.recd.perm
          circ := if c.area = 2 then zeroSeals d.recd.circ else d.recd.circ
          numFloor := d.recd.nextNum - 1
          clears := (d.recd.clears + 1) % 2 ^ 32
          clear := none } }
        d.sealHead
      else d
    | none => d)

/-- REC_STATUS (R494). -/
def recStatus (d : Dev) : Nat :=
  statusWord d 0x061 (b2n d.recd.ready * 2 ^ 11 + b2n d.recd.frozen * 2 ^ 10 + b2n d.recd.clear.isSome * 2 ^ 9 +
    b2n d.recd.flushing * 2 ^ 8 + min 65 (d.recd.queue.length + d.recd.held.length))

/-- REC_CIRC_HEAD. -/
def recHead (d : Dev) : Nat := b2n d.recd.wrapped * 2 ^ 31 + d.recd.head

/-- STATE. -/
def execRecState (o : Option TMsg) (s : State) : Host.Outcome State Fault Refusal :=
  onRec 5 false o (fun m d =>
    if m.body ≠ [] then d.reply m BAD_MESSAGE []
    else d.reply m OK (leBytes 4 (recStatus d) ++ leBytes 4 (permFill d) ++ leBytes 4 (recHead d) ++
      leBytes 4 (d.rd Reg.REC_LOST_COUNT))) s

/-- REC_READ_DATA takes 64 bytes. -/
def Dev.loadReadData (d : Dev) (bs : List Byte) : List Nat → Dev
  | [] => d
  | i :: is => Dev.loadReadData (d.wr (Reg.REC_READ_DATA + 4 * i) (field bs (4 * i) 4)) bs is

/-- The effect of a write of REC_READ_SEL. -/
def Dev.readSel (d : Dev) (v : Nat) : Nat × Dev :=
  let area := b2n (v.testBit 31)
  let n := bits v 12 0
  if area = 0 ∧ permSlots ≤ n then (OUT_OF_RANGE, d)
  else
    let r := (d.wr Reg.REC_READ_SEL (v &&& 0x80001FFF)).readSlot area n
    (OK, r.2.loadReadData r.1 (upFrom 0 16))

/-- REC_READ_SEL. -/
def execRecReadSel (master : Byte) (value : Word) (s : State) : Host.Outcome State Fault Refusal :=
  done (mgmtWrite master.toNat (mAddr Reg.REC_READ_SEL) 32 value.toNat (devEffect (fun d => d.readSel value.toNat)) s)

/-! ## Power loss and start (R490, R491) -/

/-- UNDERVOLT holds: the freeze ends, POWER_LOSS takes the reserved entry, and the queue is written out. -/
def Dev.recPowerLoss (d : Dev) : Dev :=
  if d.recd.stopped ∨ d.recd.flushing then d
  else
    let d := d.recRelease 0 3
    let q := d.recd.queue ++ d.recd.held
    let fs := d.rd Reg.PWR_FEED_STATE
    let b := d.recordBody 0x04 0 0 (leBytes 1 (bits fs 1 0) ++ leBytes 1 q.length)
    { d with recd := { d.recd with queue := q ++ [b], held := [], nextNum := d.recd.nextNum + 1, flushing := true } }

/-- The slots of an area in a STATE, and its highest NUM among sealed slots with its slot. -/
def slotsIn (m : SMap RecSlot) (st : Nat) : Nat := (m.filter (fun e => e.2.state == st)).length
def highest (m : SMap RecSlot) : Option (Nat × Nat) :=
  m.foldl (fun b e => if e.2.state = 0 then
    (match b with | some y => if y.2 < e.2.body.num then some (e.1, e.2.body.num) else some y | none => some (e.1, e.2.body.num)) else b) none

/-- The next NUM that the MRAM gives: above the NUM floor and every sealed record's (R483, R491). -/
def scanNext (r : Recorder) : Nat :=
  let above (m : SMap RecSlot) : Nat := match highest m with | some y => y.2 + 1 | none => 0
  max (r.numFloor + 1) (max (above r.circ) (above r.perm))

/-- What is queued is written out, as a loss of power leaves time for (R490, R492). -/
def Dev.recFlush (d : Dev) : Dev :=
  (d.recd.queue ++ d.recd.held).foldl (fun d b => d.writeRecord b) { d with recd := { d.recd with queue := [], held := [] } }

/-- The recorder after a reset of kind P: its MRAM is kept, and NUM goes on above what that holds. -/
def Recorder.powerOn (r : Recorder) : Recorder :=
  { Dev.reset.recd with
    perm := r.perm
    circ := r.circ
    numFloor := r.numFloor
    clears := r.clears
    nextNum := scanNext r }

/-- The scan sets the head and the next NUM from what the areas hold; each slot that it finds uncorrectable raises MRAM_UE (R495). -/
def Dev.recScan (d : Dev) : Dev :=
  let head := match highest d.recd.circ with | some y => (y.1 + 1) % circSlots | none => d.recd.head
  let un := slotsIn d.recd.perm 1 + slotsIn d.recd.circ 1
  let ue := slotsIn d.recd.perm 3 + slotsIn d.recd.circ 3
  let d : Dev := { d with recd := { d.recd with
    head := head
    wrapped := d.recd.circ.any (fun e => decide (head ≤ e.1) && e.2.state != 2)
    nextNum := max d.recd.nextNum (scanNext d.recd)
    ready := true } }
  let d := d.wr Reg.REC_SCAN (un * 2 ^ 16 + ue)
  let d := d.append 0x03 0 0 (leBytes 1 1 ++ leBytes 2 un ++ leBytes 2 ue)
  let d := (upFrom 0 ue).foldl (fun d _ => d.raise 0x061 1) d
  if un = 0 then d else d.raise 0x061 2

end Sys2Proof.Machine
end

