-- ==== Sys2Proof/Machine/Reset.lean ====
section
/-! DEFINITION. Resets: their scopes and how they meet (R507-R509), what each kind does, Belfry's switch-over (R466-R470),
the reset of kind M, and completion. -/

namespace Sys2Proof.Machine

/-! ## Kinds and scopes (R507, R509) -/

abbrev rkTile : Nat := 0
abbrev rkCluster : Nat := 1
abbrev rkWing : Nat := 2
abbrev rkPort : Nat := 3
abbrev rkCore : Nat := 4
abbrev rkModule : Nat := 5

/-- The causes of RST_LAST. -/
abbrev rcRequest : Nat := 0
abbrev rcTocsin : Nat := 1
abbrev rcKnock : Nat := 2
abbrev rcPin : Nat := 3
abbrev rcDebug : Nat := 4
abbrev rcLifeCycle : Nat := 5
abbrev rcPower : Nat := 6

/-- The bit of a reset kind in LASTRESET and in the Restored by columns (R47). -/
def kindBit (k : Nat) : Nat := if k = 0 then 4 else if k = 1 then 3 else if k = 2 then 2 else if k = 3 then 5 else if k = 4 then 6 else 1

/-- A reset covers another one's scope. -/
def ResetRun.covers (a b : ResetRun) : Bool :=
  a.kind == rkModule || (a.kind == b.kind && a.target == b.target) ||
  (a.kind == rkWing && ((b.kind == rkCluster && b.target / 8 == a.target) || (b.kind == rkTile && b.target / 64 == a.target))) ||
  (a.kind == rkCluster && b.kind == rkTile && b.target / 8 == a.target)

/-- A reset is of a kind that clears a source (R448). -/
def ResetRun.clears (a : ResetRun) (s : Nat) : Bool :=
  a.kind == rkModule ||
  (a.kind == rkWing && ((decide (s < 64) && s / 8 == a.target) || s == 112 + a.target ||
    decide (128 + 8 * a.target ≤ s ∧ s < 136 + 8 * a.target))) ||
  (a.kind == rkCluster && decide (s < 64) && s == a.target) ||
  (a.kind == rkPort && decide (192 + 16 * a.target ≤ s ∧ s < 208 + 16 * a.target)) ||
  (a.kind == rkCore && decide (456 ≤ s ∧ s < 472) && !(s == 461 && a.target == 1) && !(s == 462 && a.target == 0))

/-- A clearing reset of a source runs or is held (R452). -/
def clearingRuns (d : Dev) (s : Nat) : Bool := (d.pwr.running ++ d.pwr.held).any (fun r => r.clears s)

/-- A reset of kind M runs or is held. -/
def moduleResets (d : Dev) : Bool := (d.pwr.running ++ d.pwr.held).any (fun r => r.kind == rkModule)

/-- Every page, and the pages of a wing, a cluster. -/
def allBlocks : List Nat := (upFrom 0 0x640).filter (fun b => (pageOf b).isSome)
def wingBlocks (w : Nat) : List Nat := [0x008 + w, 0x090 + w] ++ upFrom (0x400 + 64 * w) 64 ++ upFrom (0x600 + 8 * w) 8
def clusterBlocks (c : Nat) : List Nat := (0x600 + c) :: upFrom (0x400 + 8 * c) 8

/-- The registers of some pages that a kind restores are at their default, and LASTRESET shows the kind (R15, R47). -/
def Dev.resetPages (d : Dev) (kind : Nat) (blocks : List Nat) : Dev :=
  (d.restore (2 ^ kindBit kind) (fun b => blocks.contains b)).lastResets (kindBit kind) blocks

/-- A source that nothing has happened to. -/
def TocSrc.new : TocSrc := ⟨.idle, 0, none⟩

/-- Sources that a test names become IDLE: their windows close and their pages' pending toggles are gone (R452). -/
def Dev.sourcesIdle (d : Dev) (p : Nat → Bool) : Dev :=
  { d with toc := { d.toc with
      src := SMap.mapKV (fun _ => TocSrc.new) (fun s x => if p s then { x with st := .idle, win := none } else x) d.toc.src
      pend := SMap.erase (fun k => p (srcNum (k / 32) (k % 32))) d.toc.pend } }

/-! ## Effects of the small kinds -/

/-- Tiles that are neither off nor disabled clear (R88). -/
def Dev.clearTiles (d : Dev) (ts : List Nat) : Dev :=
  d.mapTiles (fun t => if t.st = .off ∨ t.st = .disabled then t
    else { t.empty with st := .clearing }) ts

/-- The islands of tiles that were stopped run again (R38); a cluster whose PLL has lost lock stays without clock until the PLL locks
(R94). -/
def Dev.tileClocks (d : Dev) (p : Nat → Bool) : Dev :=
  { d with stopped := d.stopped.filter (fun x => match x with | .tile t => !p t.val | _ => true) }

/-- A reset of kind T or C: the running operation fails when it uses a tile of the scope, and the tiles clear. -/
def Dev.resetTiles (d : Dev) (kind : Nat) (p : Nat → Bool) (blocks : List Nat) : Dev :=
  let d := (d.arrFailTiles TILE_RESET p).clearTiles ((upFrom 0 512).filter p)
  (d.resetPages kind blocks).count Reg.RST_CT_COUNT

/-- A reset of kind W. -/
def Dev.resetWing (d : Dev) (w : Nat) : Dev :=
  let d := d.hallAbsorb w
  let d := (d.clearTiles (upFrom (64 * w) 64)).tileClocks (fun i => i / 64 == w)
  let d := d.resetPages rkWing (wingBlocks w)
  let d := d.wr Reg.HALL_UCIE_STATE (setBits (d.rd Reg.HALL_UCIE_STATE) (2 * w + 1) (2 * w) 0)
  let d : Dev := { d with
    pwr := { d.pwr with ucie := setBits d.pwr.ucie (2 * w + 1) (2 * w) 0 }
    gddr := { d.gddr with
      recal := SMap.erase (fun k => k == w) d.gddr.recal
      patrol := SMap.erase (fun k => k / 3 == w) d.gddr.patrol } }
  d.count Reg.RST_W_COUNT

/-- A reset of kind L: at once (R205, R507). -/
def Dev.resetPort (d : Dev) (p : Nat) : Dev :=
  let d := d.lnkDown p rsReset
  let d := d.setLnk p { portOf d p with txFrames := 0, rxFrames := 0 }
  (d.resetPages rkPort [0x020 + p]).sourcesIdle (fun s => (⟨rkPort, p, 0⟩ : ResetRun).clears s)

/-- The master number of core A or B. -/
def coreMaster (b : Bool) : Nat := if b then 3 else 2

/-- A reset of kind B: the core's posts, latches and mailboxes under R406, R409 and R411, its call record, its halt. -/
def Dev.resetCore (d : Dev) (b : Bool) : Dev :=
  let d := (d.mbxMasterGone (coreMaster b)).mbxEpochNext (coreMaster b)
  let call := if b then Reg.BEL_CALL_B else Reg.BEL_CALL_A
  let d : Dev := { d with
    regs := SMap.erase (fun k => decide (call ≤ k ∧ k < call + 0x100) ||
      (k / 0x1000 == 0x068 && decide (k % 0x1000 < 0x80) && (restoredBy k).testBit 6)) d.regs
    sec := { d.sec with coreRegs := d.sec.coreRegs.filter (fun e => e.1 / 2 ^ 16 != b2n b) } }
  (d.wr Reg.DBG_CORE_STATE (clearBit (d.rd Reg.DBG_CORE_STATE) (b2n b))).lastReset 6 0x068

/-! ## Beginning (R508, R509) -/

/-- RST_LAST. -/
def Dev.rstLast (d : Dev) (r : ResetRun) : Dev :=
  d.wr Reg.RST_LAST (2 ^ 31 + r.kind * 2 ^ 28 + r.cause * 2 ^ 24 + r.target)

/-- A reset of a kind other than M begins: it takes over the smaller ones it covers, and its scope is reset. -/
def Dev.enterReset (d : Dev) (r : ResetRun) : Dev :=
  let d : Dev := ({ d with pwr := { d.pwr with
    running := d.pwr.running.filter (fun x => !r.covers x) ++ (if r.kind = rkPort then [] else [r])
    held := d.pwr.held.filter (fun x => !r.covers x) } } : Dev).rstLast r
  if r.kind = rkTile then d.resetTiles rkTile (fun i => i == r.target) [0x400 + r.target]
  else if r.kind = rkCluster then
    (d.resetTiles rkCluster (fun i => i / 8 == r.target) (clusterBlocks r.target)).tileClocks (fun i => i / 8 == r.target)
  else if r.kind = rkWing then d.resetWing r.target
  else if r.kind = rkPort then d.resetPort r.target
  else d.resetCore (r.target == 1)

/-- BEL_SWITCH_STATE.SWITCHING. -/
def switching (d : Dev) : Bool := (d.rd Reg.BEL_SWITCH_STATE).testBit 31

/-- BEL_HEALTH_AGE in us (R479). -/
def healthAge (d : Dev) : Nat := min 0xFFFFFFFF (d.bel.healthAge + (d.clk.aon - d.bel.healthAt) / 100)

/-- The standby counts as healthy (R467). -/
def standbyHealthy (d : Dev) : Bool :=
  (d.rd Reg.BEL_HEALTH).testBit 31 && decide (healthAge d < 1000 * d.rd Reg.BEL_HEALTH_LIMIT)

/-- The triggers of R466 as BEL_SWITCH_STATE codes them. -/
abbrev tgGiveUp : Nat := 1
abbrev tgWatchdog : Nat := 2
abbrev tgResetB : Nat := 3
abbrev tgKnock : Nat := 4
abbrev tgRequest : Nat := 5

/-- The standby core becomes active and takes the trap that tells it so (source number 1,024 in the model); the old standby's
health report does not speak for the new one (R468, R470). -/
def Dev.coreSwitch (d : Dev) (new : Bool) (trig : Nat) : Dev :=
  let d : Dev := { d with bel := { d.bel with active := some new, silent := 0 } }
  let d := (d.wr Reg.BEL_SWITCH_STATE (2 ^ 31 + trig)).wr Reg.BEL_ROLE (setBits (d.rd Reg.BEL_ROLE) 8 8 (b2n new))
  ((d.wr Reg.BEL_HEALTH 0).send (.coreTrap (coreMaster new) 1024)).raise 0x068 7

/-- A trigger of R466, with the status of the command that carries it. A trigger by reset of kind B finds its core already in
reset; on the others the old core is reset, with no cause in RST_LAST that the spec names but Knock's. -/
def Dev.triggerSwitch (d : Dev) (trig : Nat) : Nat × Dev :=
  if switching d then (OK, d)
  else match d.bel.active with
    | some old =>
      if standbyHealthy d then
        let d := d.coreSwitch (!old) trig
        if trig = tgResetB then (OK, d)
        else if trig = tgKnock then (OK, d.enterReset ⟨rkCore, b2n old, rcKnock⟩)
        else (OK, d.used.enterReset ⟨rkCore, b2n old, d.fresh % 16⟩)
      else if trig = tgResetB then
        (OK, ({ d with bel := { d.bel with active := none } } : Dev).wr Reg.BEL_SWITCH_STATE trig)
      else (SWITCH_REFUSED, (d.wr Reg.BEL_SWITCH_STATE (2 ^ 30 + trig)).raise 0x068 8)
    | none => (SWITCH_REFUSED, (d.wr Reg.BEL_SWITCH_STATE (2 ^ 30 + trig)).raise 0x068 8)

/-- A request for a reset: absorbed into one that covers it and runs or is held; a reset of kind M waits for its begin; a
reset of the active core triggers a switch-over, or is absorbed into the one that runs (R466, R508, R509). -/
def Dev.startReset (d : Dev) (r : ResetRun) : Dev :=
  if (d.pwr.running ++ d.pwr.held).any (fun x => x.covers r) then d
  else if r.kind = rkModule then
    (if d.pwr.due.isEmpty then { d with pwr := { d.pwr with due := [r] } } else d)
  else if r.kind = rkCore ∧ d.bel.active = some (r.target == 1) then
    (if switching d then d else ((d.enterReset r).triggerSwitch tgResetB).2)
  else d.enterReset r

/-- The power domain of a target is on, and no power change is turning its wing off (R508, R509). -/
def targetOn (d : Dev) (kind target : Nat) : Bool :=
  let falling : Bool := (d.rd Reg.PWR_STATE).testBit 9 && (d.pwr.scrubFirst || match d.pwr.wave with | some x => !x.1 | none => false)
  if kind = rkTile then d.domainOn (0x400 + target) && !falling
  else if kind = rkCluster then d.domainOn (0x600 + target) && !falling
  else if kind = rkWing then d.domainOn (0x008 + target) && !falling
  else if kind = rkModule then true
  else d.powered.core

/-- The number of targets of a kind. -/
def targets (kind : Nat) : Nat := if kind = 0 then 512 else if kind = 1 then 64 else if kind = 2 then 8 else if kind = 3 then 6 else 2

/-- The effect of a write of RST_REQUEST. -/
def Dev.rstRequest (d : Dev) (v : Nat) : Nat × Dev :=
  let kind := bits v 31 28
  let target := if kind = rkModule then 0 else bits v 9 0
  if rkModule < kind ∨ targets kind ≤ target then (OUT_OF_RANGE, d)
  else if ¬ targetOn d kind target then (POWER_OFF, d)
  else (OK, d.startReset ⟨kind, target, rcRequest⟩)

/-- A write of RST_REQUEST by a master. -/
def rstWrite (master kind target : Nat) (s : State) : State :=
  let v := kind * 2 ^ 28 + target
  mgmtWrite master (mAddr Reg.RST_REQUEST) 32 v (devEffect (fun d => d.rstRequest v)) s

/-- RESET_TILE. -/
def execResetTile (master : Byte) (i : Fin 512) (s : State) : Host.Outcome State Fault Refusal :=
  done (rstWrite master.toNat rkTile i.val s)

/-- RESET_CLUSTER. -/
def execResetCluster (master : Byte) (c : Fin 64) (s : State) : Host.Outcome State Fault Refusal :=
  done (rstWrite master.toNat rkCluster c.val s)

/-- RESET_WING. -/
def execResetWing (master : Byte) (w : Fin 8) (s : State) : Host.Outcome State Fault Refusal :=
  done (rstWrite master.toNat rkWing w.val s)

/-- RESET_PORT. -/
def execResetPort (master : Byte) (p : Fin 6) (s : State) : Host.Outcome State Fault Refusal :=
  done (rstWrite master.toNat rkPort p.val s)

/-- RESET_CORE: core A, or B. -/
def execResetCore (master : Byte) (b : Bool) (s : State) : Host.Outcome State Fault Refusal :=
  done (rstWrite master.toNat rkCore (b2n b) s)

/-- RESET_MODULE. -/
def execResetModule (master : Byte) (s : State) : Host.Outcome State Fault Refusal :=
  done (rstWrite master.toNat rkModule 0 s)

/-! ## Switch-over commands (R466-R470) -/

/-- The effect of a write of BEL_SWITCH (R479). On GIVE_UP the old core halts itself. -/
def Dev.switchWrite (d : Dev) (master v : Nat) : Nat × Dev :=
  let give := v.testBit 0
  let ask := v.testBit 1
  if (give ∧ d.bel.active.map coreMaster ≠ some master) ∨ (ask ∧ master ≠ 1) then (ACCESS_DENIED, d)
  else if give then d.triggerSwitch tgGiveUp
  else if ask then d.triggerSwitch tgRequest
  else (OK, d)

/-- GIVE_UP. -/
def execGiveUp (master : Byte) (s : State) : Host.Outcome State Fault Refusal :=
  done (mgmtWrite master.toNat (mAddr Reg.BEL_SWITCH) 32 1 (devEffect (fun d => d.switchWrite master.toNat 1)) s)

/-- REQUEST. -/
def execSwitchRequest (master : Byte) (s : State) : Host.Outcome State Fault Refusal :=
  done (mgmtWrite master.toNat (mAddr Reg.BEL_SWITCH) 32 2 (devEffect (fun d => d.switchWrite master.toNat 2)) s)

/-- BEL_WATCHDOG passes without a BEL_ALIVE write. -/
def execBelWatchdog (s : State) : Host.Outcome State Fault Refusal :=
  doneDev s (fun d => if d.powered.core ∧ d.bel.active.isSome ∧ d.rd Reg.BEL_WATCHDOG ≠ 0 then (d.triggerSwitch tgWatchdog).2 else d)

/-- A core that reports GOOD while none is active becomes active; the traps that waited are delivered to it (R456, R470). -/
def Dev.coreActive (d : Dev) (b : Bool) : Dev :=
  let c := coreMaster b
  let ts := d.toc.traps
  let d : Dev := { d with bel := { d.bel with active := some b, silent := 0 }, toc := { d.toc with traps := [] } }
  ts.foldl (fun d t => d.send (.coreTrap c t)) (d.wr Reg.BEL_ROLE (setBits (d.rd Reg.BEL_ROLE) 8 8 (b2n b)))

/-- The effect of a write of BEL_HEALTH: only the standby core's takes effect (R467). -/
def Dev.healthWrite (d : Dev) (master v : Nat) : Nat × Dev :=
  let x := v &&& 0xC0FFFFFF
  let put (d : Dev) : Dev := ({ d with bel := { d.bel with healthAt := d.clk.aon, healthAge := 0 } } : Dev).wr Reg.BEL_HEALTH x
  if master ≠ 2 ∧ master ≠ 3 then (OK, d)
  else match d.bel.active with
    | some a => if coreMaster a = master then (OK, d) else (OK, put d)
    | none => if x.testBit 31 ∧ d.bel.parlour.isSome then (OK, d.coreActive (master == 3)) else (OK, put d)

/-- BEL_HEALTH. -/
def execBelHealth (master : Byte) (value : Word) (s : State) : Host.Outcome State Fault Refusal :=
  done (mgmtWrite master.toNat (mAddr Reg.BEL_HEALTH) 32 value.toNat
    (devEffect (fun d => d.healthWrite master.toNat value.toNat)) s)

/-- BEL_HEALTH_AGE reaches BEL_HEALTH_LIMIT (R478). -/
def execHealthStale (s : State) : Host.Outcome State Fault Refusal :=
  doneDev s (fun d =>
    if d.powered.core then
      let n := max (healthAge d) (1000 * d.rd Reg.BEL_HEALTH_LIMIT)
      ({ d with bel := { d.bel with healthAt := d.clk.aon, healthAge := n } } : Dev).raise 0x068 9
    else d)

/-- CORE_FAULT: a cache ECC error or a lock-up of core A, or of B (R472). -/
def execCoreFault (b : Bool) (s : State) : Host.Outcome State Fault Refusal :=
  doneDev s (fun d => d.raise 0x068 (5 + b2n b))

/-! ## Thermal state (R528) -/

/-- THM_DIE of a die, in tenths of a degree, when it is powered and has been read. -/
def dieTemp (d : Dev) (i : Nat) : Option Int :=
  let v := d.rd (Reg.THM_DIE + 4 * i)
  if v.testBit 31 ∧ (if i = 0 then d.powered.aon else d.powered.wings.testBit (i - 1)) then some (signed 16 v) else none

/-- Some die reads at or above a number of degrees; every die that reads is more than 5 degrees below one. -/
def dieAbove (d : Dev) (deg : Nat) : Bool :=
  (upFrom 0 9).any (fun i => match dieTemp d i with | some t => decide ((10 * deg : Int) ≤ t) | none => false)
def dieBelow (d : Dev) (deg : Nat) : Bool :=
  (upFrom 0 9).all (fun i => match dieTemp d i with | some t => decide (t < (10 * deg : Int) - 50) | none => true)

/-- Some die reads at or above THM_CRITICAL. -/
def dieHot (d : Dev) : Bool := dieAbove d (d.rd Reg.THM_CRITICAL)

/-- THM_STATE's state, and an entry to a state (THM_CAP_COUNT). -/
def thmState (d : Dev) : Nat := bits (d.rd Reg.THM_STATE) 1 0
def Dev.thmEnter (d : Dev) (v : Nat) : Dev :=
  if thmState d = v then d
  else
    let d := d.wr Reg.THM_STATE v
    if v = 0 then d else d.count Reg.THM_CAP_COUNT

/-- The state that the readings and THERM_N hold the module in; it falls only under the rows for cooling. -/
def Dev.thmLevel (d : Dev) : Dev :=
  if dieHot d then d.thmEnter 2
  else if (dieAbove d (d.rd Reg.THM_WARN) || d.pwr.thermN) && thmState d == 0 then d.thmEnter 1
  else d

/-- The same where a threshold moves or other readings come: an entry to CAPPED raises WARN, one to STOPPED CRITICAL (R528). -/
def Dev.thmCheck (d : Dev) : Dev :=
  let was := thmState d
  let d := d.thmLevel
  if thmState d = was then d else d.raise 0x003 (thmState d - 1)

/-! ## Kind M (R507, R518) -/

/-- Cellar state that a reset of kind M keeps: keys, page table and sweep registers; a sweep that runs resumes when its port
trains (R159). -/
def Cellar.keep (c : Cellar) (active : Nat → Bool) : Cellar :=
  { c with
    timeouts := []
    eng := []
    ide := []
    sweep := (upFrom 0 4).foldl (fun m p =>
      let x : Sweep := SMap.get (fun _ => ⟨none, [], none, false⟩) m p
      SMap.put (fun _ => ⟨none, [], none, false⟩) m p { x with staging := none, next := [], resume := active p || x.resume }) c.sweep }

/-- The host port after a reset of kind M: sessions, QPs, fetches and SAs are gone; the CAK and the clock's state stay
(R389, R518). -/
def HostPort.keep (h : HostPort) : HostPort :=
  { HostPort.reset with
    cak := h.cak
    cakAt := h.cakAt
    gm := h.gm
    inLock := h.inLock
    sync := h.sync
    gap := h.gap
    delay := h.delay
    slew := h.slew }

/-- Every fabric port goes DOWN with a reason (R205). -/
def Dev.allDown (d : Dev) (reason : Nat) : List Nat → Dev
  | [] => d
  | p :: ps => Dev.allDown (d.lnkDown p reason) reason ps

/-- The sender epochs of the module's own masters advance (R411). -/
def Dev.epochsNext (d : Dev) : List Nat → Dev
  | [] => d
  | m :: ms => Dev.epochsNext (d.mbxEpochNext m) ms

/-- The port of every wing that is powered goes to ABSORB as a reset of kind M begins (R32). -/
def Dev.absorbAll (d : Dev) : List Nat → Dev
  | [] => d
  | w :: ws => Dev.absorbAll (if d.powered.wings.testBit w then d.setWingState w 2 else d) ws

/-- HALL_WING_STATE with every powered wing in ABSORB. -/
def absorbedWord (d : Dev) : List Nat → Nat
  | [] => d.rd Reg.HALL_WING_STATE
  | w :: ws => if d.powered.wings.testBit w then setBits (absorbedWord d ws) (2 * w + 1) (2 * w) 2 else absorbedWord d ws

/-- Every request forwarded to a wing and not answered is answered, by wing (R32). -/
def Dev.answerWings (d : Dev) : List Nat → Dev
  | [] => d
  | w :: ws => Dev.answerWings (d.hallAnswerAll w) ws

/-- What the switch core, the wings and Belfry hold beside registers is gone. DESIGN CHOICE (log entry 244): a port's LNK_STATUS.REASON
stays RESET after a reset of kind M, as after one of kind L. -/
def Dev.dropCore (d : Dev) : Dev :=
  { d with
    hall := ⟨[], [], [], [], [], []⟩
    gddr := { d.gddr with pins := [], exceeded := [], recal := [], patrol := [], waits := [] }
    arr := ⟨[], none, none, []⟩
    cel := d.cel.keep (fun p => (d.rd (Reg.CEL_SWEEP + 4 * p)).testBit 31)
    mbx := { d.mbx with box := [], remote := [] }
    lnk := SMap.mapVals (fun _ => Lnk.reset) (fun x => { Lnk.reset with reason := x.reason, attempts := x.attempts }) d.lnk
    rtr := Dev.reset.rtr
    opt := []
    optGen := []
    optSince := []
    col := Dev.reset.col
    agt := Agent.reset
    bel := Belfry.reset
    mgr := Manager.reset
    host := d.host.keep }

/-- The reset of kind M begins. -/
def Dev.moduleReset (d : Dev) (r : ResetRun) : Dev :=
  let d : Dev := { d with pwr := { d.pwr with
    due := [], running := [r], held := [], mDone := false, wave := none, phase := 0, scrubFirst := false, ucie := 0 } }
  let d := ((d.rstLast r).count Reg.RST_M_COUNT).recRelease 0 2
  let wings := d.rd Reg.HALL_WING_STATE
  let d := d.wr Reg.HALL_WING_STATE (absorbedWord d (upFrom 0 8))
  let d := ((d.allDown rsReset (upFrom 0 6)).epochsNext [1, 2, 3, 7]).answerWings (upFrom 0 8)
  let d := d.dropCore
  let d := ((d.clearTiles (upFrom 0 512)).tileClocks (fun _ => true)).resetPages rkModule allBlocks
  let d : Dev := { d with
    acc := ⟨[], [], [], d.acc.refused, []⟩
    toc := { d.toc with
      cfg := []
      cfgBad := []
      traps := []
      src := SMap.mapKV (fun _ => TocSrc.new) (fun _ x => { x with count := 0 }) d.toc.src }
    recd := { d.recd with stopped := false }
    sec := { d.sec with reports := [], deliveries := [], unsealing := none, transition := none, coreRegs := [], pinsDriven := false } }
  let d := d.wr Reg.PWR_STATE (clearBit (d.rd Reg.PWR_STATE) 9)
  let d := d.wr Reg.PWR_FEED_STATE (setBits (d.rd Reg.PWR_FEED_STATE) 6 5 0)
  let d : Dev := { d.thmLevel with msr := ⟨100, none, true⟩ }
  (d.wr Reg.HALL_WING_STATE wings).absorbAll (upFrom 0 8)

/-- MODULE_RESET_BEGIN. -/
def execModuleResetBegin (s : State) : Host.Outcome State Fault Refusal :=
  doneDev s (fun d =>
    match d.pwr.due with
    | r :: _ => if moduleResets d then { d with pwr := { d.pwr with due := [] } } else d.moduleReset r
    | [] => d)

/-- A key, challenge or nonce that is drawn at each reset of kind M or P (R419, R438). -/
def Dev.redraw (d : Dev) : Dev :=
  { d.used.used with sec := { d.sec with challenge := d.free, akem := d.free + 1 } }

/-- The module's own Cellar key is drawn when none is held (R152, R419). -/
def Dev.drawSysKey (d : Dev) : Dev :=
  if d.cel.sysKey = CelKey.empty then d.used.setCelKey true 0 ⟨some d.fresh, none, false, false, 0⟩ else d

/-- An owner or maker configuration is in the key store: the module's own addresses are those of it (R391, R427). -/
def Dev.useConfig (d : Dev) (c : OwnerConfig) : Dev :=
  let d : Dev := { d with sec := { d.sec with config := some c } }
  let d := d.wr Reg.ETH_IPV4 (field c.ipv4 0 4)
  (upFrom 0 4).foldl (fun d i => d.wr (Reg.ETH_IPV6 + 4 * i) (field c.ipv6 (4 * i) 4)) d

/-- A sealed record is left unused: PERSIST_FAULT (R420). -/
def Dev.recordFails (d : Dev) (ok : Bool) (k : Option Kek) : Dev :=
  if k.any (fun k => !recordOpens d ok k) then d.raise 0x058 2 else d

/-- The ROM unseals the persistent store into the key store (R420): a record that fails its tag is left unused and raises
PERSIST_FAULT. SEALED_OK says that none failed, and MSEC_STATUS follows the CAK. -/
def Dev.unsealStore (d : Dev) (ok : Bool) : Dev :=
  let d := d.redraw.drawSysKey
  let x := d.sec
  let fine (k : Option Kek) : Bool := k.all (recordOpens d ok)
  let cak := (x.sealedCak.filter (fun c => recordOpens d ok c.2)).map (·.1)
  let d := (((d.recordFails ok x.sealedCerts).recordFails ok (x.sealedConfig.map (·.2))).recordFails ok (x.sealedCak.map (·.2)))
  let all := fine x.sealedCerts && fine (x.sealedConfig.map (·.2)) && fine (x.sealedCak.map (·.2))
  let d : Dev := { d with
    host := { d.host with cak := cak }
    sec := { d.sec with config := none, certs := x.sealedCerts.any (recordOpens d ok) } }
  let d := (d.wr Reg.KEY_STORE_STATE (setBits (d.rd Reg.KEY_STORE_STATE) 31 31 (b2n all))).wr Reg.MSEC_STATUS (b2n cak.isSome)
  match x.sealedConfig.filter (fun c => recordOpens d ok c.2) with
  | some c => d.useConfig c.1
  | none => d

/-- MOD_BOOT.STAGE. -/
def bootStage (d : Dev) : Nat := bits (d.rd Reg.MOD_BOOT) 31 28
def Dev.setStage (d : Dev) (n : Nat) : Dev := d.wr Reg.MOD_BOOT (setBits (d.rd Reg.MOD_BOOT) 31 28 n)

abbrev sgPor : Nat := 0
abbrev sgFeedCheck : Nat := 1
abbrev sgRom : Nat := 2
abbrev sgSramInit : Nat := 3
abbrev sgFetch : Nat := 4
abbrev sgWaves : Nat := 5
abbrev sgGdTrain : Nat := 6
abbrev sgMemtest : Nat := 7
abbrev sgTileTest : Nat := 8
abbrev sgLinks : Nat := 9
abbrev sgDiscovery : Nat := 0xA
abbrev sgHalted : Nat := 0xF

/-- The wings lose power: their contents, tiles and registers are gone, but for the locks (R40, R50, R518). -/
def Dev.wingsOff (d : Dev) : Dev :=
  let wing (b : Nat) : Bool := match pageOf b with | some .wng | some .gd | some .til | some .clu => true | _ => false
  let d := d.dropRanges (fun _ => true)
  { d with
    powered := { d.powered with wings := 0, halves := 0 }
    tiles := []
    regs := SMap.erase (fun k => wing ((k % 2 ^ 24) / 0x1000) && k % 0x1000 != 0x018) d.regs
    gddr := { d.gddr with pins := [], exceeded := [], recal := [], patrol := [], bad := [], waits := [] }
    pwr := { d.pwr with ucie := 0 } }

/-- The switch core loses power: what it holds is gone, and its registers are at their defaults when it comes back (R159,
R518). The extension that the Keep core runs stands in its own SRAM and stays (R298). -/
def Dev.coreOff (d : Dev) : Dev :=
  let aon (b : Nat) : Bool := match pageOf b with
    | some .mod | some .clk | some .pwr | some .thm | some .rst | some .knk | some .ptp | some .sec | some .key
    | some .att | some .dbg | some .toc | some .recorder | some .msr | some .eth | some .msec => true
    | _ => false
  let b := d.bel
  let d := d.dropCore
  { d with
    bel := { d.bel with extension := b.extension, extensionVer := b.extensionVer }
    powered := { d.powered with core := false }
    regs := SMap.erase (fun k => !aon ((k % 2 ^ 24) / 0x1000)) d.regs
    lnk := SMap.mapVals (fun _ => Lnk.reset) (fun x => { Lnk.reset with attempts := x.attempts }) d.lnk
    cel := Dev.reset.cel
    acc := { d.acc with policy := [], waiting := [], late := [], runs := [] } }

/-- PWR_STATE's half-wings powered follow the power domains (R521). -/
def Dev.showHalves (d : Dev) : Dev := d.wr Reg.PWR_STATE (setBits (d.rd Reg.PWR_STATE) 31 16 d.powered.halves)

/-- The clusters' PLLs lock, and the clocks of their tiles run (R94); the spec gives no output frequency, so it is a free value (R93). -/
def Dev.pllLock (d : Dev) : List Nat → Dev
  | [] => d
  | c :: cs =>
    let d := d.used.wr (rkey (0x600 + c) 0x080) (2 ^ 31 + d.fresh % 2 ^ 16)
    Dev.pllLock { d with pwr := { d.pwr with unlocked := d.pwr.unlocked.filter (fun x => x != c) } } cs

/-- Tiles of a scope have cleared (R88). -/
def Dev.tilesIdle (d : Dev) (ts : List Nat) : Dev :=
  d.mapTiles (fun t => if t.st = .clearing then { t.cleared with st := .idle } else t) ts

/-- Wing ports read OFF, each change with its event (R43). -/
def Dev.wingPortsOff (d : Dev) : List Nat → Dev
  | [] => d
  | w :: ws => Dev.wingPortsOff (d.setWingState w 0) ws

/-- Binding, session keys, weight keys, weight ranges and measurements return to zero (R441, R518). -/
def Dev.unbindAll (d : Dev) : Dev :=
  let zero (lo n : Nat) (d : Dev) : Dev := { d with regs := SMap.erase (fun k => decide (lo ≤ k ∧ k < lo + n)) d.regs }
  let d : Dev := { d with sec := { d.sec with sessKeys := [], weights := [] } }
  zero Reg.KEY_RANGE 0x400 (zero Reg.ATT_M_PROG0 0x40 (zero Reg.ATT_M_WEIGHT0 0x40
    ((d.wr Reg.SEC_BINDING 0).wr Reg.ATT_UNSEALS 0)))

/-- A scrub of a tenant is asked for: a second trigger for the same tenant is absorbed (R517); the first one begins at once
(R515, R516). -/
def Dev.scrubAsk (d : Dev) (t : Nat) : Dev :=
  if d.pwr.scrubs.contains t then d
  else
    let d : Dev := { d with pwr := { d.pwr with scrubs := d.pwr.scrubs ++ [t] } }
    if d.pwr.scrubs.length = 1 then
      (d.wr Reg.PWR_SCRUB (2 ^ 31 + 2 ^ 24 + t % 2 ^ 10)).wr Reg.PWR_STATE (setBit (d.rd Reg.PWR_STATE) 8)
    else d

/-- Bring-up leaves the wings off: binding and keys are lost, and in Transit a bound tenant is scrubbed (R441, R515, R518). -/
def Dev.leaveFull (d : Dev) (target : Nat) : Dev :=
  let b := d.rd Reg.SEC_BINDING
  let d := if target = 2 ∧ b.testBit 15 then d.scrubAsk (bits b 9 0) else d
  (d.unbindAll.wingsOff).showHalves

/-- The reset part of M ends: the Hall is reset, sources become IDLE, the store is unsealed, and bring-up begins at SRAM_INIT
for what PWR_TARGET names; a target of Standby or Off powers the switch core down again (R507, R514). In SCRAP the ROM halts, and
nothing is unsealed (R416). -/
def Dev.finishModule (d : Dev) (store : Bool) : Dev :=
  let target := d.rd Reg.PWR_TARGET
  let d : Dev := { d with pwr := { d.pwr with running := [], held := [], mDone := false } }
  let d := (d.sourcesIdle (fun _ => true)).wingPortsOff (upFrom 0 8)
  if d.sec.lc = lcScrap then (d.allDown rsDisabled (upFrom 0 6)).setStage sgHalted else
  let d := if 2 ≤ target then d.leaveFull target
    else (d.tilesIdle (upFrom 0 512)).pllLock ((upFrom 0 64).filter (fun c =>
      d.powered.halves.testBit (c / 4) && d.rd (rkey (0x600 + c) 0x080) == 0))
  let d := d.unsealStore store
  if 3 ≤ target then
    let d := d.ptpHold.coreOff
    (d.wr Reg.PWR_STATE (setBits (d.rd Reg.PWR_STATE) 2 0 3)).setStage sgRom
  else
    let v := if d.powered.wings = 0 then 2 else 0
    let d := ({ d with powered := { d.powered with core := true } } : Dev).celTrain (upFrom 0 4)
    (d.wr Reg.PWR_STATE (setBits (d.rd Reg.PWR_STATE) 2 0 v)).setStage sgSramInit

/-- What GDDR7 holds is lost while the wing bases are off (R164, R518): it reads as its unlisted contents. -/
def State.forget (s : State) : State :=
  if s.dev.powered.wings = 0 then { s with mem := { s.mem with gd := [] } } else s

/-! ## Completion -/

/-- All three devices of a wing are READY (R133), and a UCIe module of it is trained and in use (R27). -/
def gdReady (d : Dev) (w : Nat) : Bool := (upFrom 0 3).all (fun i => gdState d w i == 1)
def ucieReady (d : Dev) (w : Nat) : Bool := (upFrom 0 2).any (fun m => d.pwr.ucie.testBit (2 * w + m) && !ucieOut d w m)

/-- A reset runs or is held that covers a wing. -/
def wingResets (d : Dev) (w : Nat) : Bool := (d.pwr.running ++ d.pwr.held).any (fun r => r.covers ⟨rkWing, w, 0⟩)

/-- A wing's Hall port becomes ACTIVE from the moment its power-up, its devices' training and its UCIe training are
complete and no reset covers it (R32, R43, R133). -/
def Dev.portSettle (d : Dev) (w : Nat) : Dev :=
  if d.powered.core ∧ d.powered.wings.testBit w ∧ d.powered.halves.testBit (2 * w) ∧ d.powered.halves.testBit (2 * w + 1) ∧
      gdReady d w ∧ ucieReady d w ∧ ¬ wingResets d w then d.setWingState w 1
  else d

/-- The scope of a reset has been cleared and retrained. -/
def scopeDone (d : Dev) (r : ResetRun) : Bool := r.kind != rkWing || (gdReady d r.target && ucieReady d r.target)

/-- A running reset of a kind other than M completes (R452, R507). -/
def Dev.resetDone (d : Dev) (r : ResetRun) : Dev :=
  let d : Dev := { d with pwr := { d.pwr with running := d.pwr.running.filter (fun x => x.kind != r.kind || x.target != r.target) } }
  let d :=
    if r.kind = rkTile then d.tilesIdle [r.target]
    else if r.kind = rkCluster then (d.tilesIdle (upFrom (8 * r.target) 8)).pllLock [r.target]
    else if r.kind = rkWing then (d.tilesIdle (upFrom (64 * r.target) 64)).pllLock (upFrom (8 * r.target) 8)
    else d
  let d := d.sourcesIdle (fun s => r.clears s)
  if r.kind = rkWing then d.portSettle r.target else d

/-- RESET_COMPLETE; `store` says that the persistent store's records verify, for a reset of kind M. A reset of kind M that
RESET_N still holds waits for its release (R510). -/
def execResetComplete (kind : Fin 6) (target : Fin 512) (store : Bool) (s : State) : Host.Outcome State Fault Refusal :=
  done (s.onDev (fun d =>
    let r : ResetRun := ⟨kind.val, if kind.val = rkModule then 0 else target.val, 0⟩
    if ¬ d.pwr.running.any (fun x => x.kind == r.kind && x.target == r.target) then d
    else if r.kind = rkModule then
      (if d.pwr.resetN then { d with pwr := { d.pwr with mDone := true } } else d.finishModule store)
    else if scopeDone d r then d.resetDone r else d)).forget

/-- RESET_TIMEOUT: the scope is left held in reset. -/
def execResetTimeout (kind : Fin 6) (target : Fin 512) (s : State) : Host.Outcome State Fault Refusal :=
  doneDev s (fun d =>
    let r : ResetRun := ⟨kind.val, if kind.val = rkModule then 0 else target.val, 0⟩
    let mine (x : ResetRun) : Bool := x.kind == r.kind && x.target == r.target
    if d.pwr.running.any mine ∧ ¬ (kind.val = rkModule ∧ d.pwr.resetN) then
      ({ d with pwr := { d.pwr with
        running := d.pwr.running.filter (fun x => !mine x), held := d.pwr.held ++ d.pwr.running.filter mine } } : Dev).raise 0x004 0
    else d)

/-! ## RESET_N (R510) -/

/-- RESET_N passes its filter. -/
def execResetN (s : State) : Host.Outcome State Fault Refusal :=
  doneDev s (fun d =>
    if d.pwr.resetN ∨ ¬ d.powered.aon then d
    else
      let d : Dev := { d with pwr := { d.pwr with resetN := true } }
      ((d.count Reg.RST_RESETN_COUNT).raise 0x004 1).startReset ⟨rkModule, 0, rcPin⟩)

/-- RESET_N is released: the reset it held ends when its scope has been cleared. -/
def execResetNRelease (store : Bool) (s : State) : Host.Outcome State Fault Refusal :=
  done (s.onDev (fun d =>
    let d : Dev := { d with pwr := { d.pwr with resetN := false } }
    if d.pwr.mDone then d.finishModule store else d)).forget

end Sys2Proof.Machine
end

