-- ==== Sys2Proof/Machine/Routes.lean ====
section
/-! DEFINITION. The agent's part in routes and readiness: votes (R316), its answers to discovery (R321), the writes of
AGT_PORT_PLAN and RTR_MA (R324), the generator (R340, R343), ROUTE_PREPARE (R344), the drain timer (R237) and congestion
summaries (R353). -/

namespace Sys2Proof.Machine

/-! ## Votes (R316) -/

/-- The vote entries with their numbers. -/
def voteList (d : Dev) : List (Nat × Vote) := d.agt.votes.filterMap (fun e => e.2.map (fun v => (e.1, v)))

def Dev.setVote (d : Dev) (i : Nat) (v : Option Vote) : Dev :=
  { d with agt := { d.agt with votes := SMap.put (fun _ => none) d.agt.votes i v } }

/-- A write from a voter by the table of R316: the status it is answered with, whether it applies now, and the device. -/
def Dev.vote (d : Dev) (src wseq addr width value : Nat) : Nat × Bool × Dev :=
  if ¬ ((voters d).map (·.2)).contains src then (NOT_VOTER, false, d)
  else
    match (voteList d).find? (fun e => e.2.wseq == wseq && e.2.addr == addr && e.2.width == width && e.2.value == value) with
    | some (i, v) =>
      if v.voters.contains src then (OK, false, d)
      else (OK, !v.applied, d.setVote i (some { v with voters := v.voters ++ [src], applied := true }))
    | none =>
      let d := if (voteList d).any (fun e => e.2.wseq == wseq) then (d.count Reg.AGT_VOTE_DISAGREE_COUNT).raise 0x069 3 else d
      match (upFrom 0 256).find? (fun i => !(voteList d).any (fun e => e.1 == i)) with
      | none => (VOTE_FULL, false, d)
      | some i => (OK, false, d.setVote i (some ⟨wseq, addr, width, value, [src], false, none, (0, 0)⟩))

/-- A voted message with a body: refused; held, with the first voter's; applied at the second vote and answered to both; or, already
applied, answered again (R316, R344, R351). `act` is its effect with a status and a count, `reply` its answer. -/
def Dev.voteMsg (d : Dev) (m : TMsg) (act : Dev → Nat × Nat × Dev) (reply : Dev → TMsg → Nat → Nat → Dev) : Dev :=
  let value := ofLE (m.body.drop 4)
  let r := d.vote ((msgMa m).getD (2 ^ 15)) m.seq 0 m.body.length value
  let d := r.2.2
  if r.1 ≠ OK then reply d m r.1 0
  else match (voteList d).find? (fun e => e.2.wseq == m.seq && e.2.addr == 0 && e.2.width == m.body.length && e.2.value == value) with
    | none => d
    | some (i, v) =>
      if r.2.1 then
        let q := act d
        (v.asked.toList ++ [m]).foldl (fun d a => reply d a q.1 q.2.1) (q.2.2.setVote i (some { v with asked := none, result := (q.1, q.2.1) }))
      else if v.applied then reply d m v.result.1 v.result.2
      else d.setVote i (some { v with asked := some (v.asked.getD m) })

/-- VOTE_WINDOW_END: the window of an entry ends; with one vote it expires. -/
def execVoteWindowEnd (i : Byte) (s : State) : Host.Outcome State Fault Refusal :=
  doneDev s (fun d =>
    match SMap.get (fun _ => none) d.agt.votes i.toNat with
    | none => d
    | some v =>
      let d := d.setVote i.toNat none
      if v.applied then d else (d.count Reg.AGT_VOTE_EXPIRED_COUNT).raise 0x069 2)

/-! ## Discovery at the agent -/

/-- What DISCOVER_REPLY says of a port (R321). -/
def discoverPort (d : Dev) (p : Nat) : List Byte :=
  let x := portOf d p
  leBytes 4 (d.rd (lnkReg p 0x0C0)) ++ leBytes 4 (d.rd (lnkReg p 0x0C4)) ++
    leBytes 1 (x.st.code * 16 + bits (d.rd (lnkReg p 0x0CC)) 2 0) ++ leBytes 1 x.width ++
    leBytes 2 (bits (d.rd (lnkReg p 0x0C8)) 31 16) ++ leBytes 4 (d.rd (lnkReg p 0x0D8))

/-- The digest prefix of the running Parlour; a module in the ROM stage has none. -/
def digestPrefix (d : Dev) : Nat := match d.bel.parlour with | some x => x % 2 ^ 32 | none => 0

/-- DISCOVER reaches the agent. -/
def execDiscover (o : Option TMsg) (s : State) : Host.Outcome State Fault Refusal :=
  onBelfry 7 o (fun m d =>
    d.answer m 8 (leBytes 8 Config.serial ++ leBytes 4 (agtWord d) ++ leBytes 4 (digestPrefix d) ++
      ((upFrom 0 6).map (discoverPort d)).flatten)) s

/-- The effect of a write of AGT_PORT_PLAN (R324, R336). -/
def Dev.portPlan (d : Dev) (master v : Nat) : Nat × Dev :=
  let d := d.plainWrite master Reg.AGT_PORT_PLAN v
  (OK, if v.testBit 30 then d.agtExclude else if v.testBit 31 then d.agtReadmit.agtSettle else d)

/-- AGT_PORT_PLAN_WRITE. -/
def execAgtPortPlanWrite (master : Byte) (value : Word) (s : State) : Host.Outcome State Fault Refusal :=
  done (mgmtWrite master.toNat (mAddr Reg.AGT_PORT_PLAN) 32 value.toNat
    (devEffect (fun d => d.portPlan master.toNat value.toNat)) s)

/-- The effect of a write of RTR_MA (R249, R324): refused while a bank is LIVE. -/
def Dev.rtrMa (d : Dev) (v : Nat) : Nat × Dev := if anyLive d then (OUT_OF_RANGE, d) else (OK, d.takeMa v)

/-- RTR_MA_WRITE. -/
def execRtrMaWrite (master : Byte) (value : Word) (s : State) : Host.Outcome State Fault Refusal :=
  done (mgmtWrite master.toNat (mAddr Reg.RTR_MA) 32 value.toNat (devEffect (fun d => d.rtrMa value.toNat)) s)

/-! ## The generator (R339-R343) -/

/-- The mask of this module's line on an axis. -/
def lineMask (d : Dev) (a : Nat) : Nat := d.rd (Reg.RTB_LINE_X + 4 * a)

/-- No link of the mask is out among `n` links from link `i` upward, on a ring of length `len`. -/
def clearLinks (mask len : Nat) : Nat → Nat → Bool
  | 0, _ => true
  | n + 1, i => !mask.testBit (i % len) && clearLinks mask len n (i + 1)

/-- The entry of target `t` (R340): 0 when it is invalid. -/
def genEntry (ma : Nat) (len mask : Nat → Nat) (t : Nat) : Nat :=
  if len 0 ≤ coord t 0 ∨ len 1 ≤ coord t 1 ∨ len 2 ≤ coord t 2 then 0
  else match [0, 1, 2].find? (fun a => coord t a != coord ma a) with
  | none => 2 ^ 31 + 6 * 2 ^ 28
  | some a =>
    let l := len a
    let c := coord ma a
    let dp := (coord t a + l - c) % l
    let dn := l - dp
    let clearP := clearLinks (mask a) l dp c
    let clearN := clearLinks (mask a) l dn (c + l - dn)
    let prefP := decide (dp ≤ dn)
    if (if prefP then clearP else clearN) then 2 ^ 31 + (2 * a + b2n (!prefP)) * 2 ^ 28
    else if (if prefP then clearN else clearP) then 2 ^ 31 + (2 * a + b2n prefP) * 2 ^ 28 + 2 ^ 27
    else 0

/-- The valid entries of a bank for the targets from `t` on, `n` of them, in rising order of key. -/
def genEntries (d : Dev) (b : Nat) : Nat → Nat → SMap Nat
  | 0, _ => []
  | n + 1, t =>
    let e := genEntry (myMa d) (dimLen d) (lineMask d) t
    if e = 0 then genEntries d b n (t + 1) else (b * 2 ^ 15 + t, e) :: genEntries d b n (t + 1)

/-- The first `n` route entries of a bank written under R340, the others of the bank as they are. -/
def Dev.genFill (d : Dev) (b n : Nat) : Dev :=
  let keep := d.rtr.routes.filter (fun e => !(e.1 / 2 ^ 15 == b && decide (e.1 % 2 ^ 15 < n)))
  let low := keep.filter (fun e => decide (e.1 < b * 2 ^ 15))
  let high := keep.filter (fun e => decide (b * 2 ^ 15 ≤ e.1))
  { d with rtr := { d.rtr with
    routes := low ++ genEntries d b n 0 ++ high
    badRoutes := d.rtr.badRoutes.filter (fun k => !(k / 2 ^ 15 == b && decide (k % 2 ^ 15 < n))) } }

/-- A table kept by bank x `size`, with the other bank's part replaced by that of bank `from_`, or emptied. -/
def copyBank (size b : Nat) (src : Option Nat) (m : SMap Nat) : SMap Nat :=
  let rest := m.filter (fun e => e.1 / size != b)
  match src with
  | none => rest
  | some f => (m.filter (fun e => e.1 / size == f)).foldl (fun r e => SMap.put (fun _ => 0) r (b * size + e.1 % size) e.2) rest

/-- The set descriptors, tenant map, SYSTEM set and member list copied from the LIVE bank, or zero (R343). -/
def Dev.copySets (d : Dev) (b : Nat) : Dev :=
  let src := if anyLive d then some (b2n (liveBit d)) else none
  { d with rtr := { d.rtr with
    sets := copyBank 16 b src d.rtr.sets
    tmap := copyBank 512 b src d.rtr.tmap
    sysSet := copyBank 1 b src d.rtr.sysSet
    members := copyBank (2 ^ 16) b src d.rtr.members } }

/-- The valid entries of a bank. -/
def validEntries (d : Dev) (b : Nat) : Nat :=
  (d.rtr.routes.filter (fun e => e.1 / 2 ^ 15 == b && e.2.testBit 31)).length

/-- The effect of a write of RTB_GEN (R343). -/
def Dev.rtbGen (d : Dev) (v : Nat) : Nat × Dev :=
  let b := v % 2
  if bankState d b ≠ 0 then (EPOCH_STALE, d)
  else if ¬ maValid d then (OUT_OF_RANGE, d)
  else
    let d := if v.testBit 3 then d.copySets b else d
    let d := d.genFill b (2 ^ 15)
    (OK, (d.count Reg.RTB_GEN_COUNT).wr Reg.RTB_GEN_LAST (2 ^ 31 + b * 2 ^ 16 + validEntries d b))

/-- RTB_GEN. -/
def execRtbGen (master : Byte) (value : Word) (s : State) : Host.Outcome State Fault Refusal :=
  done (mgmtWrite master.toNat (mAddr Reg.RTB_GEN) 32 value.toNat (devEffect (fun d => d.rtbGen value.toNat)) s)

/-- A fill that is not done within 6 us (R363): how many entries it wrote is a free value; the bank stays FREE. -/
def Dev.genFault (d : Dev) (v : Nat) : Nat × Dev :=
  let b := v % 2
  if bankState d b ≠ 0 then (EPOCH_STALE, d)
  else if ¬ maValid d then (OUT_OF_RANGE, d)
  else
    let n := d.fresh % 2 ^ 15
    let d := if v.testBit 3 then d.copySets b else d
    (TIMEOUT, (d.used.genFill b n).raise 0x029 3)

/-- GEN_FAULT. -/
def execGenFault (master : Byte) (value : Word) (s : State) : Host.Outcome State Fault Refusal :=
  done (mgmtWrite master.toNat (mAddr Reg.RTB_GEN) 32 value.toNat (devEffect (fun d => d.genFault value.toNat)) s)

/-! ## ROUTE_PREPARE (R344) -/

/-- One step after another, the first that fails ending them. -/
def andThen (r : Nat × Dev) (f : Dev → Nat × Dev) : Nat × Dev := if r.1 = OK then f r.2 else r

/-- A write of RTB_DRAIN within its range. -/
def Dev.drainWrite (d : Dev) (v : Nat) : Nat × Dev :=
  if rangeOk d Reg.RTB_DRAIN v then (OK, d.plainWrite 0 Reg.RTB_DRAIN v) else (OUT_OF_RANGE, d)

/-- Entries of the listed MAs written VALID 0. -/
def Dev.excludeRoutes (d : Dev) (b : Nat) : List Nat → Nat × Dev
  | [] => (OK, d)
  | m :: ms => if m = myMa d then Dev.excludeRoutes d b ms else
    match d.routeWrite b m 0 with
    | (0, d) => Dev.excludeRoutes d b ms
    | r => r

/-- The MAs that a ROUTE_PREPARE body lists. -/
def preparedMas (bs : List Byte) : List Nat := (upFrom 0 (field bs 18 1)).map (fun i => field bs (20 + 2 * i) 2)

/-- A ROUTE_PREPARE body is as R359 lays it out: its length is that of its COUNT of at most 54, its FLAGS are the three there are, and
every MA has 15 bits. -/
def prepareBodyOk (bs : List Byte) : Bool :=
  decide (field bs 18 1 ≤ 54 ∧ bs.length = 20 + 2 * field bs 18 1 ∧ field bs 17 1 < 8 ∧ field bs 19 1 = 0) &&
    (preparedMas bs).all (fun m => decide (m < 2 ^ 15))

/-- The steps of a ROUTE_PREPARE body, and the status of the first that failed; a body not as R359 lays it out is refused (R18). -/
def Dev.prepare (d : Dev) (bs : List Byte) : Nat × Dev :=
  let epoch := field bs 4 4
  let flags := field bs 17 1
  let b := epoch % 2
  let r : Nat × Dev := if prepareBodyOk bs then (OK, d) else (OUT_OF_RANGE, d)
  let r := if flags.testBit 0 then
      andThen (andThen (andThen (andThen r (fun d => d.rtbParam false b (field bs 8 4)))
        (fun d => d.rtbParam true b (field bs 16 1))) (fun d => d.drainWrite (field bs 12 4)))
        (fun d => d.rtbGen (b + 8 * b2n (flags.testBit 1)))
    else r
  let r := andThen r (fun d => d.excludeRoutes b (preparedMas bs))
  if flags.testBit 2 then andThen r (fun d => d.rtbSeal epoch) else r

/-- ROUTE_READY. -/
def Dev.routeReady (d : Dev) (m : TMsg) (st : Nat) : Dev :=
  d.answer m 14 (slice m.body 4 4 ++ slice m.body 17 1 ++ leBytes 1 st ++ leBytes 2 (bits (d.rd Reg.RTB_GEN_LAST) 15 0))

/-- ROUTE_PREPARE: checked as a manager write, or as a voted write in trio mode. -/
def execRoutePrepare (o : Option TMsg) (s : State) : Host.Outcome State Fault Refusal :=
  onBelfry 13 o (fun m d =>
    if trioMode d then
      d.voteMsg m (fun d => let q := d.prepare m.body; (q.1, 0, q.2)) (fun d m st _ => d.routeReady m st)
    else
      let r := d.termCheck m (field m.body 0 4)
      if r.1 ≠ OK then r.2.routeReady m r.1 else (let q := r.2.prepare m.body; q.2.routeReady m q.1)) s

/-! ## Congestion summaries (R353) -/

/-- The fields of a congestion record (R245). -/
def recMeasure (r : List Byte) : Nat := field r 0 8

/-- The largest STALL of a port's VCs with its lowest VC, over `n` VCs from `v`. -/
def maxStall (r : List Byte) (p : Nat) : Nat → Nat → Nat × Nat → Nat × Nat
  | 0, _, best => best
  | n + 1, v, best =>
    let x := field r (38 + 68 * p + 4 * v) 2
    maxStall r p n (v + 1) (if best.1 < x ∨ (best.1 = x ∧ v < best.2) then (x, v) else best)

/-- The largest OCC of a port's VCs. -/
def maxOcc (r : List Byte) (p : Nat) : Nat := ((upFrom 0 16).map (fun v => field r (36 + 68 * p + 4 * v) 2)).foldl max 0

/-- One port's nine bytes of a summary, with a record added. -/
def foldPort (acc r : List Byte) (fresh : Bool) (p : Nat) : List Byte :=
  let o := 20 + 9 * p
  let best := maxStall r p 16 0 (if fresh then (0, 0) else (field acc (o + 2) 2, field acc (o + 4) 1))
  leBytes 2 (max (if fresh then 0 else field acc o 2) (field r (32 + 68 * p) 2)) ++ leBytes 2 best.1 ++ leBytes 1 best.2 ++
    leBytes 2 (max (if fresh then 0 else field acc (o + 5) 2) (maxOcc r p)) ++ slice r (34 + 68 * p) 1 ++ slice r (35 + 68 * p) 1

/-- A summary with one more record (R353). -/
def foldRecord (acc r : List Byte) : List Byte :=
  let fresh := acc.isEmpty
  let g (o k : Nat) : Nat := if fresh then 0 else field acc o k
  (if fresh then slice r 0 8 else slice acc 0 8) ++ leBytes 2 (g 8 2 + 1) ++ leBytes 2 (g 10 2 ||| field r 20 2) ++
    leBytes 4 (g 12 4 + field r 24 4) ++ leBytes 4 (g 16 4 + field r 28 4) ++
    ((upFrom 0 6).map (foldPort acc r fresh)).flatten

/-- The body of CMAP_SUMMARY: the records of the last AGT_CMAP_PERIOD measures, with the feeds that are absent now. -/
def summaryBody (d : Dev) : List Byte :=
  let rs := ((d.agt.cmap.take (d.rd Reg.AGT_CMAP_PERIOD)).filter (fun r => !r.isEmpty)).reverse
  let acc := if rs.isEmpty then List.replicate 74 0 else rs.foldl foldRecord []
  let f := d.rd Reg.PWR_FEED_STATE
  slice acc 0 10 ++ leBytes 2 (bits (field acc 10 2) 2 0 + 2 ^ 8 * b2n (!f.testBit 0) + 2 ^ 9 * b2n (!f.testBit 1)) ++ acc.drop 12

/-- The agent sends a summary to the managers it can reach, and counts it (R353, R362). -/
def Dev.sendSummary (d : Dev) : Dev :=
  if d.rd Reg.AGT_CMAP_PERIOD = 0 ∨ ¬ (managers d).any (canSend d) then d
  else (d.toManager 15 (summaryBody d)).count Reg.AGT_CMAP_SENT

/-- The summary of a period leaves, and the next period begins. -/
def Dev.periodSummary (d : Dev) : Dev :=
  let d := d.sendSummary
  { d with agt := { d.agt with cmapCount := 0 } }

/-- CMAP_SUMMARY_DUE: AGT_CMAP_PERIOD measures have closed since the last summary. -/
def execCmapSummaryDue (s : State) : Host.Outcome State Fault Refusal :=
  doneDev s (fun d => if d.rd Reg.AGT_CMAP_PERIOD ≤ d.agt.cmapCount then d.periodSummary else d)

end Sys2Proof.Machine
end

