-- ==== Sys2Proof/Machine/Manager.lean ====
section
/-! DEFINITION. The manager: messages to members and their answers, discovery (R322, R323), readiness (R326), the
installation of a bank (R338-R346), failures (R355), the setup and teardown of slices as scripts (R349-R352), and drains
(R358), and heartbeats and what follows a silent peer (R311-R317). -/

namespace Sys2Proof.Machine

/-! ## Messages to members -/

/-- A write of a register by its key. -/
def keyWrite (key v : Nat) : RegEntry := ⟨mAddr key, 4, v⟩

/-- The bytes of one entry (R372). -/
def RegEntry.bytes (e : RegEntry) : List Byte := leBytes 5 e.addr ++ leBytes 1 e.width ++ [0, 0] ++ leBytes 8 e.value

/-- A list in runs of `k`. -/
def chunks {α : Type} (k : Nat) : Nat → List α → List (List α)
  | 0, _ => []
  | n + 1, xs => if xs.isEmpty then [] else xs.take k :: chunks k n (xs.drop k)

/-- The TERM of a manager's writes; in trio mode, which uses no terms, the voter index in its place (R306, R315; DESIGN CHOICE,
log entry 219). ROUTE_PREPARE carries 0 there (R344). -/
def termField (d : Dev) : Nat :=
  if trioMode d then (match (voters d).find? (fun v => v.2 == myMa d) with | some v => v.1 | none => 3) else d.rd Reg.BEL_TERM

/-- REG WRITEs that carry entries to a member, nine to a message so that each fits a relayed packet (R366). -/
def writeSends (d : Dev) (ma : Nat) (es : List RegEntry) : List MgrSend :=
  (chunks 9 (es.length + 1) es).map (fun c =>
    ⟨ma, famReg, 2, leBytes 4 (termField d) ++ leBytes 1 c.length ++ [0, 0, 0] ++ (c.map RegEntry.bytes).flatten⟩)

/-- A REG READ of registers. -/
def readsSend (ma : Nat) (keys : List Nat) : MgrSend :=
  ⟨ma, famReg, 1, leBytes 1 keys.length ++ [0, 0, 0] ++ (keys.map (fun k => leBytes 5 (mAddr k) ++ [4, 0, 0])).flatten⟩
def readSend (ma key : Nat) : MgrSend := readsSend ma [key]

/-! ## Modules -/

/-- The modules that belong to the fabric: AGREES, not lost, and with the CLAIM_ACK of this term (R307). -/
def memberMas (d : Dev) : List Nat :=
  (d.mgr.mods.filter (fun e => match e.2 with | some y => y.outcome == 1 && y.acked && !y.lost | none => false)).map (·.1)

/-- Excluded or not in the fabric (R338, R339): EMPTY, lost, MISSING or being drained, or its agent EXCLUDED or FAILED. -/
def outOfUse (d : Dev) (x : Plan) (ma : Nat) : Bool :=
  x.empty ma || d.mgr.excluded.contains ma || !(memberMas d).contains ma ||
    (mgrMod d ma).any (fun y => bits y.agt 3 0 == agExcluded || bits y.agt 3 0 == agFailed)

/-- What a module last said of a port: peer serial, STATE, peer port, width, proto, digest prefix. -/
def MgrMod.port (y : MgrMod) (p : Nat) : Nat × Nat × Nat × Nat × Nat × Nat := listAt (0, 0, 0, 0, 0, 0) y.ports p

/-- The manager's knowledge of a port of a module: UP, by AGT_STATE where the plan requires the link, else by the STATE that
DISCOVER_REPLY and CMAP_SUMMARY gave. -/
def portUp (d : Dev) (x : Plan) (ma p : Nat) : Bool :=
  (mgrMod d ma).any (fun y =>
    if x.expect ma p = 1 then y.agt.testBit (16 + p) else (y.port p).2.1 == LnkSt.up.code || (y.port p).2.1 == LnkSt.hold.code)

/-- The link that leaves a position by a P port is out of use (R339). -/
def linkOut (d : Dev) (x : Plan) (ma a : Nat) : Bool :=
  let f := x.far ma (2 * a)
  outOfUse d x ma || outOfUse d x f.1 || !portUp d x ma (2 * a) || !portUp d x f.1 f.2

/-- The mask of the line of a position on an axis (R339). -/
def lineOf (d : Dev) (x : Plan) (ma a : Nat) : Nat :=
  sumList ((upFrom 0 (x.len a)).map (fun i => b2n (linkOut d x (withCoord ma a i) a) * 2 ^ i))

/-- A route leads from one module to another under the lines' masks (R340): axis by axis, at most three legs. -/
def routeLeads (d : Dev) (x : Plan) : Nat → Nat → Nat → Bool
  | 0, ma, t => ma == t
  | n + 1, ma, t =>
    match [0, 1, 2].find? (fun a => coord t a != coord ma a) with
    | none => true
    | some a => genEntry ma x.len (lineOf d x ma) t != 0 && routeLeads d x n (withCoord ma a (coord t a)) t

/-- Routes lead from one module to another and back. -/
def joined (d : Dev) (x : Plan) (a b : Nat) : Bool := routeLeads d x 3 a b && routeLeads d x 3 b a

/-- The manager reaches a member by its routes (R320, R341). -/
def reaches (d : Dev) (ma : Nat) : Bool :=
  hasRoute d ma && (match d.agt.plan with | some x => joined d x (myMa d) ma | none => true)

/-! ## Messages that leave -/

/-- A message that changes state at a member: a REG WRITE, PEAL_ACTIVATE, ROUTE_PREPARE or POLICY_SET. -/
def MgrSend.writes (x : MgrSend) : Bool :=
  (x.family == famReg && x.code == 2) || (x.family == famBelfry && (x.code == 12 || x.code == 13 || x.code == 16))

/-- A manager may write an agent: not while it is FENCED (R313), and only after that agent's CLAIM_ACK (R307); trio mode uses
neither (R315). -/
def mayWrite (d : Dev) (ma : Nat) : Bool :=
  trioMode d || (belRole d != roFenced && (originMa d == some ma || (mgrMod d ma).any (·.acked)))

/-- A message of the manager goes to a member with a tag: routed when a route leads there and back, by relay otherwise (R320, R341); a
write that may not be made does not leave. A voter's write carries its WSEQ (R315).
Family 0 stands for the order to scrub, for which the spec gives no message. -/
def Dev.mgrSend (d : Dev) (tag : Nat) (x : MgrSend) : Dev :=
  let seq := if trioMode d ∧ x.writes then Config.writeSeq x.ma x.family x.code (x.body.drop 4) % 2 ^ 32 else tag
  let m (src : MsgSrc) : TMsg := ⟨src, x.family, x.code, false, seq, tag, OK, x.body⟩
  if x.writes ∧ ¬ mayWrite d x.ma then d
  else if x.family = 0 then
    (if originMa d = some x.ma then d.scrubAsk (field x.body 0 2) else d.send (.report 6 x.ma (field x.body 0 2)))
  else if originMa d = some x.ma ∨ reaches d x.ma then d.sendMsg (m (.fabric x.ma))
  else match mgrMod d x.ma with
    | some y =>
      let path := match d.agt.plan with | some p => if y.path.isEmpty then p.pathTo 64 (myMa d) x.ma else y.path | none => y.path
      d.sendMsg (m (.relay none path tag))
    | none => d

/-- The messages of a stage leave; each waits under its tag. -/
def Dev.sendStage (d : Dev) : List MgrSend → List (Nat × MgrSend) × Dev
  | [] => ([], d)
  | x :: xs =>
    let t := d.mgr.tag
    let d : Dev := { d with mgr := { d.mgr with tag := (t + 1) % 2 ^ 16 } }
    let r := Dev.sendStage (d.mgrSend t x) xs
    (if x.family = 0 then r.1 else (t, x) :: r.1, r.2)

/-- A message without a script. -/
def Dev.mgrTell (d : Dev) (xs : List MgrSend) : Dev := (d.sendStage xs).2

/-- A message of a script is sent again under its tag. -/
def Dev.resend (d : Dev) (tag : Nat) : Dev :=
  match (d.mgr.scripts.map (·.waits)).flatten.find? (fun w => w.1 == tag) with
  | some w => d.mgrSend tag w.2
  | none => d

/-- The open writes to a member leave again, and all of them. -/
def Dev.resendTo (d : Dev) (ma : Nat) : Dev :=
  ((d.mgr.scripts.map (·.waits)).flatten.filter (fun w => w.2.ma == ma && w.2.writes)).foldl (fun d w => d.mgrSend w.1 w.2) d
def Dev.resendAll (d : Dev) : Dev :=
  ((d.mgr.scripts.map (·.waits)).flatten.filter (fun w => w.2.writes)).foldl (fun d w => d.mgrSend w.1 w.2) d

/-- The next stage of a script leaves, and those after it while none of their messages waits for an answer; no script when no
stage is left. -/
def Dev.stageOn (d : Dev) (j : MgrJob) : List (List MgrSend) → Option Script × Dev
  | [] => (none, d)
  | s :: ss =>
    let r := d.sendStage s
    if r.1.isEmpty then Dev.stageOn r.2 j ss else (some ⟨j, ss, r.1⟩, r.2)

/-- RTR_DATELINE of a position (R222). -/
def datelineOf (x : Plan) (ma : Nat) : Nat :=
  sumList ((upFrom 0 3).map (fun a =>
    b2n (coord ma a == x.len a - 1) * 2 ^ (2 * a) + b2n (coord ma a == 0) * 2 ^ (2 * a + 1)))

/-- The module's own record when it manages: placed, answering, with its own ports. -/
def Dev.placeSelf (d : Dev) : Dev :=
  d.setMgrMod (myMa d) (some { (mgrMod d (myMa d)).getD MgrMod.new with
    serial := Config.serial, agt := agtWord d, outcome := 1, acked := true
    ports := (upFrom 0 6).map (fun p =>
      (field (discoverPort d p) 0 8, (portOf d p).st.code, bits (d.rd (lnkReg p 0x0CC)) 2 0, (portOf d p).width,
        bits (d.rd (lnkReg p 0x0C8)) 31 16, d.rd (lnkReg p 0x0D8)))
    dig := digestPrefix d })

/-! ## Discovery (R322, R323) -/

/-- The states over which a port carries management, so that it meets a module. -/
def carriesMgmt (st : Nat) : Bool :=
  st == LnkSt.up.code || st == LnkSt.held.code || st == LnkSt.quarantine.code || st == LnkSt.miswired.code

/-- The serial that a port is to meet: the one that the plan binds to the far end's position, else the one it meets. -/
def plannedSerial (x : Plan) (ma p met : Nat) : Nat := let s := (x.pos (x.far ma p).1).1; if s = 0 then met else s

/-- What the manager writes to a module that agrees (R322 step 4), beside its RTR_MA, by what DISCOVER_REPLY said of its ports; `bad` names
the positions whose module does not agree (R323). -/
def agreeWrites (x : Plan) (bad : Nat → Bool) (ma : Nat) (y : MgrMod) : List RegEntry :=
  let expects (p : Nat) : List RegEntry :=
    let serial := plannedSerial x ma p (y.port p).1
    [keyWrite (lnkReg p 0x0B4) (serial % 2 ^ 32), keyWrite (lnkReg p 0x0B8) (serial / 2 ^ 32),
      keyWrite (lnkReg p 0x0B0) (if x.expect ma p = 0 then 0 else 2 ^ 31 + (x.far ma p).2), keyWrite (lnkReg p Reg.LNK_MIN_WIDTH) (x.width ma p)]
  let admits (p : Nat) : List RegEntry :=
    let q := y.port p
    if carriesMgmt q.2.1 ∧ (x.expect ma p = 0 ∨ bad (x.far ma p).1) then [keyWrite (lnkReg p 0x0BC) 2]
    else if q.2.1 = LnkSt.held.code ∧ x.expect ma p ≠ 0 ∧ q.1 = plannedSerial x ma p q.1 ∧ q.2.2.1 = (x.far ma p).2 then
      [keyWrite (lnkReg p 0x0BC) 1]
    else []
  ((upFrom 0 6).map expects).flatten ++
    [keyWrite Reg.AGT_PORT_PLAN (2 ^ 31 + sumList ((upFrom 0 6).map (fun p => x.expect ma p * 2 ^ (2 * p))))] ++
    ((upFrom 0 6).map admits).flatten

/-- A module was met at a position and does not agree. -/
def badAt (d : Dev) (ma : Nat) : Bool := (mgrMod d ma).any (fun y => decide (2 ≤ y.outcome))

/-- The writes of R322 step 4 to a module: RTR_MA in a message of its own, unless it has it already, and the others. -/
def agreeSends (d : Dev) (x : Plan) (addressed : Bool) (ma : Nat) : List MgrSend :=
  (if addressed then [] else writeSends d ma [keyWrite Reg.RTR_MA (0x8000 + ma)]) ++
    writeSends d ma (agreeWrites x (badAt d) ma ((mgrMod d ma).getD MgrMod.new))

/-- The position that a relay path from this module ends at. -/
def pathEnd (x : Plan) (ma : Nat) (path : List Nat) : Nat := path.foldl (fun m p => (x.far m p).1) ma

/-- The PROTO that the neighbours of a module say it has. -/
def protoSeen (d : Dev) (serial : Nat) : Nat :=
  ((d.mgr.mods.findSome? (fun e => e.2.bind (fun y => y.ports.find? (fun q => q.1 == serial)))).map (fun q => q.2.2.2.2.1)).getD 0

/-- The outcome of a position (R323) for a module found there: serial, AGT_STATE, digest prefix and protocol. -/
def outcomeOf (d : Dev) (x : Plan) (ma serial agt dig proto : Nat) : Nat :=
  if x.empty ma then 6
  else if d.mgr.mods.any (fun e => e.1 != ma && (match e.2 with | some y => y.serial == serial && y.outcome == 1 | none => false)) then 2
  else if (x.pos ma).1 ≠ 0 ∧ (x.pos ma).1 ≠ serial then 3
  else if ¬ agt.testBit 9 ∧ ¬ x.digests.any (fun g => g % 2 ^ 32 == dig) then 4
  else if proto / 256 = 1 ∧ ¬ ((x.pos ma).2.testBit 2 ∧ x.compat) then 5
  else 1

/-- The six ports of a DISCOVER_REPLY. -/
def replyPorts (bs : List Byte) : List (Nat × Nat × Nat × Nat × Nat × Nat) :=
  (upFrom 0 6).map (fun p =>
    let o := 16 + 16 * p
    (field bs o 8, bits (field bs (o + 8) 1) 7 4, bits (field bs (o + 8) 1) 2 0, field bs (o + 9) 1, field bs (o + 10) 2,
      field bs (o + 12) 4))

/-- LNK_ADMIT = 2 at a port of a position whose module agrees. -/
def Dev.markPort (d : Dev) (ma p : Nat) : Dev := d.mgrTell (writeSends d ma [keyWrite (lnkReg p 0x0BC) 2])

/-- LNK_ADMIT = 2 at every port that the manager knows to meet a module which does not agree (R323). -/
def Dev.markToward (d : Dev) (x : Plan) (ma : Nat) : Dev :=
  (upFrom 0 6).foldl (fun d p =>
    let f := x.far ma p
    if (mgrMod d f.1).any (fun y => y.outcome == 1 && y.acked && carriesMgmt (y.port f.2).2.1) then d.markPort f.1 f.2 else d) d

/-- PWR_TARGET = 2 for a module whose position carries TRANSIT, once its AGT_STATE says that its self-tests have passed (R514; DESIGN
CHOICE, log entry 271: when it is placed, and when it becomes READY). -/
def transitSends (d : Dev) (x : Plan) (ma agt : Nat) : List MgrSend :=
  if (x.pos ma).2.testBit 1 ∧ agt.testBit 8 then writeSends d ma [keyWrite Reg.PWR_TARGET 2] else []

/-- A module that was met is placed at a position with an outcome, and gets what that asks for: the writes of one that agrees; EXCLUDE
and the marking of the ports toward one that does not, which is reported; an EXTRA one is only marked (R322, R323). -/
def Dev.placeMod (d : Dev) (x : Plan) (addressed : Bool) (ma : Nat) (y : MgrMod) : Dev :=
  let out := outcomeOf d x ma y.serial y.agt y.dig (protoSeen d y.serial)
  let d := d.setMgrMod ma (some { y with outcome := out })
  if out = 1 then d.mgrTell (agreeSends d x addressed ma ++ transitSends d x ma y.agt)
  else
    let d := if out = 6 then d else d.mgrTell (writeSends d ma [keyWrite Reg.AGT_PORT_PLAN (2 ^ 30)])
    (d.markToward x ma).send (.report 2 ma out)

/-- Where an answer of discovery comes from: a position by its relay path, while discovery follows that path, or a module by its MA. -/
def discoverFrom (d : Dev) (m : TMsg) : Option (List Nat ⊕ Nat) :=
  match m.src with
  | .fabric ma => some (.inr ma)
  | .relay o path _ => if d.mgr.frontier.contains path then some (.inl path) else o.map .inr
  | _ => none

/-- CLAIM_ACK reaches the manager, which may then write the agent; it asks it what it meets (R322). An agent that held a term before was
written by another manager: what that one left is read and resolved when discovery ends (R307). -/
def execClaimAck (o : Option TMsg) (s : State) : Host.Outcome State Fault Refusal :=
  onBelfry 5 o (fun m d =>
    if belRole d ≠ roActive ∨ field m.body 0 4 ≠ d.rd Reg.BEL_TERM then d
    else
      let body := leBytes 4 (d.rd Reg.BEL_TERM)
      match discoverFrom d m with
      | some (.inl path) =>
        let d : Dev := if field m.body 4 4 ≠ 0 ∧ d.mgr.taken.isNone then { d with mgr := { d.mgr with taken := some (myMa d) } } else d
        d.mgrRelay path famBelfry 7 body
      | some (.inr ma) =>
        let d := d.setMgrMod ma (some { (mgrMod d ma).getD MgrMod.new with acked := true })
        (d.resendTo ma).mgrTo ma famBelfry 7 body
      | none => d) s

/-! ## Installing a bank (R338-R346) -/

/-- The longest leg that any router of the fabric takes on an axis under its lines' masks (R342). -/
def longestLeg (x : Plan) (mas : List Nat) (mask : Nat → Nat → Nat) (a : Nat) : Nat :=
  let l := x.len a
  let leg (ma c t : Nat) : Nat :=
    let dp := (t + l - c) % l
    let dn := l - dp
    let cp := clearLinks (mask ma a) l dp c
    let cn := clearLinks (mask ma a) l dn (c + l - dn)
    if t = c then 0
    else if dp ≤ dn then (if cp then dp else if cn then dn else 0)
    else (if cn then dn else if cp then dp else 0)
  (mas.map (fun ma => ((upFrom 0 l).map (fun c => ((upFrom 0 l).map (fun t => leg ma c t)).foldl max 0)).foldl max 0)).foldl max 0

/-- The usable modules (R341). -/
def usable (d : Dev) (x : Plan) : List Nat := (memberMas d).filter (fun ma => !outOfUse d x ma)

/-- The blocked pairs (R341): usable modules between which no route leads. -/
def blockedPairs (d : Dev) (x : Plan) : List (Nat × Nat) :=
  ((usable d x).map (fun a => ((usable d x).filter (fun b => !routeLeads d x 3 a b)).map (fun b => (a, b)))).flatten

/-- The members of set 0 (R341, R348): every usable module that reaches, and is reached by, all others. -/
def openSet (d : Dev) (x : Plan) : List Nat :=
  let blocked := blockedPairs d x
  (usable d x).filter (fun ma => !blocked.any (fun p => p.1 == ma || p.2 == ma))

/-- The set of a contained slice (R341): its usable members that reach, and are reached by, every other. -/
def containedSet (d : Dev) (x : Plan) (mas : List Nat) : List Nat :=
  let us := mas.filter (fun a => (usable d x).contains a)
  us.filter (fun a => us.all (joined d x a))

/-- The sets that a bank is to have (R348): the open one, and those of the contained slices whose setup has come to that or is done. -/
def bankSets (d : Dev) (x : Plan) : BankSets :=
  ⟨openSet d x, d.mgr.slices.filterMap (fun e => match e.2 with
    | some y => if y.contained ∧ y.st ≠ 1 ∧ y.st ≠ 4 ∧ y.members ≠ [] then some ⟨e.1, y.members, containedSet d x y.members⟩ else none
    | none => none)⟩

/-- The member entry at which a contained slice's own range begins (R348): the ranges follow each other in the order of tenants. -/
def rangeOf (t : Nat) : List ContSet → Nat
  | [] => 32768
  | e :: es => if e.tenant = t then 32768 else e.set.length + rangeOf t es

/-- The address of a bank's tables. -/
def bankBase (b : Nat) : Nat := 0x0200000000 + b * 0x10000000

/-- The member list of a bank, the same at every module (R348): the open set from entry 0 and the ranges from entry 32,768, two entries
to a word. -/
def memberWrites (sets : BankSets) (b : Nat) : List RegEntry :=
  let pairs (first : Nat) (ms : List Nat) : List RegEntry :=
    (chunks 2 (ms.length + 1) ms).zipIdx.map (fun c =>
      ⟨bankBase b + 0x30000 + 2 * first + 4 * c.2, 4, listAt 0 c.1 0 + listAt 0 c.1 1 * 2 ^ 16⟩)
  pairs 0 sets.opened ++ pairs 32768 (sets.contained.map (·.set)).flatten

/-- The words of the tenant map that may hold a byte of 1 which a copy of the LIVE bank brings along (R352 step 6): by the sets it was
given, or every word when this manager does not know them. -/
def staleMap (d : Dev) (ma : Nat) : List Nat :=
  match d.mgr.sets with
  | some old => (old.contained.filter (fun e => e.members.contains ma)).map (fun e => e.tenant / 4)
  | none => if anyLive d then upFrom 0 128 else []

/-- The set descriptors and map bytes of a bank at one member (R348): set 0; for a member of a contained slice set 1 and a byte of 1 for
its tenant; and 0 for every other. -/
def setWrites (d : Dev) (sets : BankSets) (b ma : Nat) : List RegEntry :=
  let own := sets.contained.find? (fun e => e.members.contains ma)
  let word (i v : Nat) : RegEntry := ⟨bankBase b + 0x20100 + 4 * i, 4, v⟩
  let clear := (staleMap d ma).filter (fun i => !own.any (fun e => e.tenant / 4 == i))
  ⟨bankBase b + 0x20000, 4, sets.opened.length⟩ :: clear.map (fun i => word i 0) ++
    (match own with
      | some e => [⟨bankBase b + 0x20004, 4, rangeOf e.tenant sets.contained * 2 ^ 16 + e.set.length⟩,
          word (e.tenant / 4) (2 ^ (8 * (e.tenant % 4)))]
      | none => [])

/-- The body of one ROUTE_PREPARE fragment; its TERM is 0 in trio mode (R344). -/
def prepareBody (d : Dev) (epoch salt drain hops flags : Nat) (mas : List Nat) : List Byte :=
  leBytes 4 (if trioMode d then 0 else d.rd Reg.BEL_TERM) ++ leBytes 4 epoch ++ leBytes 4 salt ++ leBytes 4 drain ++
    leBytes 1 hops ++ leBytes 1 flags ++ leBytes 1 mas.length ++ [0] ++ (mas.map (leBytes 2)).flatten

/-- What was written to a module is no longer known to stand there. -/
def Dev.forgetMasks (d : Dev) (ma : Nat) : Dev :=
  { d with mgr := { d.mgr with masks := SMap.erase (fun k => k / 8 == ma) d.mgr.masks } }

/-- A register of a member as it was last read; this module's own as it is. -/
def seenAt (d : Dev) (ma key : Nat) : Nat :=
  if ma = myMa d then d.rd key else match mgrMod d ma with | some y => SMap.get (fun _ => 0) y.seen key | none => 0

/-- A bank of a member: its state and epoch; a SEALED one whether it is PENDING. -/
def seenBank (d : Dev) (ma b : Nat) : Nat × Nat × Bool :=
  let w := seenAt d ma Reg.RTB_BANK_STATE
  (bits w (4 * b + 2) (4 * b), seenAt d ma (if b = 0 then Reg.RTB_EPOCH0 else Reg.RTB_EPOCH1), w.testBit 8)

/-- A bank of a member is LIVE, by what was last read. -/
def seenLive (d : Dev) (ma : Nat) : Bool := [0, 1].any (fun b => (seenBank d ma b).1 == 2)

/-- The registers of the generator that a manager keeps written at a member, in the order of their numbers in `Manager.masks`: the masks of
its lines, RTR_DATELINE and RTB_DIMS, with their values. -/
def maskRegs (d : Dev) (x : Plan) (ma : Nat) : List (Nat × Nat) :=
  (upFrom 0 3).map (fun a => (Reg.RTB_LINE_X + 4 * a, lineOf d x ma a)) ++
    [(Reg.RTR_DATELINE, datelineOf x ma), (Reg.RTB_DIMS, (x.lz - 1) * 2 ^ 10 + (x.ly - 1) * 2 ^ 5 + (x.lx - 1))]

/-- Those of them that change: not what the manager wrote there; RTB_DIMS not while a bank of the member is LIVE (R343, R361). -/
def maskWrites (d : Dev) (x : Plan) (ma : Nat) : List RegEntry :=
  ((maskRegs d x ma).zipIdx.filter (fun e => SMap.get (fun _ => 0) d.mgr.masks (8 * ma + e.2) != e.1.2 + 1 &&
    !(e.2 == 4 && seenLive d ma))).map (fun e => keyWrite e.1.1 e.1.2)

/-- The exclusion list (R338): every position where a module is planned that is out of use. -/
def exclusions (d : Dev) (x : Plan) : List Nat := x.all.filter (fun ma => !x.empty ma && outOfUse d x ma)

/-- The stages of an installation (R345): the masks that change, and ROUTE_PREPARE with the exclusion list in fragments, the last of which seals
unless the sets change; then, after the TABLES campaign of changed sets, their descriptors and map bytes and the sealing fragment; at
the end FLIP. Those after the campaign stand apart. -/
def installStages (d : Dev) (x : Plan) (sets : BankSets) (epoch salt : Nat) : List (List MgrSend) × List (List MgrSend) :=
  let mas := memberMas d
  let b := epoch % 2
  let legs := sumList ((upFrom 0 3).map (longestLeg x mas (lineOf d x)))
  let hops := legs * (if sets.opened.isEmpty ∧ sets.contained.isEmpty then 1 else 2)
  let oldHops := d.rd (if b = 0 then Reg.RTB_MAX_HOPS1 else Reg.RTB_MAX_HOPS0)
  let drain := max 12000 (1000 + (5 * d.rd Reg.MSR_PERIOD + 3) / 4 + max hops oldHops * d.rd Reg.RTR_HOP_AGE)
  let masks := (mas.map (fun ma => writeSends d ma (maskWrites d x ma))).flatten
  let frags := chunks 54 ((exclusions d x).length + 1) (exclusions d x)
  let prep (flags : Nat) (ex : List Nat) : List MgrSend :=
    mas.map (fun ma => ⟨ma, famBelfry, 13, prepareBody d epoch salt drain hops flags ex⟩)
  let flip := (mas.map (fun ma => writeSends d ma [keyWrite Reg.RTB_FLIP epoch])).flatten
  let same := d.mgr.sets == some sets
  let last := frags.length ≤ 1
  let first := [masks, prep (if same ∧ last then 7 else 3) (frags.headD [])] ++
    (frags.drop 1).zipIdx.map (fun f => prep (if same ∧ f.2 + 2 = frags.length then 4 else 0) f.1)
  if same then (first ++ [flip], [])
  else (first, [(mas.map (fun ma => writeSends d ma (setWrites d sets b ma))).flatten, prep 4 [], flip])

/-- The writes that unseal an epoch at every member; at a bank that is FREE they do nothing (R235). -/
def unsealStage (d : Dev) (epoch : Nat) : List MgrSend :=
  ((memberMas d).map (fun ma => writeSends d ma [keyWrite Reg.RTB_UNSEAL epoch])).flatten

/-- The slice of a tenant. -/
def sliceOf (d : Dev) (t : Nat) : Option Slice := SMap.get (fun _ => none) d.mgr.slices t
def Dev.setSlice (d : Dev) (t : Nat) (y : Option Slice) : Dev :=
  { d with mgr := { d.mgr with slices := SMap.put (fun _ => none) d.mgr.slices t y } }

/-- A slice takes a state with a status, and owner software is told (R349). -/
def Dev.sliceState (d : Dev) (t st last : Nat) : Dev :=
  match sliceOf d t with
  | some y => (d.setSlice t (some { y with st := st, last := last })).send (.report 4 t (st * 256 + last))
  | none => d

/-- A script's next stages leave, and the script joins the others while a message of it waits. -/
def Dev.beginScript (d : Dev) (j : MgrJob) (stages : List (List MgrSend)) : Bool × Dev :=
  let r := d.stageOn j stages
  (r.1.isSome, { r.2 with mgr := { r.2.mgr with scripts := r.2.mgr.scripts ++ r.1.toList } })

/-- A script of a kind waits. -/
def working (d : Dev) (j : MgrJob) : Bool := d.mgr.scripts.any (fun x => x.job == j)

/-- A value of the manager's own choice: any, and in trio mode the same at all three voters (R315). -/
def freshAgreed (d : Dev) (epoch which : Nat) : Nat := if trioMode d then Config.agreed epoch which else d.fresh

/-- FLIP has been sent once the last stage of an installation has left (R346). -/
def Dev.noteFlip (d : Dev) : Dev :=
  match d.mgr.install with
  | some i =>
    if i.rest.isEmpty ∧ d.mgr.scripts.any (fun x => x.job == .install && x.stages.isEmpty) then
      { d with mgr := { d.mgr with install := some { i with flipped := true } } }
    else d
  | none => d

/-- An installation of an epoch begins with some stages before its own. -/
def Dev.beginInstall (d : Dev) (x : Plan) (epoch : Nat) (first : List (List MgrSend)) : Dev :=
  let d := d.placeSelf
  let sets := bankSets d x
  let stages := installStages d x sets epoch (freshAgreed d epoch 0 % 2 ^ 32)
  let d := (d.used.beginScript .install (first ++ stages.1)).2
  let d := (blockedPairs d x).foldl (fun d p => d.send (.report 3 p.1 p.2)) d
  { d with mgr := { d.mgr with again := false, install := some ⟨epoch, memberMas d, false, some sets, stages.2, none, false⟩ } }

/-- The epochs of the members' banks that satisfy a test, by what was last read. -/
def epochsWhere (d : Dev) (f : Nat × Nat × Bool → Bool) : List Nat :=
  ((memberMas d).map (fun ma => ([0, 1].map (seenBank d ma)).filter f)).flatten.map (·.2.1)

/-- The next epoch: one more than that of any bank known to be LIVE. -/
def nextEpoch (d : Dev) : Nat := (epochsWhere d (fun k => k.1 == 2)).foldl max (d.rd Reg.RTB_LIVE_EPOCH) + 1

/-- The manager begins an installation, unless one runs, or what the last term left is still to be resolved, or a bank drains somewhere
or is PENDING: then another follows (R307, R345 step 1, R346). What an earlier installation sealed is unsealed first (R239). -/
def Dev.startInstall (d : Dev) : Dev :=
  match d.agt.plan with
  | none => d
  | some x =>
    if ¬ servesJobs d then d
    else
      let epoch := nextEpoch d
      let b := epoch % 2
      if d.mgr.install.isSome ∨ working d .release ∨ working d .resolve ∨ d.mgr.taken.isSome ∨ bankState d b = 3 ∨
          (d.rd Reg.RTB_BANK_STATE).testBit 8 then
        { d with mgr := { d.mgr with again := true } }
      else if bankState d b = 1 then d.beginInstall x epoch [unsealStage d (bankEpoch d b)]
      else d.beginInstall x epoch []

/-- The installation is prepared again from its masks (R346): before FLIP, what is sealed is unsealed. A mask write without its answer may
not stand. -/
def Dev.reinstall (d : Dev) : Dev :=
  match d.mgr.install with
  | none => d.startInstall
  | some i =>
    if i.flipped then { d with mgr := { d.mgr with again := true } }
    else
      let d : Dev := { d with mgr := { d.mgr with install := none, scripts := d.mgr.scripts.filter (fun s => s.job != .install) } }
      match d.agt.plan with
      | some x => d.beginInstall x i.epoch [unsealStage d i.epoch]
      | none => d

/-- A bank is FREE again everywhere: modules whose drain an installation has served are DRAINED (R358), and the installation that waited
begins. -/
def Dev.released (d : Dev) : Dev :=
  if ¬ servesJobs d ∨ working d .release ∨ bankState d 0 = 3 ∨ bankState d 1 = 3 then d
  else
    let gone := d.mgr.drains.filter (fun e => e.2 == 1)
    let d := if d.mgr.install.isNone ∧ ¬ d.mgr.again then
        gone.foldl (fun d e => ({ d with mgr := { d.mgr with drains := SMap.put (fun _ => 0) d.mgr.drains e.1 2 } } : Dev).send (.report 5 e.1 1)) d
      else d
    if d.mgr.again then d.startInstall else d

/-- Every other module's RTB_BANK_STATE is read, for the end of a wait. -/
def Dev.pollBanks (d : Dev) (j : MgrJob) : Bool × Dev :=
  d.beginScript j [((memberMas d).filter (fun ma => ma != myMa d)).map (fun ma => readSend ma Reg.RTB_BANK_STATE)]

/-- The bank of the installation is LIVE here and at every member: the installation ends, its contained slices become ACTIVE, which owner
software is told (R349), a standby is appointed, and the release of the old bank is waited for (R345 step 6). -/
def Dev.installed (d : Dev) : Dev :=
  match d.mgr.install with
  | none => d
  | some i =>
    if ¬ i.live ∨ d.rd Reg.RTB_LIVE_EPOCH ≠ i.epoch ∨ ¬ anyLive d then d
    else
      let ready := (d.mgr.slices.filter (fun e => e.2.any (fun y => y.contained && y.st == 5 &&
        i.sets.any (fun k => k.contained.any (fun c => c.tenant == e.1))))).map (·.1)
      let d : Dev := { d with mgr := { d.mgr with install := none, sets := i.sets } }
      let r := ((ready.foldl (fun (d : Dev) t => d.sliceState t 2 OK) d).appointStandby).pollBanks .release
      if r.1 then r.2 else r.2.released

/-- The bank is LIVE at every other member. -/
def Dev.liveThere (d : Dev) : Dev :=
  ({ d with mgr := { d.mgr with install := d.mgr.install.map (fun i => { i with live := true }) } } : Dev).installed

/-- FLIP has been answered: the bank's going LIVE elsewhere is waited for (R349). -/
def Dev.flipDone (d : Dev) : Dev :=
  let r := ({ d with mgr := { d.mgr with install := d.mgr.install.map (fun i => { i with flipped := true }) } } : Dev).pollBanks .live
  if r.1 then r.2 else r.2.liveThere

/-! ## What a term leaves in the banks (R239, R307) -/

/-- The registers that a new manager reads of every member. -/
def resolveKeys : List Nat :=
  [Reg.RTB_BANK_STATE, Reg.RTB_EPOCH0, Reg.RTB_EPOCH1, Reg.RTB_LINE_X, Reg.RTB_LINE_Y, Reg.RTB_LINE_Z]

/-- The banks as the last term left them are resolved (R239; DESIGN CHOICE, log entry 217): a FLIP that reached some modules is sent to
all; a seal that reached some is undone and the installation starts again; a bank that was only being written, or none, is written
anew by an installation; where a bank drains, it waits for the releases. -/
def Dev.resolveBanks (d : Dev) : Dev :=
  match d.agt.plan with
  | none => d
  | some x =>
    let live := epochsWhere d (fun k => k.1 == 2)
    let pending := epochsWhere d (fun k => k.1 == 1 && k.2.2)
    let sealed := epochsWhere d (fun k => k.1 == 1)
    let flip := (live ++ pending).foldl max 0
    let drains := (memberMas d).any (fun ma => [0, 1].any (fun b => (seenBank d ma b).1 == 3))
    let d : Dev := { d with mgr := { d.mgr with taken := none } }
    if pending ≠ [] ∨ live.any (fun e => e != flip) then
      let d := (d.beginScript .install [((memberMas d).map (fun ma => writeSends d ma [keyWrite Reg.RTB_FLIP flip])).flatten]).2
      { d with mgr := { d.mgr with install := some ⟨flip, memberMas d, true, none, [], none, false⟩ } }
    else match sealed with
    | e :: _ => d.beginInstall x e [unsealStage d e]
    | [] =>
      if drains then
        let r := ({ d with mgr := { d.mgr with again := true } } : Dev).pollBanks .release
        if r.1 then r.2 else r.2.released
      else d.startInstall

/-- A new manager reads what the last term left at every member (R307). -/
def Dev.beginResolve (d : Dev) : Dev :=
  let r := d.beginScript .resolve [((memberMas d).filter (fun ma => ma != myMa d)).map (fun ma => readsSend ma resolveKeys)]
  if r.1 then r.2 else r.2.resolveBanks.appointStandby

/-! ## Slices (R349-R352) -/

/-- A 24-byte setup record (R333): its range of MAs and its write. -/
def recRange (r : List Byte) (ma : Nat) : Bool := decide (field r 0 2 ≤ ma ∧ ma ≤ field r 2 2)
def recEntry (r : List Byte) : RegEntry := ⟨field r 8 5, field r 4 1, field r 16 8⟩

/-- The policy writes among entries, as POLICY_SETs of at most seven (R351). -/
def policySends (d : Dev) (ma : Nat) (es : List RegEntry) : List MgrSend :=
  (chunks 7 (es.length + 1) es).map (fun c =>
    ⟨ma, famBelfry, 16, leBytes 4 (termField d) ++ leBytes 1 c.length ++ [0, 0, 0] ++
      (c.map (fun e => leBytes 2 ((e.addr - 0x0260000000) / 8) ++ List.replicate 6 (0 : Byte) ++ leBytes 8 e.value)).flatten⟩)

/-- An entry that writes slot 6. -/
def RegEntry.isPolicy (e : RegEntry) : Bool := decide (0x0260000000 ≤ e.addr ∧ e.addr < 0x0270000000)
/-- An entry that writes a WNG region, a window or a group. -/
def RegEntry.isRegion (e : RegEntry) : Bool := decide (mAddr 0x08000 ≤ e.addr ∧ e.addr < mAddr 0x10000)
def RegEntry.isWindow (e : RegEntry) : Bool := decide (0x0230000000 ≤ e.addr ∧ e.addr < 0x0240000000)
def RegEntry.isGroup (e : RegEntry) : Bool := decide (0x0220000000 ≤ e.addr ∧ e.addr < 0x0220020000)

/-- The tenant registers of step 3: those of the copy engines, and all. -/
def engineWrites (v : Nat) : List RegEntry := (upFrom 0 8).map (fun n => keyWrite (0x4C104 + 0x10 * n) v)
def tenantWrites (v : Nat) : List RegEntry :=
  [keyWrite Reg.ARR_TENANT v, keyWrite Reg.COL_TENANT v, keyWrite Reg.RTR_RA_TENANT v] ++ engineWrites v

/-- The writes of a slice's records that cover a member. -/
def memberEntries (y : Slice) (ma : Nat) : List RegEntry := (y.records.filter (fun r => recRange r ma)).map recEntry

/-- The session slots that serve a tenant at a member: those whose master IDs the command's policy entries match, where the command
lists no ETH_SLOT write itself (R368, R350 step 4; DEDUCED, log entry 255). -/
def slotWrites (t : Nat) (es : List RegEntry) : List RegEntry :=
  ((upFrom 0 16).filter (fun n =>
    es.any (fun e => e.isPolicy && e.value.testBit 15 && decide (bits e.value 55 48 ≤ 0x10 + n ∧ 0x10 + n ≤ bits e.value 63 56)) &&
    !es.any (fun e => e.addr == mAddr (Reg.ETH_SLOT + 4 * n)))).map (fun n => keyWrite (Reg.ETH_SLOT + 4 * n) (2 ^ 31 + 2 ^ 30 + t))

/-- The stages of setup (R350 steps 2-4). -/
def setupStages (d : Dev) (t : Nat) (y : Slice) : List (List MgrSend) :=
  let each (f : Nat → List MgrSend) : List MgrSend := (y.members.map f).flatten
  [each (fun ma =>
      let rs := (memberEntries y ma).filter (fun e => e.isRegion)
      writeSends d ma (if rs.isEmpty then
        ((upFrom 0 8).map (fun w => [keyWrite (rkey (8 + w) 0x084) t, keyWrite (rkey (8 + w) 0x080) 5721])).flatten else rs)),
   each (fun ma => writeSends d ma (tenantWrites t)),
   each (fun ma => writeSends d ma ((memberEntries y ma).filter (fun e => !e.isRegion && !e.isPolicy) ++ slotWrites t (memberEntries y ma)) ++
     policySends d ma ((memberEntries y ma).filter (fun e => e.isPolicy)))]

/-- The order to scrub, which has no message of its own: the manager's own module begins its scrub, others are told. -/
def scrubSend (ma t : Nat) : MgrSend := ⟨ma, 0, 0, leBytes 2 t⟩

/-- The stages of teardown before the scrub (R352 steps 1-3), the wait for the scrub's end, and step 5. A copy queue is empty when its
engine takes the tenant that it has already (R160; DEDUCED, log entry 92). -/
def teardownStages (d : Dev) (t : Nat) (y : Slice) : List (List MgrSend) :=
  let each (f : Nat → List MgrSend) : List MgrSend := (y.members.map f).flatten
  [each (fun ma => policySends d ma (((memberEntries y ma).filter (fun e => e.isPolicy)).map (fun e => { e with value := 0 }))),
   each (fun ma => writeSends d ma [keyWrite (rkey 0x080 0x010) 1, keyWrite (rkey 0x030 0x010) 1]),
   each (fun ma => [readSend ma Reg.RTR_RA_QUEUED]),
   each (fun ma => writeSends d ma (engineWrites t)),
   each (fun ma => writeSends d ma (
     (((memberEntries y ma).filter (fun e => e.isWindow)).map (fun e => ⟨e.addr / 16 * 16 + 8, 8, 0⟩)) ++
     (((memberEntries y ma).filter (fun e => e.isGroup)).map (fun e => keyWrite Reg.GRP_DISABLE ((e.addr - 0x0220000000) / 32))))),
   each (fun ma => [scrubSend ma t]),
   each (fun ma => [readSend ma Reg.PWR_STATE]),
   each (fun ma => writeSends d ma (tenantWrites 0x200))]

/-- The teardown of a slice is done: the slice is FREE, and a contained one's end is followed by an installation (R349, R352). -/
def Dev.sliceGone (d : Dev) (t : Nat) : Dev :=
  match sliceOf d t with
  | some y =>
    let d := (d.setSlice t none).send (.report 4 t (0 + y.last))
    if y.contained then d.startInstall else d
  | none => d

/-- The teardown of a slice begins (R349, R352); an order of its setup that runs is dropped. A slice with no member left has
nothing to tear down. -/
def Dev.sliceRelease (d : Dev) (t last : Nat) : Dev :=
  match sliceOf d t with
  | none => d
  | some y =>
    if y.st = 4 then d
    else
      let d := d.sliceState t 4 last
      let d : Dev := { d with mgr := { d.mgr with scripts := d.mgr.scripts.filter (fun s => s.job != .setup t) } }
      let r := d.beginScript (.teardown t) (teardownStages d t y)
      if r.1 then r.2 else r.2.sliceGone t

/-- A member of a slice is lost, excluded or not READY (R349). -/
def Dev.memberLeft (d : Dev) (ma : Nat) : Dev :=
  match d.mgr.slices.find? (fun e => match e.2 with | some y => y.members.contains ma | none => false) with
  | none => d
  | some (t, none) => let _ := t; d
  | some (t, some y) =>
    if y.st = 1 ∨ y.st = 5 then d.sliceRelease t SLICE_INVALID
    else if y.st = 2 ∨ y.st = 3 then
      (d.setSlice t (some { y with members := y.members.filter (fun x => x != ma) })).sliceState t 3 OK
    else d.setSlice t (some { y with members := y.members.filter (fun x => x != ma) })

/-- Every step of a setup is done, but a contained slice's installation, which follows (R349, R350). -/
def Dev.setupDone (d : Dev) (t : Nat) : Dev :=
  match sliceOf d t with
  | some y => if y.contained then (d.setSlice t (some { y with st := 5, last := OK })).startInstall else d.sliceState t 2 OK
  | none => d

/-! ## Creation (R350, R374) -/

/-- The assembly of a tenant's slice. -/
def asmOf (d : Dev) (t : Nat) : Option SliceAsm := SMap.get (fun _ => none) d.mgr.asms t
def Dev.setAsm (d : Dev) (t : Nat) (x : Option SliceAsm) : Dev :=
  { d with mgr := { d.mgr with asms := SMap.put (fun _ => none) d.mgr.asms t x } }

/-- A list has a member twice. -/
def hasDuplicate : List Nat → Bool
  | [] => false
  | x :: xs => xs.contains x || hasDuplicate xs

/-- A module is scrubbing: this one, or another as it last reported PWR_STATE. -/
def moduleScrubs (d : Dev) (ma : Nat) : Bool := (seenAt d ma Reg.PWR_STATE).testBit 8

/-- A module is READY, by its last report. -/
def moduleReady (d : Dev) (ma : Nat) : Bool :=
  (memberMas d).contains ma && (match mgrMod d ma with | some y => bits y.agt 3 0 == agReady | none => false)

/-- The checks of R350 on a tenant and a member list. -/
def sliceCheck (d : Dev) (t : Nat) (contained : Bool) (mas : List Nat) : Nat :=
  if (sliceOf d t).isSome then SLICE_BUSY
  else if mas.any (fun ma => moduleScrubs d ma || d.mgr.slices.any (fun e => match e.2 with | some y => y.members.contains ma | none => false)) then
    SLICE_BUSY
  else if mas.isEmpty ∨ 32768 < mas.length ∨ hasDuplicate mas then SLICE_INVALID
  else if ¬ mas.all (moduleReady d) then SLICE_INVALID
  else match d.agt.plan with
    | none => SLICE_INVALID
    | some x => if contained ∧ ¬ mas.all (fun a => mas.all (fun b => routeLeads d x 3 a b)) then SLICE_INVALID else OK

/-- The members of a complete assembly: none while a member or a record is missing. -/
def SliceAsm.items (x : SliceAsm) : Option (List Nat × List (List Byte)) :=
  if x.members.length = x.count ∧ x.records.length = x.recCount then
    some (x.members.filterMap (·.2), x.records.filterMap (·.2))
  else none

/-- Setup begins: the slice is PREPARING and the first step leaves. -/
def Dev.sliceSetup (d : Dev) (t : Nat) (y : Slice) : Dev :=
  let d := (d.setAsm t none).setSlice t (some y)
  let r := d.beginScript (.setup t) (setupStages d t y)
  if r.1 then r.2 else r.2.setupDone t

/-- The checks of R350 on a complete assembly, by what the members' scrubs were read to be: refused, or set up. -/
def Dev.sliceCommit (d : Dev) (t : Nat) (m : TMsg) : Dev :=
  match (asmOf d t).bind (fun x => x.items.map (fun i => (x.contained, i))) with
  | none => d.reply m SLICE_INVALID []
  | some (contained, mas, recs) =>
    let st := sliceCheck d t contained mas
    if st ≠ OK then d.reply m st []
    else (d.sliceSetup t ⟨1, contained, mas, recs, OK⟩).reply m OK []

/-- The SLICE_COMMIT that waited for the members' scrubs is answered. -/
def Dev.sliceChecked (d : Dev) (t : Nat) : Dev :=
  match (asmOf d t).bind (fun x => x.waiting.map (fun m => (x, m))) with
  | some (x, m) => (d.setAsm t (some { x with waiting := none })).sliceCommit t m
  | none => d

/-! ## Answers -/

/-- PEAL_ACTIVATE for the campaign that has come to its end, to every member but those named. -/
def Dev.tellActivate (d : Dev) (mas : List Nat) : Dev :=
  match d.mgr.campaign with
  | some c => d.mgrTell (mas.map (fun ma => ⟨ma, famBelfry, 12, leBytes 4 (termField d) ++ leBytes 2 c.num ++ leBytes 1 c.kind⟩))
  | none => d

/-- The order in which modules activate: the standby manager's before the manager's own, which is last (R333). -/
def activationOrder (d : Dev) : List Nat :=
  let me := myMa d
  let others := (memberMas d).filter (fun ma => ma != me)
  (others.filter (fun ma => d.bel.mate == some ma)) ++ (others.filter (fun ma => d.bel.mate != some ma)) ++ [me]

/-- What a campaign of the manager's own has brought to the modules is taken into use there: the plan of discovery (R303), or the member
list of the installation that waits for it, which then goes on (R345 step 4). -/
def Dev.autoActivate (d : Dev) : Dev :=
  match d.mgr.campaign with
  | none => d
  | some c =>
    if ¬ c.auto then d
    else if c.kind = 3 then
      let d := d.tellActivate ((memberMas d).filter (fun ma => ma != myMa d))
      { d with mgr := { d.mgr with campaign := none } }
    else match d.mgr.install with
    | some i =>
      if i.tables = some c.num then
        let d := ((d.tellActivate (activationOrder d)).beginScript .install i.rest).2
        ({ d with mgr := { d.mgr with campaign := none, install := some { i with rest := [], tables := none } } } : Dev).noteFlip
      else { d with mgr := { d.mgr with campaign := none } }
    | none => { d with mgr := { d.mgr with campaign := none } }

/-- A script has done all its stages. -/
def Dev.jobDone (d : Dev) (j : MgrJob) : Dev :=
  match j with
  | .peal => d.autoActivate
  | .resolve => d.resolveBanks.appointStandby
  -- with changed sets the TABLES campaign follows (R345 step 4)
  | .install => if d.mgr.install.any (fun i => i.rest.isEmpty) then d.flipDone else d
  | .live => d.liveThere
  | .release => d.released
  | .check t => d.sliceChecked t
  | .setup t => d.setupDone t
  | .teardown t => d.sliceGone t

/-- A refusal ends a script: an installation whose FLIP has not been sent, a setup or the reading of a resolution. Every other goes
on. -/
def refusalEnds (d : Dev) (j : MgrJob) : Bool :=
  match j with
  | .install => !d.mgr.install.any (·.flipped)
  | .setup _ | .resolve | .peal => true
  | .live | .release | .check _ | .teardown _ => false

/-- A step of a script failed with a status: an installation is prepared again, and a setup is torn down. -/
def Dev.jobFailed (d : Dev) (j : MgrJob) (st : Nat) : Dev :=
  match j with
  | .resolve => d.resolveBanks.appointStandby
  | .install => d.reinstall
  | .setup t => d.sliceRelease t st
  | .peal | .live | .release | .check _ | .teardown _ => d

/-- What an installation wrote to the registers of the generator is known once it is answered (R343). -/
def Dev.noteWritten (d : Dev) (x : MgrSend) : Dev :=
  if x.family = famReg ∧ x.code = 2 then
    (upFrom 0 (field x.body 4 1)).foldl (fun (d : Dev) i =>
      match ([Reg.RTB_LINE_X, Reg.RTB_LINE_Y, Reg.RTB_LINE_Z, Reg.RTR_DATELINE, Reg.RTB_DIMS]).idxOf? (field x.body (8 + 16 * i) 5 - mAddr 0) with
      | some n => { d with mgr := { d.mgr with masks := SMap.put (fun _ => 0) d.mgr.masks (8 * x.ma + n) (field x.body (16 + 16 * i) 8 + 1) } }
      | none => d) d
  else d

/-- A message that the manager sent under a tag is answered: the script it belongs to goes on. -/
def Dev.mgrAnswered (d : Dev) (tag st : Nat) : Dev :=
  match takeFirst (fun s => s.waits.any (fun w => w.1 == tag)) d.mgr.scripts with
  | none => d
  | some (sc, others) =>
    let waits := sc.waits.filter (fun w => w.1 != tag)
    if st ≠ OK ∧ refusalEnds d sc.job then ({ d with mgr := { d.mgr with scripts := others } } : Dev).jobFailed sc.job st
    else
      let d := if st = OK then (sc.waits.filter (fun w => w.1 == tag)).foldl (fun d w => d.noteWritten w.2) d else d
      if waits ≠ [] then { d with mgr := { d.mgr with scripts := { sc with waits := waits } :: others } }
      else
        let r := ({ d with mgr := { d.mgr with scripts := others } } : Dev).stageOn sc.job sc.stages
        match r.1 with
        | some sc => ({ r.2 with mgr := { r.2.mgr with scripts := sc :: r.2.mgr.scripts } } : Dev).noteFlip
        | none => r.2.jobDone sc.job

/-- ROUTE_READY reaches the manager (R345). -/
def execRouteReady (o : Option TMsg) (s : State) : Host.Outcome State Fault Refusal :=
  onBelfry 14 o (fun m d => d.mgrAnswered m.rtag (field m.body 5 1)) s

/-- POLICY_DONE reaches the manager (R351). -/
def execPolicyDone (o : Option TMsg) (s : State) : Host.Outcome State Fault Refusal :=
  onBelfry 17 o (fun m d => d.mgrAnswered m.rtag (field m.body 0 1)) s

/-- What the answer to a REG READ of the manager makes it wait for: the end of a teardown's scrub and of its queues, an object that is
still received, a bank that is not LIVE yet, or one that drains. -/
def stillBusy (j : MgrJob) (key v : Nat) : Bool :=
  match j with
  | .peal => key == Reg.AGT_PEAL_STATE && (bits v 2 0 == 1 || bits v 2 0 == 2)
  | .teardown _ => (key == Reg.PWR_STATE && v.testBit 8) || (key == Reg.RTR_RA_QUEUED && v != 0)
  | .live => key == Reg.RTB_BANK_STATE && (bits v 2 0 == 1 || bits v 6 4 == 1)
  | .release => key == Reg.RTB_BANK_STATE && (bits v 2 0 == 3 || bits v 6 4 == 3)
  | .install | .resolve | .check _ | .setup _ => false

/-- The script's job and the message that wait under a tag. -/
def waiting (d : Dev) (tag : Nat) : Option (MgrJob × MgrSend) :=
  d.mgr.scripts.findSome? (fun x => (x.waits.find? (fun w => w.1 == tag)).map (fun w => (x.job, w.2)))

/-- What a REG READ reply says of a module's registers is kept. -/
def Dev.noteRead (d : Dev) (tag : Nat) (body : List Byte) : Dev :=
  match waiting d tag with
  | none => d
  | some (_, x) =>
    match mgrMod d x.ma with
    | some y =>
      let seen := (upFrom 0 (field x.body 0 1)).foldl
        (fun q i => SMap.put (fun _ => 0) q (field x.body (4 + 8 * i) 5 - mAddr 0) (field body (8 + 16 * i) 4)) y.seen
      d.setMgrMod x.ma (some { y with seen := seen })
    | none => d

/-- A reply to a REG READ of the manager: what is not yet done is read again (R352 steps 2 and 4). -/
def Dev.readAnswered (d : Dev) (tag : Nat) (body : List Byte) : Dev :=
  let d := d.noteRead tag body
  let busy : Bool := (waiting d tag).any (fun w => stillBusy w.1 (field w.2.body 4 5 - mAddr 0) (field body 8 4))
  if field body 0 1 = OK ∧ busy then d.resend tag else d.mgrAnswered tag OK

/-- A reply to a REG WRITE of the manager: the wait for the copy queues of a teardown writes again what an engine refused (R160, R352). -/
def Dev.writeAnswered (d : Dev) (tag st : Nat) : Dev :=
  let queued : Bool := (waiting d tag).any (fun w =>
    (match w.1 with | .teardown _ => true | _ => false) && field w.2.body 8 5 == mAddr 0x4C104)
  if st = OUT_OF_RANGE ∧ queued then d.resend tag else d.mgrAnswered tag st

/-! ## Discovery goes on -/

/-- A path that discovery follows leads to a position over a link that the plan has. -/
def leadsTo (x : Plan) (me far : Nat) (path : List Nat) : Bool :=
  pathEnd x me path == far && x.expect (pathEnd x me (path.take (path.length - 1))) (path.getLastD 0) != 0

/-- The modules beyond the ports of one that was reached are claimed, unless one is placed there already or about to be. -/
def Dev.exploreFrom (d : Dev) (x : Plan) (ma : Nat) (path : List Nat) (y : MgrMod) : Dev :=
  (upFrom 0 6).foldl (fun d p =>
    let far := (x.far ma p).1
    let known := (mgrMod d far).any (fun z => z.outcome != 0 && z.acked)
    let coming := d.mgr.frontier.any (leadsTo x (myMa d) far)
    if carriesMgmt (y.port p).2.1 ∧ ¬ known ∧ ¬ coming ∧ far ≠ myMa d then d.explore (path ++ [p]) else d) d

/-- No new module appears: positions that none was reached at are MISSING, and routes are installed, once what an earlier term left has
been read (R307, R322, R323). -/
def Dev.discovered (d : Dev) (x : Plan) : Dev :=
  let d := (x.all.filter (fun ma => !x.empty ma && (mgrMod d ma).isNone)).foldl (fun (d : Dev) ma => d.send (.report 2 ma 7)) d
  if d.mgr.taken.isSome then d.beginResolve else d.startInstall

/-- DISCOVER_REPLY reaches the manager: the module is placed, classified and written, and discovery goes on; when no path is
left, routes are installed (R322, R323). -/
def execDiscoverReply (o : Option TMsg) (s : State) : Host.Outcome State Fault Refusal :=
  onBelfry 8 o (fun m d =>
    match d.agt.plan with
    | none => d
    | some x =>
      if ¬ servesJobs d then d
      else
        let me := myMa d
        -- the manager's own ports get the plan first
        let first : Bool := !(mgrMod d me).any (·.acked)
        let d := d.placeSelf
        let d := if first then d.mgrTell (agreeSends d x true me ++ transitSends d x me (d.rd Reg.AGT_STATE)) else d
        let reply (y : MgrMod) : MgrMod := { y with
          serial := field m.body 0 8, agt := field m.body 8 4, dig := field m.body 12 4, ports := replyPorts m.body, acked := true }
        match discoverFrom d m with
        | some (.inr ma) =>
          -- what the last term wrote at the agent is written again (R307)
          d.placeMod x true ma (reply ((mgrMod d ma).getD MgrMod.new))
        | some (.inl path) =>
          let from_ := pathEnd x me (path.take (path.length - 1))
          let p := path.getLastD 0
          let ma := (x.far from_ p).1
          let d := d.explored path
          let d :=
            if x.expect from_ p = 0 ∧ ¬ x.empty ma then (d.markPort from_ p).send (.report 2 ma 6)
            else
              let y := reply { (mgrMod d ma).getD MgrMod.new with path := path }
              let d := (d.forgetMasks ma).placeMod x false ma y
              if badAt d ma ∧ x.empty ma then d else d.exploreFrom x ma path y
          let d : Dev := { d with mgr := { d.mgr with planDue := true } }
          if d.mgr.frontier.isEmpty then d.discovered x else d
        | none => d) s

/-- READY_CHANGE reaches the manager (R326, R349, R355, R514). -/
def execReadyChange (o : Option TMsg) (s : State) : Host.Outcome State Fault Refusal :=
  onBelfry 9 o (fun m d =>
    let ma := bits (field m.body 4 2) 14 0
    let agt := field m.body 0 4
    match mgrMod d ma with
    | none => d
    | some y =>
      let was := bits y.agt 3 0
      let d := d.setMgrMod ma (some { y with agt := agt, lost := false })
      if bits agt 3 0 = agReady then
        -- a drained module is READY again: its exclusion ends at the next installation (R358)
        let d : Dev := { d with mgr := { d.mgr with
          excluded := d.mgr.excluded.filter (fun x => x != ma), drains := d.mgr.drains.filter (fun e => e.1 != ma) } }
        -- what stands in a module that was lost is not known
        let d := if y.lost then d.forgetMasks ma else d
        let d := match d.agt.plan with
          | some x => if was = agReady then d else d.mgrTell (transitSends d x ma agt)
          | none => d
        (if y.lost ∨ was ≠ agReady then { d with mgr := { d.mgr with settling := routesExist d } } else d).appointStandby
      else if was = agReady then ({ d with mgr := { d.mgr with settling := true } } : Dev).memberLeft ma
      else d) s

/-- A plan that becomes active at a manager: every module that was met is checked against it again (R319, R325), by the expectations that
the manager writes. No LIVE bank changes. -/
def Dev.recheckPlan (d : Dev) (x : Plan) : Dev :=
  if ¬ servesJobs d then d
  else
    let d := d.placeSelf
    d.mgr.mods.foldl (fun d e => match e.2 with
      | some y =>
        if e.1 = myMa d then d.mgrTell (agreeSends d x true e.1 ++ transitSends d x e.1 (d.rd Reg.AGT_STATE))
        else if y.acked ∧ ¬ y.lost ∧ y.outcome ≠ 0 then d.placeMod x (y.outcome == 1) e.1 y
        else d
      | none => d) d

/-! ## Failures (R355) -/

/-- A module is lost: every link it is known by, a REQUIRED one where it has any, is out at the far end, and of one its own agent has said
nothing (R355). -/
def looksLost (d : Dev) (x : Plan) (ma : Nat) : Bool :=
  let links := (upFrom 0 6).filter (fun p => x.expect ma p != 0 && (memberMas d).contains (x.far ma p).1)
  let required := links.filter (fun p => x.expect ma p == 1)
  let judged := if required.isEmpty then links else required
  ma != myMa d && (memberMas d).contains ma && judged.any (portUp d x ma) && judged.all (fun p => !portUp d x (x.far ma p).1 (x.far ma p).2)

/-- What scripts wait for from a module that is lost is waited for no longer (R349); an installation before its FLIP is prepared anew
instead (R346). -/
def Dev.dropWaits (d : Dev) (ma : Nat) : Dev :=
  let mine (sc : Script) : Bool := sc.job != .install || d.mgr.install.any (·.flipped)
  let tags := (((d.mgr.scripts.filter mine).map (·.waits)).flatten.filter (fun w => w.2.ma == ma)).map (·.1)
  let scripts := d.mgr.scripts.map (fun sc =>
    if mine sc then { sc with stages := sc.stages.map (fun st => st.filter (fun x => x.ma != ma)) } else sc)
  tags.foldl (fun d t => d.mgrAnswered t OK) { d with mgr := { d.mgr with scripts := scripts } }

/-- A module is lost: excluded, out of its slice, and replaced as standby. -/
def Dev.moduleLost (d : Dev) (ma : Nat) : Dev :=
  match mgrMod d ma with
  | none => d
  | some y =>
    let d := d.setMgrMod ma (some { y with lost := true })
    let d : Dev := { d with mgr := { d.mgr with excluded := if d.mgr.excluded.contains ma then d.mgr.excluded else d.mgr.excluded ++ [ma] } }
    let d : Dev := if d.bel.mate = some ma then { d with bel := { d.bel with mate := none } } else d
    ((d.memberLeft ma).dropWaits ma).appointStandby

/-- FAILURE_SETTLE: 50 us after the first report the manager acts on all it knows as one event. -/
def execFailureSettle (s : State) : Host.Outcome State Fault Refusal :=
  doneDev s (fun d =>
    match d.agt.plan with
    | none => d
    | some x =>
      if ¬ d.mgr.settling ∨ ¬ servesJobs d ∨ (d.mgr.taken.isSome ∧ ¬ d.mgr.frontier.isEmpty) then d
      else
        let d : Dev := { d with mgr := { d.mgr with settling := false } }
        let d := d.placeSelf
        let lost := (memberMas d).filter (looksLost d x)
        let d := lost.foldl (fun d ma => d.moduleLost ma) d
        match d.mgr.taken with
        | none => d.reinstall
        | some a =>
          -- a takeover: the banks are resolved, and a manager before that has not answered is lost (R307, R355)
          let silent := a != myMa d && !(mgrMod d a).any (·.acked)
          let d := if silent then (d.setMgrMod a (some ((mgrMod d a).getD MgrMod.new))).moduleLost a else d
          ({ d with mgr := { d.mgr with again := silent || !lost.isEmpty } } : Dev).beginResolve)

/-- ROUTE_PREPARE_RESEND: a module has not answered for 300 us (R346). -/
def execRoutePrepareResend (m : BitVec 15) (s : State) : Host.Outcome State Fault Refusal :=
  doneDev s (fun d =>
    ((d.mgr.scripts.map (·.waits)).flatten.filter (fun w => w.2.ma == m.toNat && w.2.code == 13)).foldl (fun d w => d.resend w.1) d)

/-- ROUTE_PREPARE_LOST: a module has not answered at 1 ms and is treated as lost (R346). -/
def execRoutePrepareLost (m : BitVec 15) (s : State) : Host.Outcome State Fault Refusal :=
  doneDev s (fun d =>
    if (d.mgr.scripts.map (·.waits)).flatten.any (fun w => w.2.ma == m.toNat && w.2.code == 13) then
      (d.moduleLost m.toNat).reinstall
    else d)

/-! ## Drains (R235, R237, R358) -/

/-- DRAIN_TIMER: a draining bank becomes FREE and the agent reports the release. -/
def execDrainTimer (b : Fin 2) (s : State) : Host.Outcome State Fault Refusal :=
  doneDev s (fun d =>
    if bankState d b.val = 3 then
      (((d.setBankState b.val 0).wr Reg.RTB_DRAIN_LEFT 0).send (.report 0 b.val (bankEpoch d b.val))).released
    else d)

/-! ## Congestion (R353-R355) -/

/-- The nine bytes of the worse of a link's two ends: the larger UTIL_MAX, STALL_MAX with its VC, and OCC_MAX, a STATE that is not UP, and
the smaller WIDTH. -/
def worseEnd (u v : List Byte) : List Byte :=
  let most (o k : Nat) : List Byte := leBytes k (max (field u o k) (field v o k))
  most 0 2 ++ (if field u 2 2 < field v 2 2 then slice v 2 3 else slice u 2 3) ++ most 5 2 ++
    slice (if field u 7 1 = LnkSt.up.code then v else u) 7 1 ++ leBytes 1 (min (field u 8 1) (field v 8 1))

/-- A link in the fabric map (R354): the worse of its two ends, or the one end that has sent a summary. -/
def fabricMap (d : Dev) (x : Plan) (ma p : Nat) : List Byte :=
  let at_ (e : Nat × Nat) : List Byte := match mgrMod d e.1 with | some y => slice y.cmap (20 + 9 * e.2) 9 | none => []
  let u := at_ (ma, p)
  let v := at_ (x.far ma p)
  if u.isEmpty then v else if v.isEmpty then u else worseEnd u v

/-- The links of a module in the fabric map are offered to owner software (DESIGN CHOICE, log entry 252). -/
def Dev.offerMap (d : Dev) (ma : Nat) : Dev :=
  match d.agt.plan with
  | some x => (upFrom 0 6).foldl (fun d p => d.send (.report 9 (8 * ma + p) (ofLE (fabricMap d x ma p)))) d
  | none => d

/-- CMAP_SUMMARY reaches the manager: the module's row of the fabric map, and its feeds. A single-fed module is no standby
while another candidate is READY. -/
def execCmapSummary (o : Option TMsg) (s : State) : Host.Outcome State Fault Refusal :=
  onBelfry 15 o (fun m d =>
    match msgMa m with
    | none => d
    | some ma =>
      match mgrMod d ma with
      | none => d
      | some y =>
        let flags := field m.body 10 2
        let single := flags.testBit 8 || flags.testBit 9
        -- the state of an optional link is known by the summaries; HOLD says no more than the state before it (R339)
        let ports := (upFrom 0 6).map (fun p =>
          let q := y.port p
          let st := field m.body (27 + 9 * p) 1
          if st = LnkSt.hold.code ∨ field m.body 8 2 = 0 then q else (q.1, st, q.2.2))
        let up (d : Dev) : List Bool := match d.agt.plan with | some x => (upFrom 0 6).map (portUp d x ma) | none => []
        let was := up d
        let d := (d.setMgrMod ma (some { y with cmap := m.body, singleFed := single, ports := ports })).offerMap ma
        let d : Dev := if up d ≠ was then { d with mgr := { d.mgr with settling := d.mgr.settling || routesExist d } } else d
        if single ∧ d.bel.mate = some ma ∧ belRole d = roActive then
          match nextCandidate d [myMa d, ma] with
          | some c =>
            if (mgrMod d c).any (fun z => !z.singleFed) then
              ({ d with bel := { d.bel with mate := none } } : Dev).appointStandby
            else d
          | none => d
        else d) s

/-! ## Heartbeats and voters (R311-R317) -/

/-- HEARTBEAT arrives. A manager that returns from FENCED makes its open writes again (R307, R313; DESIGN CHOICE,
log entry 220). -/
def execHeartbeat (o : Option TMsg) (s : State) : Host.Outcome State Fault Refusal :=
  onBelfry 1 o (fun m d =>
    let term := field m.body 0 4
    let seq := field m.body 4 4
    let ack := field m.body 8 4
    let fenced := (field m.body 12 1).testBit 0
    let d : Dev := { d with bel := { d.bel with seenCount := max d.bel.seenCount (term / 8) } }
    match msgMa m with
    | none => d
    | some a =>
      if ¬ (hbMates d).contains a then d
      else
        let x := hbPeer d a
        let newer := decide (x.ack < ack)
        let good := !fenced && decide (d.rd Reg.BEL_TERM ≤ term)
        let d := d.setHbPeer a { x with
          seq := max x.seq seq, ack := max x.ack ack, got := x.got || good, acked := x.acked || newer,
          silent := x.silent && !good }
        if belRole d = roFenced ∧ newer ∧ term = d.rd Reg.BEL_TERM then (d.setRole roActive).resendAll else d) s

/-- One write to every position of the plan. -/
def allSends (d : Dev) (e : RegEntry) : List MgrSend :=
  match d.agt.plan with
  | some x => ((x.all.filter (fun a => !x.empty a)).map (fun ma => writeSends d ma [e])).flatten
  | none => []

/-- PROBE_TIMEOUT: the standby claims and becomes ACTIVE (R312); a voter holds the peer silent and votes for its replacement
(R317). -/
def execProbeTimeout (s : State) : Host.Outcome State Fault Refusal :=
  doneDev s (fun d =>
    match (hbMates d).find? (fun a => (hbPeer d a).probe.isSome) with
    | none => d
    | some a =>
      let d := d.setHbPeer a { hbPeer d a with probe := none, silent := true }
      if belRole d = roStandby then ((d.count Reg.BEL_TAKEOVER_COUNT).raise 0x068 1).claim
      else if belRole d = roVoter then
        match nextCandidate d ((voters d).map (·.2)), (voters d).find? (fun v => v.2 == a) with
        | some c, some v =>
          let low := setBits (d.rd Reg.AGT_VOTER01)
          d.mgrTell (allSends d (
            if v.1 = 2 then keyWrite Reg.AGT_VOTER2 (0x8000 + c)
            else if v.1 = 1 then keyWrite Reg.AGT_VOTER01 (low 31 16 (0x8000 + c))
            else keyWrite Reg.AGT_VOTER01 (low 15 0 (0x8000 + c))))
        | _, _ => d
      else d)

end Sys2Proof.Machine
end

