-- ==== Sys2Proof/Machine/Roce.lean ====
section
/-! DEFINITION. Who serves the PEAL and JOB families (R374), RoCEv2 QPs (R380) and the responder (R379, R381). -/

namespace Sys2Proof.Machine

/-! ## Serving PEAL and JOB (R374) -/

/-- A request of the PEAL or JOB family; another module answers NOT_MANAGER with AGT_MANAGER as 2 bytes. -/
def onJob (fam code : Nat) (o : Option TMsg) (f : TMsg → State → State) (s : State) : Host.Outcome State Fault Refusal :=
  onReq fam code o (fun m s =>
    if servesJobs s.dev then f m s
    else s.onDev (fun d => d.reply m NOT_MANAGER (leBytes 2 (bits (d.rd Reg.AGT_MANAGER) 15 0)))) s

/-- The same for a request that touches the device alone. -/
def onJobDev (fam code : Nat) (o : Option TMsg) (f : TMsg → Dev → Dev) (s : State) : Host.Outcome State Fault Refusal :=
  onJob fam code o (fun m s => s.onDev (f m)) s

/-! ## QPs (R380) -/

/-- The QP with a number, and the number of QPs. -/
def qpOf (d : Dev) (n : Nat) : Option Qp := SMap.get (fun _ => none) d.host.qps n
def qpCount (d : Dev) : Nat := ((upFrom 0x100 256).filter (fun n => (qpOf d n).isSome)).length

/-- A QP is set or removed, and ETH_QP_COUNT with it. -/
def Dev.setQp (d : Dev) (n : Nat) (q : Option Qp) : Dev :=
  let d : Dev := { d with host := { d.host with qps := SMap.put (fun _ => none) d.host.qps n q } }
  d.wr Reg.ETH_QP_COUNT (qpCount d)

/-- The fields of a QP_CREATE body are in their ranges; TENANT is ignored from a tenant session. -/
def qpBodyOk (who : Option Nat) (b : List Byte) : Bool :=
  b.length == 36 && decide (field b 2 1 ≤ 2 ∧ field b 3 1 ≤ 63 ∧ (field b 4 1 ≤ 31 ∨ field b 4 1 = 0xFF)) && field b 5 3 == 0 &&
    (who.isSome || decide (field b 0 2 < 2 ^ 10)) && decide (field b 8 4 < 2 ^ 20 ∧ field b 12 4 < 2 ^ 24 ∧ field b 16 4 < 2 ^ 24)

/-- The QP that a body describes, for a request of a tenant or of the owner. -/
def qpFrom (who : Option Nat) (b : List Byte) : Qp :=
  let t := match who with | some t => (t, false) | none => (bits (field b 0 2) 8 0, (field b 0 2).testBit 9)
  ⟨t.1, t.2, 1024 * 2 ^ field b 2 1, field b 3 1, field b 4 1, field b 8 4, field b 12 4, field b 16 4, slice b 20 16, none⟩

/-- QP_CREATE: the lowest free number is taken. -/
def execQpCreate (o : Option TMsg) (s : State) : Host.Outcome State Fault Refusal :=
  onJobDev famJob 8 o (fun m d =>
    if ¬ qpBodyOk (reqTenant d m) m.body then d.reply m BAD_MESSAGE []
    else match (upFrom 0x100 256).find? (fun n => (qpOf d n).isNone) with
    | none => d.reply m QUEUE_FULL []
    | some n => (d.setQp n (some (qpFrom (reqTenant d m) m.body))).reply m OK (leBytes 4 n)) s

/-- QP_DESTROY: a tenant session names a QP of its own. -/
def execQpDestroy (o : Option TMsg) (s : State) : Host.Outcome State Fault Refusal :=
  onJobDev famJob 9 o (fun m d =>
    let n := field m.body 0 4
    match qpOf d n with
    | none => d.reply m BAD_MESSAGE []
    | some q =>
      if m.body.length ≠ 4 then d.reply m BAD_MESSAGE []
      else match reqTenant d m with
      | none => (d.setQp n none).reply m OK []
      | some t => if q.system ∨ q.tenant ≠ t then d.reply m BAD_MESSAGE [] else (d.setQp n none).reply m OK []) s

/-- Every QP of a tenant is destroyed (R374). -/
def Dev.dropQps (d : Dev) (t : Nat) : Dev :=
  let d : Dev := { d with host := { d.host with
    qps := SMap.mapVals (fun _ => none) (fun q =>
      match q with | some x => if ¬ x.system ∧ x.tenant = t then none else some x | none => none) d.host.qps } }
  d.wr Reg.ETH_QP_COUNT (qpCount d)

/-! ## The responder (R379, R381) -/

abbrev nakSequence : Nat := 0
abbrev nakInvalid : Nat := 1
abbrev nakAccess : Nat := 2
abbrev nakOperational : Nat := 3

/-- A NAK leaves: it is counted and raises ROCE_ERROR (R391, R393). -/
def Dev.roceNak (d : Dev) (r : RoceReq) (code : Nat) : Dev :=
  ((d.count Reg.ETH_ROCE_NAK_COUNT).raise 0x040 3).send (.roceNak r.qpn r.psn code)

/-- The NAK of a status by the table *RoCEv2 responses*; the code for a status the table does not name is free. -/
def Dev.roceStatus (d : Dev) (r : RoceReq) (st : Nat) : Dev :=
  if st = WINDOW_FAULT ∨ st = SCRUB ∨ st = MEM_PROTECT then d.roceNak r nakAccess
  else if st = MEM_UE ∨ st = WING_RESET ∨ st = TIMEOUT then d.roceNak r nakOperational
  else d.used.roceNak r (d.fresh % 4)

/-- The PSN of a request lies ahead of the expected one; both are 24 bits wide. -/
def psnAhead (psn exp : Nat) : Bool := decide ((psn + 2 ^ 24 - exp % 2 ^ 24) % 2 ^ 24 ≠ 0 ∧ (psn + 2 ^ 24 - exp % 2 ^ 24) % 2 ^ 24 < 2 ^ 23)
def psnBehind (psn exp : Nat) : Bool := decide (2 ^ 23 ≤ (psn + 2 ^ 24 - exp % 2 ^ 24) % 2 ^ 24)

/-- The packets that carry `n` bytes at a path MTU: at least one. -/
def rocePackets (q : Qp) (n : Nat) : Nat := max 1 ((n + q.pmtu - 1) / q.pmtu)

/-- The expected PSN moves past a request. -/
def Dev.roceAdvance (d : Dev) (r : RoceReq) (q : Qp) (n : Nat) : Dev :=
  d.setQp r.qpn (some { q with psn := (r.psn + rocePackets q n) % 2 ^ 24 })

/-- 50 us of the 100 MHz clock (R379). -/
def cnpPeriod : Nat := 5000

/-- The window of an R_Key. -/
def keyWindow (rkey : Nat) : Nat := bits rkey 11 0

/-- What an R_Key and a RETH's offset allow (R381): `OK`, or the status that refuses the request. -/
def roceCheck (d : Dev) (q : Qp) (rkey va perm n : Nat) : Nat :=
  if bits rkey 31 12 ≠ q.rkey ∨ 2 ^ 48 ≤ va then WINDOW_FAULT
  else windowCheck d (keyWindow rkey) q.tenant q.system perm va n

/-- The memory that a request reaches does not answer (R38, R133). -/
def rdmaHeld (d : Dev) (q : Qp) (dup : Bool) : RdmaOp → Bool
  | .write rkey va data =>
    !dup && roceCheck d q rkey va 117 data.length == OK &&
      gdWaits d (windowUser d 14 (keyWindow rkey)) (windowAddr d (keyWindow rkey) va) data.length
  | .read rkey va len _ =>
    roceCheck d q rkey va 118 len == OK && gdWaits d (windowUser d 14 (keyWindow rkey)) (windowAddr d (keyWindow rkey) va) len
  | .send _ => false

/-- The READs of a QP that wait for memory. -/
def readsWaiting (d : Dev) (qpn : Nat) : Nat :=
  (d.host.rdma.filter (fun x => x.1.qpn == qpn && match x.2 with | .read _ _ _ _ => true | _ => false)).length

/-- A READ's response in path-MTU segments, one PSN each (R379). -/
def Dev.roceSegments (d : Dev) (r : RoceReq) (k : Nat) : List (List Byte) → Dev
  | [] => d
  | bs :: rest => Dev.roceSegments (d.send (.roceRead r.qpn ((r.psn + k) % 2 ^ 24) bs)) r (k + 1) rest

/-- The segments of some bytes: at least one. -/
def roceSplit (q : Qp) (bs : List Byte) : List (List Byte) := if bs = [] then [[]] else chunksOf q.pmtu bs.length bs

/-- A WRITE is stored and ACKed, or refused (R381). -/
def rdmaWrite (r : RoceReq) (q : Qp) (dup : Bool) (rkey va : Nat) (data : List Byte) (s : State) : State :=
  if dup then s.onDev (fun d => d.send (.roceAck r.qpn r.psn))
  else
    let st := roceCheck s.dev q rkey va 117 data.length
    if st ≠ OK then s.onDev (fun d => d.roceStatus r st)
    else
      let w := gdWrite s (windowUser s.dev 14 (keyWindow rkey)) (windowAddr s.dev (keyWindow rkey) va) data
      w.2.onDev (fun d =>
        if w.1 = OK then (d.roceAdvance r q data.length).send (.roceAck r.qpn r.psn) else d.roceStatus r w.1)

/-- A READ is served, or refused; more than 16 in progress at its QP are (R379). -/
def rdmaRead (r : RoceReq) (q : Qp) (dup : Bool) (rkey va len outstanding : Nat) (s : State) : State :=
  if 2 ^ 31 < len ∨ 16 ≤ outstanding then s.onDev (fun d => d.roceNak r nakInvalid)
  else
    let st := roceCheck s.dev q rkey va 118 len
    if st ≠ OK then s.onDev (fun d => d.roceStatus r st)
    else
      let a := windowAddr s.dev (keyWindow rkey) va
      let x := gdRead s.dev (windowUser s.dev 14 (keyWindow rkey)) a len
      if x.1 ≠ OK then { s with dev := x.2.roceStatus r x.1 }
      else
        let d := if dup then x.2 else x.2.roceAdvance r q len
        { s with dev := d.roceSegments r 0 (roceSplit q (s.mem.bytes a len)) }

/-- A SEND: one mailbox message; an empty payload rings the doorbell only (R381). -/
def Dev.rdmaSend (d : Dev) (r : RoceReq) (q : Qp) (dup : Bool) (data : List Byte) : Dev :=
  if dup then d.send (.roceAck r.qpn r.psn)
  else if 256 < data.length then d.roceNak r nakInvalid
  else
    let msg : MbxMsg := ⟨data, true, false, bits r.qpn 14 0, q.system, q.tenant, 0⟩
    let x := d.mbxPost q.mailbox false msg (if q.doorbell ≤ 31 then some q.doorbell else none)
    if x.1 = OK then (x.2.roceAdvance r q data.length).send (.roceAck r.qpn r.psn)
    else if x.1 = MBX_FULL then ((x.2.count Reg.ETH_ROCE_NAK_COUNT).raise 0x040 3).send (.roceRnr r.qpn r.psn)
    else x.2.roceStatus r x.1

/-- The responder serves a request of a QP: an unsupported one and a PSN ahead are refused, a duplicate is told apart. -/
def rdmaServe (r : RoceReq) (q : Qp) (op : RdmaOp) (s : State) : State :=
  let dup := psnBehind r.psn q.psn
  if ¬ r.supported then s.onDev (fun d => d.roceNak r nakInvalid)
  else if psnAhead r.psn q.psn then s.onDev (fun d => d.roceNak r nakSequence)
  else match op with
  | .write rkey va data => rdmaWrite r q dup rkey va data s
  | .read rkey va len outstanding => rdmaRead r q dup rkey va len outstanding s
  | .send data => s.onDev (fun d => d.rdmaSend r q dup data)

/-- A request waits: its memory does not answer, or an earlier one of its QP waits. -/
def rdmaWaits (d : Dev) (before : List (RoceReq × RdmaOp)) (q : Qp) (r : RoceReq) (op : RdmaOp) : Bool :=
  before.any (fun x => x.1.qpn == r.qpn) ||
    (r.supported && !psnAhead r.psn q.psn && rdmaHeld d q (psnBehind r.psn q.psn) op)

/-- Requests that waited are served in their order once their memory answers; those of a QP that is gone are not (R380). -/
def rdmaProceed : List (RoceReq × RdmaOp) → State → State
  | [], s => s
  | (r, op) :: rest, s =>
    rdmaProceed rest (match qpOf s.dev r.qpn with
    | none => s
    | some q =>
      if rdmaWaits s.dev s.dev.host.rdma q r op then s.onDev (fun d => { d with host := { d.host with rdma := d.host.rdma ++ [(r, op)] } })
      else rdmaServe r q op s)

/-- Every request that waits is tried again, oldest first. -/
def State.rdmaGo (s : State) : State :=
  rdmaProceed s.dev.host.rdma (s.onDev (fun d => { d with host := { d.host with rdma := [] } }))

/-- A request reaches the responder: dropped when the port does not run, dropped and counted on a wrong ICRC, dropped when no QP has the
number; a CE mark sends a CNP, one in 50 us. It is served, or waits for memory (R38, R133). -/
def onRoce (r : RoceReq) (op : Dev → RdmaOp) (s : State) : Host.Outcome State Fault Refusal :=
  if ¬ hostRuns s.dev then done s
  else if ¬ r.icrc then doneDev s Dev.ethDrop
  else match qpOf s.dev r.qpn with
  | none => done s
  | some q =>
    let cnp : Bool := r.ce && q.cnp.all (fun t => decide (t + cnpPeriod ≤ s.dev.clk.aon))
    let q := if cnp then { q with cnp := some s.dev.clk.aon } else q
    let s := if cnp then s.onDev (fun d => (d.setQp r.qpn (some q)).send (.roceCnp r.qpn)) else s
    let op := op s.dev
    if rdmaWaits s.dev s.dev.host.rdma q r op then
      doneDev s (fun d => { d with host := { d.host with rdma := d.host.rdma ++ [(r, op)] } })
    else done (rdmaServe r q op s)

/-- RDMA_WRITE. -/
def execRdmaWrite (r : RoceReq) (rkey va : Nat) (data : List Byte) (s : State) : Host.Outcome State Fault Refusal :=
  onRoce r (fun _ => .write rkey va data) s

/-- RDMA_READ: `outstanding` READs of the QP are in progress on the wire, beside those that wait here for memory. -/
def execRdmaRead (r : RoceReq) (rkey va : Nat) (len : Nat) (outstanding : Nat) (s : State) : Host.Outcome State Fault Refusal :=
  onRoce r (fun d => .read rkey va len (outstanding + readsWaiting d r.qpn)) s

/-- SEND. -/
def execRdmaSend (r : RoceReq) (data : List Byte) (s : State) : Host.Outcome State Fault Refusal :=
  onRoce r (fun _ => .send data) s

end Sys2Proof.Machine
end

