-- ==== Sys2Proof/Machine/Boot.lean ====
section
/-! DEFINITION. Bring-up stages (R496-R506), power waves (R499), power states (R511-R514) and the memory contents that
they lose (R518). -/

namespace Sys2Proof.Machine

/-! ## Wings (R499) -/

/-- The GDDR7 bytes of one wing are lost. -/
def State.forgetWing (s : State) (w : Nat) : State :=
  { s with mem := { s.mem with gd := SMap.erase (fun a => a / 2 ^ 34 == w) s.mem.gd } }

/-- Tiles of a half-wing that powers on: they clear, or are disabled in the floor plan record (R88, R91). -/
def Dev.tilesOn (d : Dev) : List Nat → Dev
  | [] => d
  | i :: is => Dev.tilesOn (d.setTile i { Tile.off with st := if tileEnabled d i then .clearing else .disabled }) is

/-- Registers of pages at their default, as a domain powers on (R518); WLOCK stays, which only a reset of kind M or P clears
(R50). -/
def Dev.blankPages (d : Dev) (blocks : List Nat) : Dev :=
  { d with regs := SMap.erase (fun k => blocks.contains ((k % 2 ^ 24) / 0x1000) && k % 0x1000 != 0x018) d.regs }

/-- Half-wing `h` powers on: its clusters' PLLs lock, its tiles clear, and its sources become IDLE (R451). -/
def Dev.halfOn (d : Dev) (h : Nat) : Dev :=
  if d.powered.halves.testBit h then d
  else
    let d := d.blankPages (upFrom (0x400 + 32 * h) 32 ++ upFrom (0x600 + 4 * h) 4)
    let d : Dev := { d with powered := { d.powered with halves := setBit d.powered.halves h } }
    ((d.tilesOn (upFrom (32 * h) 32)).pllLock (upFrom (4 * h) 4)).sourcesIdle (fun s => decide (4 * h ≤ s ∧ s < 4 * h + 4))

/-- The base of wing `w` powers on; its controllers begin to train. -/
def Dev.baseOn (d : Dev) (w : Nat) : Dev :=
  if d.powered.wings.testBit w then d
  else
    let d := d.blankPages [0x008 + w, 0x090 + w]
    let d : Dev := { d with powered := { d.powered with wings := setBit d.powered.wings w } }
    d.sourcesIdle (fun s => s == 112 + w || decide (128 + 8 * w ≤ s ∧ s < 136 + 8 * w))

/-- Half-wing `h` powers off. -/
def Dev.halfOff (d : Dev) (h : Nat) : Dev :=
  { d with
    powered := { d.powered with halves := clearBit d.powered.halves h }
    tiles := SMap.erase (fun i => i / 32 == h) d.tiles
    pwr := { d.pwr with unlocked := d.pwr.unlocked.filter (fun c => c / 4 != h) } }

/-- The base of wing `w` powers off: its Hall port reads OFF. -/
def Dev.baseOff (d : Dev) (w : Nat) : Dev :=
  let d := (d.hallLeave w 0).dropRanges (fun r => keyRangeStart d r / 2 ^ 34 == w)
  { d with
    powered := { d.powered with wings := clearBit d.powered.wings w }
    gddr := { d.gddr with
      bad := d.gddr.bad.filter (fun l => l / 2 ^ 28 != w)
      recal := SMap.erase (fun k => k == w) d.gddr.recal
      patrol := SMap.erase (fun k => k / 3 == w) d.gddr.patrol }
    pwr := { d.pwr with ucie := setBits d.pwr.ucie (2 * w + 1) (2 * w) 0 } }

/-- Wave `k` up; `ok` says that its converters regulate. A wing whose converter fails is left off (R499). -/
def Dev.waveUp (d : Dev) (k : Nat) (ok : Bool) : Dev :=
  let w := k / 2
  if ¬ ok then (((d.halfOff (2 * w)).halfOff (2 * w + 1)).baseOff w).raise 0x002 6
  else if k % 2 = 0 then (d.baseOn w).halfOn k
  else if d.powered.wings.testBit w then d.halfOn k
  else d

/-- Wave `k` down: the waves of the way up in reverse. -/
def waveDown (s : State) (k : Nat) : State :=
  let w := k / 2
  let s := s.onDev (fun d => d.halfOff k)
  if k % 2 = 0 then (s.onDev (fun d => d.baseOff w)).forgetWing w else s

/-! ## The agent leaves BOOT (R324, R506) -/

/-- Every self-test has passed (MOD_BOOT). -/
def selfTestOk (d : Dev) : Bool := (d.rd Reg.MOD_BOOT).testBit 26

/-- Bring-up reaches discovery with every self-test passed. -/
def Dev.agtStart (d : Dev) : Dev :=
  if agtSt d ≠ agBoot ∨ ¬ selfTestOk d then d
  else
    let d := d.wr Reg.AGT_STATE (setBit (d.rd Reg.AGT_STATE) 8)
    if maValid d then (d.setAgtSt agAddressed).agtSettle else d.setAgtSt agUnaddressed

/-- A self-test has failed: the agent is FAILED, and a record is written. DESIGN CHOICE (log entry 251): R324 gives that record no kind, origin
or data, so they are free values. -/
def Dev.agtFail (d : Dev) : Dev :=
  if agtSt d ≠ agBoot ∨ selfTestOk d then d
  else (d.used.used.setAgtSt agFailed).append (d.fresh % 256) (d.fresh / 256 % 4) 0 (leBytes 8 (d.used.fresh % 2 ^ 64))

/-- LINKS begins, with the outcome of the self-tests known; on a way that leaves TILE_TEST out, the earlier outcome holds. -/
def Dev.toLinks (d : Dev) : Dev := (d.setStage sgLinks).agtFail

/-- FETCH has ended with Parlour verified: the power waves begin, or LINKS when the target is Transit (R514). -/
def Dev.fetchDone (d : Dev) : Dev :=
  if bootStage d ≠ sgFetch then d
  else if d.rd Reg.PWR_TARGET ≤ 1 then { (d.setStage sgWaves) with pwr := { d.pwr with wave := some (true, 0) } }
  else d.toLinks

/-! ## Power states (R511-R513) -/

/-- PWR_STATE.CHANGING. -/
def changing (d : Dev) : Bool := (d.rd Reg.PWR_STATE).testBit 9

/-- PWR_STATE.SCRUB. -/
def scrubbing (d : Dev) : Bool := (d.rd Reg.PWR_STATE).testBit 8

/-- The power state as byte 9 of the status block has it: Standby while the switch core is off (R511). -/
def powerState (d : Dev) : Nat := if d.powered.core then bits (d.rd Reg.PWR_STATE) 2 0 else 3

/-- Bring-up takes the target up by itself: before FETCH, and from WAVES to TILE_TEST. -/
def bootBusy (d : Dev) : Bool :=
  decide (bootStage d < sgFetch) || decide (sgWaves ≤ bootStage d ∧ bootStage d ≤ sgTileTest)

/-- A state change begins. -/
def Dev.beginChange (d : Dev) : Dev :=
  let d : Dev := { d with pwr := { d.pwr with changeAt := d.clk.aon } }
  d.wr Reg.PWR_STATE (setBit (d.rd Reg.PWR_STATE) 9)

/-- A SHUTDOWN record (R483). -/
def Dev.shutdownRecord (d : Dev) (target : Nat) : Dev := d.append 0x15 1 0 (leBytes 1 target)

/-- Standby is reached (R159, R205, R388, R512): the ports are DOWN, the Cellar keys and the page table are lost, the switch core is
off, PTP holds over; with a target of Off a SHUTDOWN record is appended. A bring-up that had not come to discovery ends after ROM, as
R514 has it for this target (DEDUCED, log entry 270). -/
def Dev.toStandby (d : Dev) : Dev :=
  let d := (d.allDown rsDisabled (upFrom 0 6)).ptpHold
  let d := if d.rd Reg.MSEC_STATUS = 0 then d else d.wr Reg.MSEC_STATUS 0
  let d := if bootStage d < sgDiscovery then d.setStage sgRom else d
  let d := (d.unbindAll.coreOff).reachState 3 true
  if d.rd Reg.PWR_TARGET = 4 then d.shutdownRecord 4 else d

/-- The way to Transit once no scrub is left: the array is flushed, the wing ports go to ABSORB, and the waves run down. -/
def wavesDown (s : State) : State :=
  let hold := d0 s
  let s := (arrCtrlEffect 1 (1 + hold) s).2
  s.onDev (fun d =>
    let d := (upFrom 0 8).foldl (fun d w => if bits (d.rd Reg.HALL_WING_STATE) (2 * w + 1) (2 * w) = 0 then d else d.hallAbsorb w) d
    { d with pwr := { d.pwr with wave := some (false, 15), scrubFirst := false } })
where
  /-- ARR_CTRL without FLUSH. -/
  d0 (s : State) : Nat := s.dev.rd (rkey 0x080 0x010) &&& 2

/-- The way down from Full or Quiet begins: a bound tenant is scrubbed first (R515). -/
def goDown (s : State) : State :=
  let s := s.onDev Dev.beginChange
  let b := s.dev.rd Reg.SEC_BINDING
  if b.testBit 15 then
    s.onDev (fun d => ({ d with pwr := { d.pwr with scrubFirst := true } } : Dev).scrubAsk (bits b 9 0))
  else wavesDown s

/-- The module moves toward PWR_TARGET (R512). -/
def moveOn (s : State) : State :=
  let d := s.dev
  let st := bits (d.rd Reg.PWR_STATE) 2 0
  let t := d.rd Reg.PWR_TARGET
  let atFetch : Bool := bootStage d == sgFetch
  if moduleResets d ∨ changing d ∨ scrubbing d ∨ bootStage d = sgHalted then s
  else if st = 3 then
    (if t ≤ 2 then s.onDev (fun d => d.startReset ⟨rkModule, 0, rcPower⟩) else s)
  else if bootBusy d then s
  else if atFetch then
    (if t < 3 then s
     else if d.powered.wings = 0 ∧ d.powered.halves = 0 then (s.onDev (fun d => d.beginChange.toStandby)).forget
     else goDown s)
  else if st = 0 ∧ t = 1 then
    let s := (arrCtrlEffect 1 2 (s.onDev Dev.beginChange)).2
    s.onDev Dev.quietSettle
  else if st = 1 ∧ t = 0 then
    let s := (arrCtrlEffect 1 0 (s.onDev Dev.beginChange)).2
    s.onDev (fun d => d.reachState 0 true)
  else if st ≤ 1 ∧ 2 ≤ t then goDown s
  else if st = 2 ∧ t ≤ 1 then
    s.onDev (fun d => { d.beginChange with pwr := { d.beginChange.pwr with wave := some (true, 0), phase := 1 } })
  else if st = 2 ∧ 3 ≤ t then (s.onDev (fun d => d.beginChange.toStandby)).forget
  else s

/-- The waves down have ended: Transit is reached, binding and keys are gone, and the way goes on to Standby when the target
asks for it. -/
def transitReached (s : State) : State :=
  let s := s.onDev (fun d => (({ d with pwr := { d.pwr with wave := none } } : Dev).unbindAll.showHalves).reachState 2
    (decide (d.rd Reg.PWR_TARGET ≤ 2)))
  if 3 ≤ s.dev.rd Reg.PWR_TARGET then (s.onDev Dev.toStandby).forget else s

/-- On a way up, no powered wing has a device that still trains: bring-up goes on to MEMTEST after a reset of kind P and to
TILE_TEST otherwise; a way out of Transit goes on to the zero fill (R496, R512, R514). -/
def Dev.gdSettle (d : Dev) : Dev :=
  let trains := (upFrom 0 8).any (fun w => d.powered.wings.testBit w && (upFrom 0 3).any (fun i => gdState d w i == 0))
  if trains then d
  else if bootStage d = sgGdTrain then d.setStage (if d.pwr.tested then sgTileTest else sgMemtest)
  else if d.pwr.phase = 2 then { d with pwr := { d.pwr with phase := 3 } }
  else d

/-- The waves up have ended. -/
def Dev.wavesUp (d : Dev) : Dev :=
  let d : Dev := { d with pwr := { d.pwr with wave := none, phase := if d.pwr.phase = 1 then 2 else d.pwr.phase } }
  (if bootStage d = sgWaves then d.setStage sgGdTrain else d).gdSettle

/-- POWER_WAVE: the next wave of the running sequence. -/
def execPowerWave (ok : Bool) (s : State) : Host.Outcome State Fault Refusal :=
  if moduleResets s.dev then done s
  else match s.dev.pwr.wave with
  | some (true, k) =>
    let s := if ok then s else s.forgetWing (k / 2)
    doneDev s (fun d =>
      let d := ((d.waveUp k ok).showHalves).portSettle (k / 2)
      if k = 15 then d.wavesUp else { d with pwr := { d.pwr with wave := some (true, k + 1) } })
  | some (false, k) =>
    let s := (waveDown s k).onDev Dev.showHalves
    if k = 0 then done (transitReached s)
    else doneDev s (fun d => { d with pwr := { d.pwr with wave := some (false, k - 1) } })
  | none => done s

/-! ## Training (R133, R43) -/

/-- GD_TRAIN_DONE: a device reads READY. -/
def execGdTrainDone (w : Fin 8) (dev : Fin 3) (s : State) : Host.Outcome State Fault Refusal :=
  doneDev s (fun d =>
    if d.domainOn (0x090 + w.val) ∧ gdState d w.val dev.val = 0 then
      ((d.setGdState w.val dev.val 1).portSettle w.val).gdSettle
    else d)

/-- GD_TRAIN_TIMEOUT: FAILED, TRAIN_FAIL, and the wing's Hall port stays OFF. -/
def execGdTrainTimeout (w : Fin 8) (dev : Fin 3) (s : State) : Host.Outcome State Fault Refusal :=
  doneDev s (fun d =>
    if d.domainOn (0x090 + w.val) ∧ gdState d w.val dev.val = 0 then
      ((d.setGdState w.val dev.val 3).raise (0x090 + w.val) 2).gdSettle
    else d)

/-- UCIE_TRAINED: a UCIe module of a wing finishes training. -/
def execUcieTrained (w : Fin 8) (m : Fin 2) (s : State) : Host.Outcome State Fault Refusal :=
  doneDev s (fun d =>
    if d.powered.wings.testBit w.val then
      ({ d with pwr := { d.pwr with ucie := setBit d.pwr.ucie (2 * w.val + m.val) } } : Dev).portSettle w.val
    else d)

/-! ## From power to ROM (R496, R497) -/

/-- What input power leaves behind when it goes: MRAM and fuses stay (R518), and so do Cellar contents, under keys that are gone. `a` and
`b` say which feeds are present. -/
def powerLost (s : State) (a b : Bool) : State :=
  let d := s.dev.recFlush
  let r := Dev.reset
  let n : Dev := { r with
    free := d.free
    out := d.out
    stopped := []
    powered := ⟨true, false, 0, 0⟩
    recd := d.recd.powerOn
    mbx := { r.mbx with epoch := d.mbx.epoch }
    sec := { r.sec with lc := d.sec.lc, gen := d.sec.gen, owners := d.sec.owners, seed := d.sec.seed, killed := d.sec.killed,
                        sealedCerts := d.sec.sealedCerts, sealedConfig := d.sec.sealedConfig, sealedCak := d.sec.sealedCak }
    pwr := { r.pwr with resetN := d.pwr.resetN, thermN := d.pwr.thermN } }
  let n := (n.wr Reg.KNK_COUNTER_LO (d.rd Reg.KNK_COUNTER_LO)).wr Reg.KNK_COUNTER_HI (d.rd Reg.KNK_COUNTER_HI)
  let n := n.wr Reg.PWR_FEED_STATE (b2n a + 2 * b2n b)
  { s with mem := { s.mem with gd := [] }, dev := n }

/-- The state after a reset of kind P: every sender's epoch advances (R411). -/
def powerOn (s : State) (a b : Bool) : State := (powerLost s a b).onDev (fun d => d.epochsNext [1, 2, 3, 7])

/-- POWER_ON: input power returns to a module that is Off. -/
def execPowerOn (a b : Bool) (s : State) : Host.Outcome State Fault Refusal :=
  if a ∨ b then done (powerOn s a b) else done s

/-- The records that a test names, and the newest of them. -/
def records (d : Dev) (p : RecBody → Bool) : List RecBody :=
  ((d.recd.perm ++ d.recd.circ).filter (fun e => e.2.state == 0 && p e.2.body)).map (fun e => e.2.body)
def newest (bs : List RecBody) : Option RecBody :=
  bs.foldl (fun o b => match o with | some x => if x.num < b.num then some b else some x | none => some b) none

/-- Whether R500 lets the short memory test run. -/
def shortTest (d : Dev) : Bool :=
  match newest (records d (fun b => b.kind == 0x15)), newest (records d (fun b => b.kind == 0x16 && field b.data 0 1 == 0)) with
  | some sh, some mt =>
    field sh.data 0 1 == 4 &&
    (records d (fun b => decide (sh.num < b.num))).all (fun b =>
      b.kind == 0x04 || b.kind == 0x09 || (b.kind == 0x01 && decide (80 ≤ b.source ∧ b.source ≤ 87))) &&
    field mt.data 1 1 == OK && decide (mt.time ≤ sh.time ∧ sh.time ≤ mt.time + 604800 * 10 ^ 9) && !sh.unsync && !mt.unsync &&
    (records d (fun b => b.kind == 0x16 && decide (mt.num < b.num))).all (fun b => field b.data 1 1 == OK)
  | _, _ => false

/-- REC_SCAN_DONE: the scan after a reset of kind P ends, the memory test is chosen, and POR ends (R491, R500). -/
def execRecScanDone (s : State) : Host.Outcome State Fault Refusal :=
  doneDev s (fun d =>
    if d.recd.ready then d
    else
      let d := d.wr Reg.MOD_BOOT (setBits (d.rd Reg.MOD_BOOT) 27 27 (b2n (shortTest d)))
      let d := d.recScan
      if bootStage d = sgPor then d.setStage sgFeedCheck else d)

/-- FEED_CHECK_DONE: the feeds that stayed in range for the 10 ms sample; with none the stage samples again (R497). -/
def execFeedCheckDone (a b : Bool) (s : State) : Host.Outcome State Fault Refusal :=
  doneDev s (fun d =>
    if bootStage d ≠ sgFeedCheck ∨ (¬ a ∧ ¬ b) then d
    else (d.wr Reg.MOD_BOOT (setBits (d.rd Reg.MOD_BOOT) 24 24 (b2n (a != b)))).setStage sgRom)

/-- ROM_DONE: the store is unsealed, keys are derived and the switch core is powered once the precharge is complete, and a target
of Standby or Off ends bring-up here (R514, R523); in SCRAP the ROM halts (R416). -/
def execRomDone (store : Bool) (s : State) : Host.Outcome State Fault Refusal :=
  doneDev s (fun d =>
    if bootStage d ≠ sgRom ∨ d.powered.core ∨ bits (d.rd Reg.PWR_STATE) 2 0 = 3 then d
    else if d.sec.lc = 4 then d.setStage sgHalted
    else if ¬ (d.rd Reg.PWR_FEED_STATE).testBit 7 then d
    else
      let d := d.unsealStore store
      if 3 ≤ d.rd Reg.PWR_TARGET then d.wr Reg.PWR_STATE (setBits (d.rd Reg.PWR_STATE) 2 0 3)
      else
        let d := ({ d with powered := { d.powered with core := true } } : Dev).celTrain (upFrom 0 4)
        (d.wr Reg.PWR_STATE (setBits (d.rd Reg.PWR_STATE) 2 0 2)).setStage sgSramInit)

/-! ## Tests (R500-R506) -/

/-- MOD_BOOT.FAIL keeps the first failure's status. -/
def Dev.bootFail (d : Dev) (st : Nat) : Dev :=
  let v := d.rd Reg.MOD_BOOT
  if bits v 23 16 = 0 then d.wr Reg.MOD_BOOT (setBits v 23 16 st) else d

/-- MEMTEST_DONE: the test's status and its duration in ms. Every GDDR7 line and every page of the trained Cellar ports holds
zeros afterwards (R501); the test passes when it found nothing and every device is READY (R502). -/
def execMemtestDone (status : Byte) (ms : Word) (s : State) : Host.Outcome State Fault Refusal :=
  if bootStage s.dev ≠ sgMemtest ∨ moduleResets s.dev then done s
  else
    let up (k : Nat) : Bool := celUp s.dev (k / 2 ^ 29)
    let s := { s with mem := ⟨[], SMap.erase up s.mem.cel⟩ }
    doneDev s (fun d =>
      let pass : Bool := status.toNat == OK && (upFrom 0 8).all (fun w => gdReady d w)
      let d := d.append 0x16 1 0 (leBytes 1 (bits (d.rd Reg.MOD_BOOT) 27 27) ++ [status] ++ leBytes 4 ms.toNat)
      let d := d.wr Reg.MOD_BOOT (setBits (d.rd Reg.MOD_BOOT) 25 25 (b2n pass))
      let d := if pass then d else d.bootFail (if status.toNat = OK then TIMEOUT else status.toNat)
      { d.setStage sgTileTest with gddr := { d.gddr with bad := [] } })

/-- The boot bitmap and grades after a tile test: the shipped ones but for the tiles listed, each with the slower grade it passes at,
or none where it fails (R504, R505). -/
def tileResult (ts : List TileFind) (i : Nat) : Option Nat :=
  if ¬ Config.shipEnabled i then none
  else match ts.find? (fun t => t.1.val == i) with
    | some (_, g) => g.map (fun x => max x.val (Config.shipGrade i % 4))
    | none => some (Config.shipGrade i % 4)

/-- The floor plan's boot registers (R522). -/
def Dev.bootPlan (d : Dev) (r : Nat → Option Nat) : Dev :=
  let d := (upFrom 0 16).foldl (fun d n => d.wr (Reg.MOD_FP_BOOT0 + 4 * n)
    (sumList ((upFrom 0 32).map (fun k => b2n (r (32 * n + k)).isSome * 2 ^ k)))) d
  (upFrom 0 32).foldl (fun d n => d.wr (Reg.MOD_FP_GRADE0 + 4 * n)
    (sumList ((upFrom 0 16).map (fun k => (match r (16 * n + k) with | some g => g | none => Config.shipGrade (16 * n + k) % 4) * 4 ^ k)))) d

/-- Tiles follow the boot bitmap: disabled, or idle after the test's clear (R91). -/
def Dev.planTiles (d : Dev) (r : Nat → Option Nat) : List Nat → Dev
  | [] => d
  | i :: is =>
    let t := tile d i
    let st : TileSt := if t.st = .off then .off else if (r i).isNone then .disabled else .idle
    Dev.planTiles (d.setTile i { t with st := st, blk := none, kdone := 0, acc := [] }) r is

/-- TILE_TEST_DONE (R504-R506): the floor plan's boot values; the self-test passes with SRAM_INIT and the memory test clean
and 496 tiles enabled in wings whose ports are ACTIVE. -/
def tileTested (s : State) (ts : List TileFind) : State :=
  let boots : Bool := bootStage s.dev == sgTileTest
  if (¬ boots ∧ s.dev.pwr.phase ≠ 4) ∨ moduleResets s.dev then s
  else
    let r := tileResult ts
    let s := s.onDev (fun d =>
      let d := (d.bootPlan r).planTiles r (upFrom 0 512)
      let n := ((upFrom 0 512).filter (fun i => (r i).isSome && wingActive d (i / 64))).length
      let v := d.rd Reg.MOD_BOOT
      let pass : Bool := !d.pwr.sramBad && v.testBit 25 && decide (496 ≤ n)
      let d := d.wr Reg.MOD_BOOT (setBits v 26 26 (b2n pass))
      let d := if 496 ≤ n then d else d.bootFail TILE_ECC
      let d := if d.pwr.tested then d
        else d.wr Reg.MOD_BOOT (setBits (d.rd Reg.MOD_BOOT) 15 0 (min 0xFFFF (d.clk.aon / 10 ^ 8)))
      let d : Dev := { d with pwr := { d.pwr with tested := true, phase := 0 } }
      let d := if boots then d.toLinks else d
      d.reachState 0 (decide (d.rd Reg.PWR_TARGET = 0) && !boots))
    if boots then s
    else if s.dev.rd Reg.PWR_TARGET = 1 then
      let s := (arrCtrlEffect 1 2 s).2
      s.onDev Dev.quietSettle
    else s

/-- TILE_TEST_DONE. -/
def execTileTestDone (ts : List TileFind) (s : State) : Host.Outcome State Fault Refusal :=
  done (tileTested s ts)

/-- GDDR7_ZERO_FILL_DONE: on the way out of Transit every line holds zeros, and the short tile test begins (R512). -/
def execGddr7ZeroFillDone (s : State) : Host.Outcome State Fault Refusal :=
  if s.dev.pwr.phase = 3 ∧ ¬ moduleResets s.dev then
    done { s with
      mem := { s.mem with gd := [] }
      dev := { s.dev with pwr := { s.dev.pwr with phase := 4 }, gddr := { s.dev.gddr with bad := [] } } }
  else done s

/-- LINKS_DONE: bring-up enters DISCOVERY, and the module moves on to what PWR_TARGET names. -/
def execLinksDone (s : State) : Host.Outcome State Fault Refusal :=
  if bootStage s.dev = sgLinks then done (moveOn (s.onDev (fun d => (d.setStage sgDiscovery).agtStart.atDiscovery))) else done s

/-! ## PWR_TARGET (R512) -/

/-- The effect of a write of PWR_TARGET; in Standby it waits until no die reads at THM_CRITICAL (R528). -/
def targetEffect (v : Nat) (s : State) : Nat × State :=
  let d := s.dev
  let t := v % 8
  if 4 < t then (OUT_OF_RANGE, s)
  else if changing d ∨ scrubbing d ∨ (sgWaves ≤ bootStage d ∧ bootStage d ≤ sgTileTest) ∨
      (bits (d.rd Reg.PWR_STATE) 2 0 = 3 ∧ dieHot d) then (PWR_BUSY, s)
  else
    let shut : Bool := bits (d.rd Reg.PWR_STATE) 2 0 == 3 && t == 4 && !moduleResets d
    let s := s.onDev (fun d => d.wr Reg.PWR_TARGET t)
    if shut then (OK, s.onDev (fun d => d.shutdownRecord 4)) else (OK, moveOn s)

/-- A write of PWR_TARGET by a master. -/
def targetWrite (master t : Nat) (s : State) : State :=
  mgmtWrite master (mAddr Reg.PWR_TARGET) 32 t (targetEffect t) s

/-- TARGET_FULL, TARGET_QUIET, TARGET_TRANSIT, TARGET_STANDBY and TARGET_OFF. -/
def execTargetFull (master : Byte) (s : State) : Host.Outcome State Fault Refusal := done (targetWrite master.toNat 0 s)
def execTargetQuiet (master : Byte) (s : State) : Host.Outcome State Fault Refusal := done (targetWrite master.toNat 1 s)
def execTargetTransit (master : Byte) (s : State) : Host.Outcome State Fault Refusal := done (targetWrite master.toNat 2 s)
def execTargetStandby (master : Byte) (s : State) : Host.Outcome State Fault Refusal := done (targetWrite master.toNat 3 s)
def execTargetOff (master : Byte) (s : State) : Host.Outcome State Fault Refusal := done (targetWrite master.toNat 4 s)

end Sys2Proof.Machine
end

