-- ==== Sys2Proof/Machine/Collective.lean ====
section
/-! DEFINITION. The collective engine at one member: groups (R256-R258), submission and launch (R259-R263), the flow of chunks
under credits (R271-R277), signature and verdict (R278-R280), aborts (R281-R284), and array input (R286, R287). -/

namespace Sys2Proof.Machine

/-! ## Registers and the queue -/

/-- What the engine's accesses and packets carry (R259). -/
def colUser (d : Dev) : MemUser :=
  ⟨bits (d.rd Reg.COL_TENANT) 8 0, (d.rd Reg.COL_TENANT).testBit 9, false, 9⟩

/-- Free slots of the Pantry (PAN_SLOTS_FREE). -/
def panFree (d : Dev) : Nat := 12288 - sumList (d.col.parts.map (·.slots))

/-- The end of a descriptor is written (R263): words 14 and 15, COL_DONE, and the doorbell. -/
def colEndWrite (s : State) (x : ColEnd) : State :=
  let r := gdWrite s x.user x.addr (leBytes 4 x.word14 ++ leBytes 4 x.word15)
  r.2.onDev (fun d =>
    let d := if r.1 ≠ OK then d.raise 0x030 1 else d
    let d := d.bump Reg.COL_DONE
    if x.notify then d.notify Reg.COL_NOTIFY else d)

/-- The ends of descriptors, in their order: each is written, or waits behind those before it and for its memory (R38, R133). -/
def colEndsWrite : List ColEnd → State → State
  | [], s => s
  | x :: xs, s =>
    colEndsWrite xs (if s.dev.col.ends ≠ [] ∨ gdWaits s.dev x.user x.addr 8 then
        s.onDev (fun d => { d with col := { d.col with ends := d.col.ends ++ [x] } })
      else colEndWrite s x)

/-- The ends that wait are tried again. -/
def State.colEndsGo (s : State) : State :=
  colEndsWrite s.dev.col.ends (s.onDev (fun d => { d with col := { d.col with ends := [] } }))

/-- A descriptor ends with a status, its DETAIL, its CAUSE and its output flags (R263). -/
def colEndDesc (s : State) (j : ColJob) (st detail : Nat) (cause : Option Nat) (sat nan : Bool) : State :=
  let w14 := (match cause with | some c => 2 ^ 31 + c % 2 ^ 15 | none => 0) + b2n sat * 2 ^ 30 + b2n nan * 2 ^ 29
  let w15 := 2 ^ 31 + detail * 2 ^ 16 + bits (j.word 0) 7 0 * 2 ^ 8 + st
  colEndsWrite [⟨j.addr + 56, w14, w15, colUser s.dev, (j.word 0).testBit 18⟩] s

/-! ## Groups (R256-R258) -/

/-- The members of a group, in member order. -/
def grpMas (d : Dev) (first count : Nat) : List Nat := (upFrom first count).map (poolEntry d)

/-- The MA of a member. -/
def memberMa (d : Dev) (g : Grp) (m : Nat) : Nat := poolEntry d (g.first + m)

/-- Where an MA stands in a list. -/
def indexIn (ma : Nat) : List Nat → Option Nat
  | [] => none
  | x :: xs => if x = ma then some 0 else (indexIn ma xs).map (· + 1)

/-- No element appears twice. -/
def noRepeat : List Nat → Bool
  | [] => true
  | x :: xs => !xs.contains x && noRepeat xs

/-- A queued or active participation uses a group. -/
def groupUsed (d : Dev) (g : Nat) : Bool :=
  d.col.queue.any (fun j => j.group == g) || d.col.parts.any (fun x => x.job.group == g)

/-- The check of a group entry's new bytes 0-7 (R257): the status and the entry it sets. -/
def groupCheck (d : Dev) (g v : Nat) : Nat × Grp :=
  let first := bits v 49 32
  let count := bits v 31 16
  let mas := grpMas d first count
  if groupUsed d g then (GROUP_BUSY, Grp.empty)
  else if count < 2 ∨ 32768 < count then (GROUP_INVALID, Grp.empty)
  else if 262144 < first + count then (GROUP_INVALID, Grp.empty)
  else if ¬ noRepeat mas ∨ ¬ maValid d then (GROUP_INVALID, Grp.empty)
  else match indexIn (myMa d) mas with
  | none => (GROUP_INVALID, Grp.empty)
  | some self =>
    (OK, ⟨true, v.testBit 62, bits v 61 53, first, count, 0, self, crc64 ((mas.map (leBytes 2)).flatten)⟩)

/-- The first 64 bits of a group entry. -/
def Grp.word (x : Grp) : Nat :=
  b2n x.valid * 2 ^ 63 + b2n x.system * 2 ^ 62 + x.tenant * 2 ^ 53 + x.first * 2 ^ 32 + x.count * 2 ^ 16 + x.nextSeq

/-- GRP_WRITE_STATUS of a write of a group entry (R257, R295). -/
def Dev.groupNote (d : Dev) (g st : Nat) : Dev := d.wr Reg.GRP_WRITE_STATUS (2 ^ 31 + g * 2 ^ 12 + st)

/-- The read of a group or member entry, with its checks (R297): false when it is uncorrectable. -/
def Dev.grpRead (d : Dev) : Bool × Dev :=
  match d.armedFirst 0x032 [0, 1] with
  | some 0 => (true, (d.disarm 0x032 0).raise 0x032 0)
  | some i => (false, (d.disarm 0x032 i).raise 0x032 1)
  | none => (true, d)

/-- Two entries are read, so that each armed check is taken (R297). -/
def Dev.grpReads (d : Dev) : Bool × Dev := let a := d.grpRead; let b := a.2.grpRead; (a.1 && b.1, b.2)

/-- A check of new bytes 0-7 and its record. The check reads the member entries once COUNT and FIRST stand (R257); DESIGN CHOICE
(log entry 212): one that is uncorrectable refuses the write with GROUP_INVALID. -/
def Dev.groupSet (d : Dev) (g v : Nat) : Nat × Dev :=
  let r := groupCheck d g v
  let reads : Bool := !groupUsed d g && decide (2 ≤ bits v 31 16 ∧ bits v 31 16 ≤ 32768 ∧ bits v 49 32 + bits v 31 16 ≤ 262144)
  let m := if reads then d.grpReads else (true, d)
  let r := if m.1 then r else (GROUP_INVALID, Grp.empty)
  let d := m.2.groupNote g r.1
  let d : Dev := { d with col := { d.col with staged := SMap.put (fun _ => 0) d.col.staged g 0 } }
  if r.1 = OK then
    let d := d.setGrp g r.2
    (OK, { d with col := { d.col with
      ended := SMap.erase (fun k => k / 2 ^ 16 == g) d.col.ended
      opened := SMap.erase (fun k => k / 2 ^ 16 == g) d.col.opened } })
  else (r.1, d.raise 0x032 2)

/-- A write at byte `o` of a group entry, of 4 or 8 bytes (R257). -/
def Dev.groupWrite (d : Dev) (g o n v : Nat) : Nat × Dev :=
  if 8 ≤ o then (OK, d.groupNote g OK)
  else if n = 8 then d.groupSet g v
  else if o = 0 then
    (OK, ({ d with col := { d.col with staged := SMap.put (fun _ => 0) d.col.staged g (v % 2 ^ 32 + 1) } } : Dev).groupNote g OK)
  else
    let st := SMap.get (fun _ => 0) d.col.staged g
    let lo := if st = 0 then (grp d g).word % 2 ^ 32 else st - 1
    d.groupSet g (v % 2 ^ 32 * 2 ^ 32 + lo)

/-- Pool entry `i` lies in the range of a valid group (R258). -/
def poolBusy (d : Dev) (i : Nat) : Bool :=
  d.col.groups.any (fun g => g.2.valid && decide (g.2.first ≤ i ∧ i < g.2.first + g.2.count))

/-- A write of `n` pool entries from entry `i`. -/
def Dev.poolWrite (d : Dev) (i n v : Nat) : Nat × Dev :=
  if (upFrom i n).any (poolBusy d) then (GROUP_BUSY, d.raise 0x032 2)
  else
    (OK, { d with col := { d.col with
      pool := (upFrom 0 n).foldl (fun m k => SMap.put (fun _ => 0) m (i + k) (bits v (16 * k + 14) (16 * k))) d.col.pool } })

/-- A write in slot 2 (R256). -/
def Dev.grpSlotWrite (d : Dev) (off n v : Nat) : Nat × Dev :=
  if off < 0x20000 then d.groupWrite (off / 32) (off % 32) n v
  else if off < 0xA0000 then d.poolWrite ((off - 0x20000) / 2) (n / 2) v
  else (OK, d)

/-- GROUP_ENTRY_WRITE: the write of bytes 4-7 (`wide`: of bytes 0-7). -/
def execGroupEntryWrite (master : Byte) (group : BitVec 12) (wide : Bool) (value : BitVec 64) (s : State) :
    Host.Outcome State Fault Refusal :=
  let o := if wide then 0 else 4
  let n := if wide then 8 else 4
  done (mgmtWrite master.toNat (0x0220000000 + 32 * group.toNat + o) (8 * n) value.toNat
    (devEffect (fun d => d.groupWrite group.toNat o n (value.toNat % 2 ^ (8 * n)))) s)

/-- MEMBER_POOL_WRITE: a 32-bit write of pool entries 2i and 2i + 1. -/
def execMemberPoolWrite (master : Byte) (i : BitVec 17) (value : Word) (s : State) : Host.Outcome State Fault Refusal :=
  done (mgmtWrite master.toNat (0x0220020000 + 4 * i.toNat) 32 value.toNat
    (devEffect (fun d => d.poolWrite (2 * i.toNat) 2 value.toNat)) s)

/-- The effect of a write of GRP_DISABLE (R257). -/
def Dev.grpDisable (d : Dev) (v : Nat) : Nat × Dev :=
  let g := v % 4096
  if groupUsed d g then (GROUP_BUSY, d.raise 0x032 2) else (OK, d.setGrp g { grp d g with valid := false })

/-- GRP_DISABLE. -/
def execGrpDisable (master : Byte) (value : Word) (s : State) : Host.Outcome State Fault Refusal :=
  done (mgmtWrite master.toNat (mAddr Reg.GRP_DISABLE) 32 value.toNat (devEffect (fun d => d.grpDisable value.toNat)) s)

/-! ## Sending (R272, R273) -/

/-- A participation under way: the device, the participation, and how it stops when it must (an abort, its status and its
CAUSE). -/
structure Adv where
  d : Dev
  x : ColPart
  stop : Option (Bool × Nat × Nat)
  deriving DecidableEq, Repr

/-- A chunk sub-header (R272). -/
def subHeader (group kind cseq cno lo hi off16 flags pkts crc arg arg2 : Nat) : List Byte :=
  leBytes 2 (group + kind * 2 ^ 12) ++ leBytes 2 cseq ++ leBytes 4 cno ++ leBytes 2 lo ++ leBytes 2 hi ++
    leBytes 2 off16 ++ leBytes 1 flags ++ leBytes 1 pkts ++ leBytes 8 crc ++ leBytes 4 arg ++ leBytes 4 arg2

/-- A collective packet to a member. -/
def Adv.send (a : Adv) (g : Grp) (ptype member window offset chan : Nat) (bytes : List Byte) : Adv :=
  let u := colUser a.d
  let p : Packet := ⟨ptype, 1, false, false, false, memberMa a.d g member, 0, 0, u.tenant, u.system, window, chan % 256,
    offset, opidOf a.d a.x.entry, a.x.seq, bytes⟩
  { a with d := a.d.offer p, x := { a.x with seq := (a.x.seq + 1) % 2 ^ 16 } }

/-- A control packet: OPEN, VERDICT, ABORT or CREDIT. -/
def Adv.control (a : Adv) (g : Grp) (member kind cno lo hi flags arg arg2 : Nat) (rest : List Byte) : Adv :=
  a.send g ptContrib member 0 0 a.x.cseq
    (subHeader a.x.job.group kind a.x.cseq cno lo hi 0 flags 1 0 arg arg2 ++ rest)

/-- LO and HI of a packet about the subtree of logical index `l`; in an ALL_TO_ALL the sender's member index, and 0 (R272). -/
def ColJob.span (j : ColJob) (g : Grp) (l : Nat) : Nat × Nat := if j.coll = 6 then (g.self, 0) else (l, treeEnd g.count l)

/-- A credit with a CHUNK_NO and ARG to the sender with logical index `l`, who is a member. -/
def Adv.credit (a : Adv) (g : Grp) (member c l : Nat) : Adv :=
  let w := a.x.job.span g l
  a.control g member 4 c w.1 w.2 0 c l []

/-- The packets of a chunk from packet `k` on (R271). -/
def Adv.packets (a : Adv) (g : Grp) (ptype member kind c lo hi window base fl crc size np : Nat) (data : List Byte) :
    Nat → Nat → Adv
  | 0, _ => a
  | m + 1, k =>
    let part := (data.drop (4064 * k)).take 4064
    let last := if k + 1 = np then 4 else 0
    Adv.packets (a.send g ptype member window (if ptype = ptResult then base + 4064 * k else 0) (a.x.cseq + c)
      (subHeader a.x.job.group kind a.x.cseq c lo hi (4064 * k / 16) (fl + last) np crc size 0 ++ part))
      g ptype member kind c lo hi window base fl crc size np data m (k + 1)

/-- A read of the store (R297): false when a word is uncorrectable. Which slot that is the spec leaves open. -/
def Dev.panRead (d : Dev) : Bool × Dev :=
  match d.armedFirst 0x031 [0, 1] with
  | some 0 => (true, ((d.disarm 0x031 0).count Reg.PAN_CE_COUNT).raise 0x031 0)
  | some _ =>
    let d := ((d.disarm 0x031 1).count Reg.PAN_UE_COUNT).wr Reg.PAN_LAST_UE (2 ^ 31 + d.fresh % 12288)
    (false, d.used.raise 0x031 1)
  | none => (true, d)

/-- A read of some bytes of the store, word by word: each armed check takes one word of 8 bytes (R48, R297). -/
def Dev.panReads (d : Dev) (n : Nat) : Bool × Dev :=
  let r := d.panRead
  if n ≤ 8 then r else (r.1 && r.2.panRead.1, r.2.panRead.2)

/-- A store read of some bytes in a participation's buffer. -/
def Adv.pan (a : Adv) (g : Grp) (n : Nat) : Adv :=
  let r := a.d.panReads n
  { a with d := r.2, stop := if r.1 then a.stop else some (true, PANTRY_UE, g.self) }

/-- A whole chunk is sent: DATA up, or RESULT down or across. -/
def Adv.chunk (a : Adv) (g : Grp) (result : Bool) (member c lo hi base : Nat) (data : List Byte) : Adv :=
  let a := a.pan g data.length
  let np := max 1 ((data.length + 4063) / 4064)
  let ex := !result && a.x.job.exact
  a.packets g (if result then ptResult else ptContrib) member (if result then 6 else 5) c lo hi
    (if result then a.x.job.rwin else 0) base (b2n ex) (crc64 data) data.length np data np 0

/-! ## Chunks -/

/-- A chunk nothing has happened to, and chunk `q` of a participation. -/
def ColChunk.empty : ColChunk :=
  ⟨false, none, 0, [], [], [], false, false, false, false, [], [], 0, false, 0, none, false, false, false⟩
def ColPart.chunk (x : ColPart) (q : Nat) : ColChunk := SMap.get (fun _ => ColChunk.empty) x.chunks q
def ColPart.setChunk (x : ColPart) (q : Nat) (c : ColChunk) : ColPart :=
  { x with chunks := SMap.put (fun _ => ColChunk.empty) x.chunks q c }
def Adv.setChunk (a : Adv) (q : Nat) (c : ColChunk) : Adv := { a with x := a.x.setChunk q c }

/-- Buffers of a chunk in use: its own, its input's on the way to another member, and one for each credited partial not yet combined (R276). -/
def ColChunk.buffers (c : ColChunk) : Nat :=
  if c.ended then 0 else b2n c.own + b2n (c.lend == 1) + (c.granted.length - c.got)

/-- Buffers of a participation in use. -/
def ColPart.used (x : ColPart) : Nat := sumList (x.chunks.map (fun e => e.2.buffers))

/-- The chunks of all trees, `q` = chunk x trees + tree; in an ALL_TO_ALL the incoming pieces' chunks follow. -/
def ColPart.total (x : ColPart) (g : Grp) : Nat := x.job.nch * x.job.trees g.count
def ColPart.allChunks (x : ColPart) (g : Grp) : Nat :=
  x.total g + (if x.job.coll = 6 then x.job.nch * g.count else 0)

/-- The chunk number and the tree (or the sender of an incoming piece) of a key. -/
def ColPart.cno (x : ColPart) (g : Grp) (q : Nat) : Nat := (if x.total g ≤ q then q - x.total g else q) / x.job.trees g.count
def ColPart.tree (x : ColPart) (g : Grp) (q : Nat) : Nat := (if x.total g ≤ q then q - x.total g else q) % x.job.trees g.count

/-- This member's logical index in a key's tree, and the member at a logical index. -/
def ColPart.rotOf (x : ColPart) (g : Grp) (q : Nat) : Nat := x.job.rot x.cseq g.count (x.tree g q) (x.cno g q)
def logicalOf (g : Grp) (r m : Nat) : Nat := (m + g.count - r % g.count) % g.count
def memberAt (g : Grp) (r l : Nat) : Nat := (l + r) % g.count

/-- This member reads or is handed the input of a key's chunk. -/
def ColPart.hasInput (x : ColPart) (g : Grp) (q : Nat) : Bool :=
  decide (q < x.total g) && (x.job.up || x.job.coll == 6 || logicalOf g (x.rotOf g q) g.self == 0)

/-- The rotation places the node of this member's index on another member: the member's input goes to that node, and its own node
takes the input of the member whose index the node has (R264, R265; log entry 213). -/
def ColPart.lends (x : ColPart) (g : Grp) (q : Nat) : Bool := x.job.up && x.rotOf g q % g.count != 0

/-- Incoming keys of an ALL_TO_ALL; this member's own is not used. -/
def ColPart.incoming (x : ColPart) (g : Grp) (q : Nat) : Bool := decide (x.total g ≤ q)

/-- A buffer may be taken for a chunk: an ALL_TO_ALL keeps one for each direction. -/
def ColPart.room (x : ColPart) (g : Grp) (q : Nat) : Bool :=
  decide (x.used < x.quota) &&
  (x.job.coll != 6 || x.incoming g q || x.job.array ||
    decide (sumList ((x.chunks.filter (fun e => !x.incoming g e.1)).map (fun e => e.2.buffers)) + 1 < x.quota))

/-- Credits to the children that have none, in ascending order, while buffers are free (R276). -/
def Adv.grants (a : Adv) (g : Grp) (q r : Nat) : List Nat → Adv
  | [] => a
  | l :: ls =>
    let c := a.x.chunk q
    if c.granted.contains l then Adv.grants a g q r ls
    else if a.x.used < a.x.quota then
      Adv.grants ((a.setChunk q { c with granted := c.granted ++ [l] }).credit g (memberAt g r l) (a.x.cno g q) l) g q r ls
    else a

/-- The children's partials are combined, one level at a time, in ascending order (R264, R276). -/
def Adv.combine (a : Adv) (g : Grp) (q : Nat) : List Nat → Adv
  | [] => a
  | l :: ls =>
    let c := a.x.chunk q
    match c.data, SMap.get (fun _ => none) c.parts l with
    | some mine, some theirs =>
      let j := a.x.job
      let a := a.pan g (mine.length + theirs.length)
      let r := combineChunks j.exact j.ty j.redop j.sat mine theirs
      let units (n : Nat) : Nat := (n + 4095) / 4096
      let own := if c.got = 0 then units (j.chunkLen (a.x.cno g q)) else 0
      let d := a.d.countBy Reg.PAN_COMBINED (own + units theirs.length)
      let x := a.x.setChunk q { c with
        data := some r.bytes, got := c.got + 1, parts := SMap.put (fun _ => none) c.parts l none }
      Adv.combine { a with d := d, x := { x with sat := x.sat || r.sat, nan := x.nan || r.nan } } g q ls
    | _, _ => a

/-- A RESULT goes to the children, the largest subtree first; one that has not credited it holds up the smaller ones (R265). -/
def Adv.spread (a : Adv) (g : Grp) (q r : Nat) (data : List Byte) : List Nat → Adv
  | [] => a
  | l :: ls =>
    let c := a.x.chunk q
    if c.credits.contains l ∧ ¬ c.down.contains l then
      let no := a.x.cno g q
      Adv.spread ((a.setChunk q { c with down := c.down ++ [l] }).chunk g true (memberAt g r l) no l (treeEnd g.count l)
        (a.x.job.resOff (a.x.tree g q) no) data) g q r data ls
    else if c.down.contains l then Adv.spread a g q r data ls
    else a

/-- The chunk has ended at this member; its buffer is free. -/
def ColChunk.finished (c : ColChunk) : ColChunk := { ColChunk.empty with ended := true, got := 0, down := [], sent := c.sent }

/-- The node of a chunk is done at this member: the chunk has ended once the member's input has gone to its own node too. -/
def Adv.close (a : Adv) (g : Grp) (q : Nat) : Adv :=
  let c := a.x.chunk q
  if a.x.lends g q ∧ c.lend ≠ 2 then
    a.setChunk q { ColChunk.empty with lend := c.lend, mine := c.mine, lendCredit := c.lendCredit, closed := true, sent := c.sent }
  else a.setChunk q c.finished

/-- What a chunk whose tree is rotated does with inputs: this member's goes to the member that holds the node of its index, once
that member credits it, and its own node asks for the input of the member whose index the node has. Such a credit and such a
chunk carry HI = LO (R265; log entry 213). -/
def Adv.lending (a : Adv) (g : Grp) (q : Nat) : Adv :=
  if ¬ a.x.lends g q ∨ (a.x.chunk q).ended then a
  else
    let r := a.x.rotOf g q
    let no := a.x.cno g q
    let p := logicalOf g r g.self
    let a := if (a.x.chunk q).lend = 0 ∧ a.x.room g q then a.setChunk q { a.x.chunk q with lend := 1 } else a
    let c := a.x.chunk q
    let a := if c.own ∧ ¬ c.inAsked then
        (a.setChunk q { c with inAsked := true }).control g p 4 no p p 0 no p []
      else a
    let c := a.x.chunk q
    match c.mine, c.lend == 1 && c.lendCredit with
    | some data, true =>
      let a := a.chunk g false (memberAt g r g.self) no g.self g.self 0 data
      let c := { a.x.chunk q with lend := 2, mine := none }
      a.setChunk q (if c.closed then c.finished else c)
    | _, _ => a

/-- What a held chunk does going up: combine, then the result at the root or DATA to the parent (R264, R265, R276). -/
def Adv.upward (a : Adv) (g : Grp) (q : Nat) : Adv :=
  let r := a.x.rotOf g q
  let p := logicalOf g r g.self
  let ks := treeKids g.count p
  let a := a.grants g q r ks
  let a := if a.x.go then a.combine g q (ks.drop (a.x.chunk q).got) else a
  let c := a.x.chunk q
  let no := a.x.cno g q
  match c.data with
  | none => a
  | some data =>
    if c.got < ks.length then a
    else if p = 0 then
      let f := formChunk a.x.job.exact a.x.job.ty a.x.job.sat data
      let x := a.x.setChunk q { c with data := some f.bytes, final := true }
      { a with x := { x with sat := x.sat || f.sat, nan := x.nan || f.nan } }
    else if c.upCredit then
      let up := memberAt g r (treeParent p)
      let a := a.chunk g false up no p (treeEnd g.count p) 0 data
      if a.x.job.coll = 1 then
        (a.setChunk q { a.x.chunk q with sent := true, data := none, asked := true }).credit g up no (treeParent p)
      else a.close g q
    else a

/-- What a result does: it is written, and sent down where the collective sends it down; then the chunk ends. -/
def Adv.downward (a : Adv) (g : Grp) (q : Nat) : Adv :=
  let c := a.x.chunk q
  match c.data, c.final && a.x.go with
  | some data, true =>
    let a := if c.wrote = 0 then a.setChunk q { c with wrote := 1 } else a
    let r := a.x.rotOf g q
    let ks := if a.x.job.downs then treeKids g.count (logicalOf g r g.self) else []
    let a := a.spread g q r data ks.reverse
    let c := a.x.chunk q
    if c.wrote = 2 ∧ c.down.length = ks.length then a.close g q else a
  | _, _ => a

/-- A piece of an ALL_TO_ALL: an outgoing one goes to its member, this member's own and an incoming one are results. -/
def Adv.piece (a : Adv) (g : Grp) (q : Nat) : Adv :=
  let c := a.x.chunk q
  let t := a.x.tree g q
  let no := a.x.cno g q
  if a.x.incoming g q then
    (if ¬ c.asked then (a.setChunk q { c with asked := true }).credit g t no t else a).downward g q
  else match c.data with
  | none => a
  | some data =>
    if t = g.self then (a.setChunk q { c with final := true }).downward g q
    else if c.upCredit ∧ a.x.go then
      let a := a.chunk g true t no g.self 0 (a.x.job.resOff g.self no) data
      a.setChunk q (a.x.chunk q).finished
    else a

/-- One chunk does all it can. -/
def Adv.step (a : Adv) (g : Grp) (q : Nat) : Adv :=
  let c := a.x.chunk q
  let a := if ¬ c.own ∧ ¬ c.closed ∧ a.x.room g q then a.setChunk q { c with own := true } else a
  let a := a.lending g q
  let c := a.x.chunk q
  if ¬ c.own then a
  else if a.x.job.coll = 6 then a.piece g q
  else
    let a := if a.x.job.up ∧ ¬ c.sent ∧ ¬ c.final then a.upward g q else a
    let c := a.x.chunk q
    let r := a.x.rotOf g q
    let p := logicalOf g r g.self
    let a :=
      if a.x.job.up ∨ c.ended then a
      else if p = 0 then (if c.data.isSome ∧ a.x.go then a.setChunk q { c with final := true } else a)
      else if ¬ c.asked then
        (a.setChunk q { c with asked := true }).credit g (memberAt g r (treeParent p)) (a.x.cno g q) (treeParent p)
      else a
    a.downward g q

/-- Chunks in order, until one finds no buffer (R276). -/
def Adv.pass (g : Grp) : List Nat → Adv → Adv
  | [], a => a
  | q :: qs, a =>
    if a.stop.isSome then a
    else if (a.x.chunk q).ended ∨ (a.x.incoming g q ∧ a.x.tree g q = g.self) then Adv.pass g qs a
    else
      let b := a.step g q
      if (b.x.chunk q).own ∨ (b.x.chunk q).closed ∨ (b.x.chunk q).ended ∨ (b.x.job.coll = 6 ∧ ¬ b.x.incoming g q) then Adv.pass g qs b else b

/-- Passes until nothing changes. -/
def Adv.passes (g : Grp) : Nat → Adv → Adv
  | 0, a => a
  | n + 1, a =>
    let b := Adv.pass g (upFrom 0 (a.x.allChunks g)) a
    if b.x = a.x ∨ b.stop.isSome then b else Adv.passes g n b

/-! ## Signature and verdict (R278-R280) -/

/-- The signature block. -/
def ColPart.signature (x : ColPart) (g : Grp) (u : MemUser) : List Byte :=
  let j := x.job
  let z := j.count = 0
  let w (v : Nat) : Nat := if z then 0 else v
  leBytes 1 (j.coll * 16 + w j.ty) ++ leBytes 1 (w (j.redop * 64 + b2n j.exact * 32 + b2n j.sat * 16)) ++
    leBytes 1 (w j.chunkUnits) ++ leBytes 1 0 ++ leBytes 4 j.count ++ leBytes 2 j.group ++ leBytes 2 x.cseq ++
    leBytes 2 (if j.rooted then j.root else 0) ++ leBytes 2 (w j.rwin) ++ leBytes 6 (w j.roff) ++
    leBytes 2 (u.tenant + b2n u.system * 512) ++ leBytes 8 g.digest

/-- This member's logical index in the control tree. -/
def ColPart.ctl (x : ColPart) (g : Grp) : Nat := logicalOf g x.job.ctlRot g.self
def ColPart.ctlMember (x : ColPart) (g : Grp) (l : Nat) : Nat := memberAt g x.job.ctlRot l

/-- The member's OPEN. -/
def Adv.sendOpen (a : Adv) (g : Grp) : Adv :=
  let p := a.x.ctl g
  a.control g (a.x.ctlMember g (treeParent p)) 1 0 p (if a.x.job.coll = 6 then 0 else treeEnd g.count p) (if a.x.detail.isSome then 2 else 0) 0
    (a.x.differ.getD 0xFFFF) (a.x.signature g (colUser a.d))

/-- LO of a VERDICT or ABORT: in an ALL_TO_ALL the sender's member index (R272); 0, the lowest node of the whole tree, otherwise, with
HI 0 (DESIGN CHOICE, log entry 249). -/
def ColJob.treeLo (j : ColJob) (g : Grp) : Nat := if j.coll = 6 then g.self else 0

/-- A verdict goes to some control children. -/
def Adv.verdicts (a : Adv) (g : Grp) (st cause : Nat) : List Nat → Adv
  | [] => a
  | l :: ls =>
    Adv.verdicts (a.control g (a.x.ctlMember g l) 2 0 (a.x.job.treeLo g) 0 0 (st * 2 ^ 24 + cause % 2 ^ 15) 0 []) g st cause ls

/-- A verdict is taken and passed on: GO lets the chunks proceed, MISMATCH ends the participation. -/
def Adv.verdict (a : Adv) (g : Grp) (st cause : Nat) : Adv :=
  let a := if a.x.passed then a else
    let b := a.verdicts g st cause (treeKids g.count (a.x.ctl g))
    { b with x := { b.x with passed := true } }
  if st = OK then { a with x := { a.x with go := true } } else { a with stop := some (false, MISMATCH, cause) }

/-- The member opens once its control children have; the root of the control tree decides. -/
def Adv.open (a : Adv) (g : Grp) : Adv :=
  let p := a.x.ctl g
  if a.x.opened ∨ ¬ (treeKids g.count p).all (fun l => a.x.opens.contains l) then a
  else if p = 0 then
    let a := { a with x := { a.x with opened := true } }
    match a.x.differ with
    | none => a.verdict g OK 0
    | some m => a.verdict g MISMATCH m
  else
    let a := a.sendOpen g
    { a with x := { a.x with opened := true } }

/-- Everything a participation can do now. A refused one only joins the control tree (R260). -/
def Adv.run (a : Adv) (g : Grp) : Adv :=
  let a := a.open g
  if a.stop.isSome ∨ a.x.detail.isSome then a else Adv.passes g (2 * a.x.allChunks g + 2) a

/-! ## Ends (R263, R281-R283) -/

/-- Chunks ended at this member. -/
def ColPart.endedCount (x : ColPart) : Nat := (x.chunks.filter (fun e => e.2.ended)).length

/-- DONE of the participation's entry (R296): the chunks of TOTAL that have ended. -/
def ColPart.doneCount (x : ColPart) (g : Grp) : Nat :=
  (x.chunks.filter (fun e => e.2.ended && decide (e.1 < x.total g))).length

/-- Every chunk that this member takes part in has ended, and it holds GO. -/
def ColPart.complete (x : ColPart) (g : Grp) : Bool :=
  x.go && x.passed && x.detail.isNone &&
  x.endedCount == x.total g + (if x.job.coll = 6 then x.job.nch * (g.count - 1) else 0)

/-- The result range of a participation that has aborted is undefined (R282). -/
def ColPart.undefined (x : ColPart) (s : State) : State :=
  let g := grp s.dev x.job.group
  let n := x.job.outElems g.count g.self * colBits x.job.ty / 8
  let u := colUser s.dev
  if windowCheck s.dev x.job.rwin u.tenant u.system 117 x.job.roff n = OK then
    s.havoc (windowAddr s.dev x.job.rwin x.job.roff) n
  else s

/-- The participation ends with a status and CAUSE: a refused one with COL_INVALID and its DETAIL, whatever ends it (R260, R263). Its
buffers and its entry are freed. -/
def colFinish (s : State) (x : ColPart) (st : Nat) (cause : Option Nat) : State :=
  let k := x.job.group * 2 ^ 16 + x.cseq
  let calm : Bool := st == OK || st == MISMATCH
  let s := if calm ∨ x.detail.isSome then s else x.undefined s
  let s := colEndDesc s x.job (if x.detail.isSome then COL_INVALID else st) (x.detail.getD 0) cause x.sat x.nan
  s.onDev (fun d =>
    let d : Dev := { d with col := { d.col with
      parts := d.col.parts.filter (fun y => y.entry != x.entry)
      opened := SMap.put (fun _ => []) d.col.opened k x.opens
      ended := if calm then SMap.put (fun _ => 0) d.col.ended k (x.job.ctlRot + 1 + (if x.job.coll = 6 then 2 ^ 16 else 0)) else d.col.ended } }
    let d := (d.acknowledged (x.cseq % 256) x.openOut).setOpt x.entry OptEntry.free
    if st = OK then d
    else if st = MISMATCH then (if x.detail.isSome then d else (d.count Reg.COL_MISMATCH_COUNT).raise 0x030 3)
    else
      ((((d.count Reg.COL_ABORT_COUNT).wr Reg.COL_LAST_ABORT (st * 2 ^ 24 + x.job.group * 2 ^ 12)).wr Reg.COL_LAST_CAUSE
        (2 ^ 31 + x.cseq)).raise 0x030 4))

/-- ABORT goes to some members. -/
def Adv.aborts (a : Adv) (g : Grp) (st cause : Nat) : List Nat → Adv
  | [] => a
  | m :: ms => Adv.aborts (a.control g m 3 0 (a.x.job.treeLo g) 0 0 (st * 2 ^ 24 + cause % 2 ^ 15) 0 []) g st cause ms

/-- The neighbours of a node in the control tree, but one member. -/
def ctlNeighbours (g : Grp) (rot : Nat) (but : Option Nat) : List Nat :=
  let p := logicalOf g rot g.self
  (((if p = 0 then [] else [treeParent p]) ++ treeKids g.count p).map (memberAt g rot)).filter (fun m => some m != but)

/-- A participation aborts (R282): what it has offered is dropped, ABORT goes out, and it ends with the status. Nothing is sent for
one whose entry is uncorrectable (R297). -/
def colAbort (s : State) (x : ColPart) (st cause : Nat) (from_ : Option Nat) : State :=
  let g := grp s.dev x.job.group
  let mine (p : Packet) : Bool := (p.ptype == ptContrib || p.ptype == ptResult) && p.opid == opidOf s.dev x.entry
  let d : Dev := { s.dev with rtr := { s.dev.rtr with
    offers := s.dev.rtr.offers.filter (fun p => !mine p), held := s.dev.rtr.held.filter (fun p => !mine p) } }
  let a : Adv := if (optEntry d x.entry).bad then ⟨d, x, none⟩
    else (⟨d, x, none⟩ : Adv).aborts g st cause (ctlNeighbours g x.job.ctlRot from_)
  colFinish { s with dev := a.d } a.x st (some cause)

/-- After an event, the participation of an entry does all it can and ends when it must or may; one whose entry is uncorrectable
does nothing more (R297). -/
def colRun (s : State) (i : Nat) : State :=
  match partAt s.dev i with
  | none => s
  | some x =>
    if (optEntry s.dev i).bad then s else
    let g := grp s.dev x.job.group
    let a := (⟨s.dev, x, none⟩ : Adv).run g
    let d := a.d.setPart a.x
    let e := optEntry d i
    let d := d.setOpt i { e with done := a.x.doneCount g, state := if a.x.go then 2 else 1 }
    let s := { s with dev := d }
    match a.stop with
    | some (true, st, cause) => colAbort s a.x st cause none
    | some (false, st, cause) => colFinish s a.x st (some cause)
    | none => if a.x.complete g then colFinish s a.x OK none else s

/-! ## Submission and launch (R259-R262) -/

/-- The effect of a write of COL_SUBMIT. -/
def colSubmitEffect (v : Nat) (s : State) : Nat × State :=
  if 64 ≤ s.dev.col.queue.length then (QUEUE_FULL, s)
  else
    let a := v * 64
    let r := gdRead s.dev (colUser s.dev) a 64
    if r.1 ≠ OK then (r.1, { s with dev := r.2.raise 0x030 0 })
    else
      (OK, { s with dev := { r.2 with col := { r.2.col with queue := r.2.col.queue ++ [⟨wordsOf (s.mem.bytes a 64) 16, a⟩] } } })

/-- COL_SUBMIT. -/
def execColSubmit (master : Byte) (value : Word) (s : State) : Host.Outcome State Fault Refusal :=
  done (mgmtWrite master.toNat (mAddr Reg.COL_SUBMIT) 32 value.toNat (colSubmitEffect value.toNat) s)

/-- The queue's head is gone. -/
def Dev.colPop (d : Dev) : Dev :=
  { d with col := { d.col with queue := d.col.queue.tail, checked := false, detail := none, waited := false, entry := none } }

/-- The quota of a descriptor after substitution. -/
def colQuota (d : Dev) (j : ColJob) : Nat :=
  let q := bits (j.word 3) 11 0
  if q = 0 then d.rd Reg.COL_QUOTA_DEFAULT else q

/-- The first check of R260's table that fails. -/
def colDetail (d : Dev) (j : ColJob) (g : Grp) : Option Nat :=
  let u := colUser d
  let raw := bits (j.word 0) 31 28
  let ty := j.ty
  let inBits := j.inElems g.count g.self * colBits ty
  let outBits := j.outElems g.count g.self * colBits ty
  let e := windowEntry d j.rwin
  let q := colQuota d j
  let depth := treeDepth g.count
  let inChunks := if inBits = 0 then 0 else j.nch * (if j.coll = 2 ∨ j.coll = 6 then g.count else 1)
  if raw = 0 ∨ 8 ≤ raw ∨ bits (j.word 0) 12 8 ≠ 0 ∨ bits (j.word 2) 19 15 ≠ 0 ∨ bits (j.word 3) 19 12 ≠ 0 ∨
      bits (j.word 5) 31 16 ≠ 0 ∨ bits (j.word 7) 31 16 ≠ 0 ∨ (upFrom 8 5).any (fun i => j.word i != 0) then some 0x01
  else if 12 ≤ ty ∨ j.redop = 3 ∨ ((raw = 1 ∨ raw = 2 ∨ raw = 5) ∧ [5, 6, 7, 9].contains ty) ∨
      (j.exact ∧ (¬ [2, 3, 4, 8, 10, 11].contains ty ∨ j.redop ≠ 0)) then some 0x02
  else if j.chunkUnits = 0 ∨ 16 < j.chunkUnits then some 0x03
  else if (raw = 4 ∨ raw = 5) ∧ g.count ≤ j.root then some 0x04
  else if ¬ j.array ∧ inBits ≠ 0 ∧ (inBits % 8 ≠ 0 ∨ gdWing j.src (inBits / 8) = none) then some 0x05
  else if outBits ≠ 0 ∧ (outBits % 8 ≠ 0 ∨ winLen e = 0 ∨ ¬ e.testBit 117 ∨ e.testBit 116 ≠ u.system ∨
      (¬ u.system ∧ bits e 115 107 ≠ u.tenant) ∨ winLen e < j.roff + outBits / 8 + 32) then some 0x06
  else if q < depth + 1 ∨ 3072 < q ∨ (j.array ∧ q < depth + inChunks) ∨ 12288 < q * j.bufSlots then some 0x07
  else if j.array ∧ raw = 7 ∧ j.count ≠ 0 then some 0x08
  else none

/-- COL_HEAD_CHECK (R260): the group entry and its members are read; a descriptor that may launch asks for its entry. -/
def execColHeadCheck (s : State) : Host.Outcome State Fault Refusal :=
  match s.dev.col.queue, s.dev.col.checked || (s.dev.rd (rkey 0x030 0x010)).testBit 1 with
  | j :: _, false =>
    let r := s.dev.grpReads
    let s := { s with dev := r.2 }
    let g := grp s.dev j.group
    let u := colUser s.dev
    if ¬ r.1 ∨ ¬ g.valid ∨ g.system ≠ u.system ∨ g.tenant ≠ u.tenant then
      done (colEndDesc (s.onDev (fun d => d.colPop)) j GROUP_INVALID 0 none false false)
    else
      doneDev s (fun d =>
        let wait := lowestFree d = none
        let d := if wait then d.optWait 1000 else d
        { d with col := { d.col with checked := true, detail := colDetail d j g, waited := wait } })
  | _, _ => done s

/-- COL_ENTRY_TAKEN (R262 step 1): a launch that finds none free waits and is counted once (R296). The entry of a refused descriptor
reads its failure. -/
def execColEntryTaken (s : State) : Host.Outcome State Fault Refusal :=
  doneDev s (fun d =>
    match d.col.queue, d.col.checked && d.col.entry.isNone with
    | j :: _, true =>
      let g := grp d j.group
      let total := if d.col.detail.isSome then 0 else j.nch * j.trees g.count
      (match d.optTake 4 1000 0 0 total j.group 0 with
        | some (i, d) =>
          { d.setOpt i { optEntry d i with status := if d.col.detail.isSome then COL_INVALID else OK } with
            col := { d.col with entry := some i } }
        | none => if d.col.waited then d else { d.optWait 1000 with col := { d.col with waited := true } })
    | _, _ => d)

/-- The keys whose input the array hands over: their buffers are taken at launch (R286). -/
def ColPart.takeAll (x : ColPart) (g : Grp) : List Nat → ColPart
  | [] => x
  | q :: qs =>
    (if ¬ x.hasInput g q then x
      else if x.lends g q then x.setChunk q { ColChunk.empty with lend := 1 }
      else x.setChunk q { ColChunk.empty with own := true }).takeAll g qs

/-- What an OPEN from a control child tells (R278). -/
def ColPart.takeOpen (x : ColPart) (g : Grp) (u : MemUser) (p : Packet) : ColPart :=
  let b := p.payload
  let lo := field b 8 2
  let m := x.ctlMember g lo
  let arg2 := field b 28 4
  let bad := slice b 32 32 ≠ x.signature g u ∨ (field b 14 1).testBit 1
  let cands := x.differ.toList ++ (if bad then [m] else []) ++ (if arg2 = 0xFFFF then [] else [arg2])
  { x with
    opens := if x.opens.contains lo then x.opens else x.opens ++ [lo]
    differ := cands.min? }

/-- Some OPENs are taken and answered by a CREDIT (R279). -/
def Adv.takeOpens (a : Adv) (g : Grp) : List Packet → Adv
  | [] => a
  | p :: ps =>
    let lo := field p.payload 8 2
    let a := { a with x := a.x.takeOpen g (colUser a.d) p }
    Adv.takeOpens (a.credit g (a.x.ctlMember g lo) 0xFFFFFFFF lo) g ps

/-- COL_QUOTA_RESERVED: the launch (R262 steps 2-5). A refused descriptor reserves no buffer. -/
def execColQuotaReserved (s : State) : Host.Outcome State Fault Refusal :=
  match s.dev.col.queue, s.dev.col.entry with
  | j :: _, some i =>
    let detail := s.dev.col.detail
    let q := colQuota s.dev j
    let slots := if detail.isSome then 0 else q * j.bufSlots
    if panFree s.dev < slots ∨ gdWaits s.dev (colUser s.dev) (j.addr + 52) 4 then done s
    else
      let g := grp s.dev j.group
      let cseq := g.nextSeq
      let u := colUser s.dev
      let w := gdWrite s u (j.addr + 52) (leBytes 4 (2 ^ 31 + opidOf s.dev i))
      let s := w.2.onDev (fun d =>
        let d := if w.1 ≠ OK then d.raise 0x030 1 else d
        let d := (d.colPop.setGrp j.group { g with nextSeq := (cseq + 1) % 2 ^ 16 }).setOpt i
          { optEntry d i with cseq := cseq, state := 1, channel := cseq % 256 }
        let x : ColPart := ⟨j, i, detail, cseq, q, slots, [], if detail.isSome then some g.self else none, false, false, 0,
          false, false, [], [], 0, 0, false, false⟩
        let x := if j.array ∧ detail = none then x.takeAll g (upFrom 0 (x.total g)) else x
        let mine (p : Packet) : Bool := colGroupOf p == j.group && colCseqOf p == cseq
        let hs := d.col.held.filter (fun p => mine p && p.tenant == u.tenant && p.system == u.system)
        let d : Dev := { d with col := { d.col with
          parts := d.col.parts ++ [x], held := d.col.held.filter (fun p => !mine p) } }
        let d := d.wr Reg.PAN_SLOTS_LOW (min (d.rd Reg.PAN_SLOTS_LOW) (panFree d))
        let a := (⟨d, x, none⟩ : Adv).takeOpens g hs
        a.d.setPart a.x)
      done (colRun s i)
  | _, _ => done s

/-! ## Packets (R272-R274, R278-R283) -/

/-- The live participation that a collective packet names (R273). -/
def colMatch (d : Dev) (p : Packet) : Option ColPart :=
  let u := colUser d
  if p.tenant = u.tenant ∧ p.system = u.system then
    d.col.parts.find? (fun x => x.job.group == colGroupOf p && x.cseq == colCseqOf p)
  else none

/-- The member that sent a packet. -/
def senderOf (d : Dev) (g : Grp) (p : Packet) : Option Nat := indexIn p.src (grpMas d g.first g.count)

/-- The next collective packet of a kind: the one a command names, else the oldest that waits. -/
def Dev.takeChunk (d : Dev) (kind : Nat) (o : Option Packet) : Option (Packet × Dev) :=
  match o with
  | some p => some (p, d)
  | none =>
    d.fromSink (fun p => p.ptype == (if kind = 6 then ptResult else ptContrib) && colKindOf p == kind)

/-- What a packet does to the live participation it names, whose entry is read (R273, R297): one that names none is discarded and
counted, and one for an uncorrectable entry does nothing. -/
def colTake (s : State) (p : Packet) (f : ColPart → State → State) : State :=
  match if badKind p then none else colMatch s.dev p with
  | none => s.onDev (fun d => d.colStale)
  | some x =>
    let r := s.dev.optRead x.entry
    if r.1 then f x { s with dev := r.2 } else { s with dev := r.2 }

/-- The oldest participation of a group that awaits the OPEN of a packet's sender: a control child that has not opened it. -/
def awaitsOpen (d : Dev) (g : Grp) (p : Packet) : Option ColPart :=
  let lo := field p.payload 8 2
  let m := (senderOf d g p).getD g.count
  d.col.parts.find? (fun x =>
    x.job.group == colGroupOf p && !x.go && (treeKids g.count (x.ctl g)).contains lo && x.ctlMember g lo == m && !x.opens.contains lo)

/-- The CSEQs of a participation and of an OPEN differ, so that one of the two members never launched an aborted collective (R284): the
OPEN is answered MISMATCH, and the participation has met a member that differs (log entry 214). -/
def openLag (s : State) (g : Grp) (p : Packet) (x : ColPart) : State :=
  let u := colUser s.dev
  let m := (senderOf s.dev g p).getD g.count
  let v := subHeader (colGroupOf p) 2 (colCseqOf p) 0 (x.job.treeLo g) 0 0 0 1 0 (MISMATCH * 2 ^ 24 + m % 2 ^ 15) 0
  let d := s.dev.offer ⟨ptContrib, 1, false, false, false, p.src, 0, 0, u.tenant, u.system, 0, colCseqOf p % 256, 0,
    opidOf s.dev x.entry, x.seq, v⟩
  let x := { x with
    seq := (x.seq + 1) % 2 ^ 16
    opens := x.opens ++ [field p.payload 8 2]
    differ := (x.differ.toList ++ [m]).min? }
  colRun { s with dev := d.setPart x } x.entry

/-- An OPEN whose CSEQ this member has launched and ended, from a control child that had not opened that participation: the child
lags (R284). -/
def lateOpen (s : State) (p : Packet) : State :=
  let d := s.dev
  let g := grp d (colGroupOf p)
  let u := colUser d
  let k := colGroupOf p * 2 ^ 16 + colCseqOf p
  match if (SMap.get (fun _ => []) d.col.opened k).contains (field p.payload 8 2) ∨
      ¬ (g.valid ∧ p.tenant = u.tenant ∧ p.system = u.system) then none else awaitsOpen d g p with
  | none => s.onDev (fun d => d.colStale)
  | some x => openLag s g p x

/-- OPEN. One for a CSEQ not yet launched is held, up to 1,024 of them (R279); one that is sent again while an earlier participation
still awaits its sender shows that this member lags (R284, log entry 214). -/
def takeOpenPacket (s : State) (p : Packet) : State :=
  let d := s.dev
  let g := grp d (colGroupOf p)
  let same (q : Packet) : Bool := colGroupOf q == colGroupOf p && colCseqOf q == colCseqOf p && q.src == p.src
  let u := colUser d
  let live := d.col.parts.any (fun x => x.job.group == colGroupOf p && x.cseq == colCseqOf p)
  if live ∨ badKind p then
    colTake s p (fun x s =>
      let a := (⟨s.dev, x, none⟩ : Adv).takeOpens (grp s.dev x.job.group) [p]
      colRun { s with dev := a.d.setPart a.x } x.entry)
  else if ¬ ((colCseqOf p + 2 ^ 16 - g.nextSeq) % 2 ^ 16 < 2 ^ 15) then lateOpen s p
  else if g.valid ∧ ¬ (p.tenant = u.tenant ∧ p.system = u.system) then { s with dev := d.colStale }
  else
    let others := d.col.held.filter (fun q => !same q)
    let keep (q : List Packet) : State := { s with dev := { d with col := { d.col with held := q } } }
    match if d.col.held.any same then awaitsOpen d g p else none with
    | some x => openLag (keep others) g p x
    | none =>
      if 1024 ≤ others.length then { s with dev := (d.count Reg.COL_OPEN_DROP_COUNT).raise 0x030 8 } else keep (others ++ [p])

/-- A collective packet of a kind is taken, when there is one. -/
def onChunk (kind : Nat) (o : Option Packet) (f : State → Packet → State) (s : State) : Host.Outcome State Fault Refusal :=
  match s.dev.takeChunk kind o with
  | some (p, d) => done (f { s with dev := d } p)
  | none => done s

/-- OPEN. -/
def execOpenChunk (o : Option Packet) (s : State) : Host.Outcome State Fault Refusal := onChunk 1 o takeOpenPacket s

/-- A verdict for a participation (R280). -/
def takeVerdict (s : State) (p : Packet) : State :=
  colTake s p (fun x s =>
    let g := grp s.dev x.job.group
    let arg := field p.payload 24 4
    let a := (⟨s.dev, x, none⟩ : Adv).verdict g (bits arg 31 24) (bits arg 14 0)
    let s := { s with dev := a.d.setPart a.x }
    match a.stop with
    | some (_, st, cause) => colFinish s a.x st (some cause)
    | none => colRun s x.entry)

/-- VERDICT. -/
def execVerdictChunk (o : Option Packet) (s : State) : Host.Outcome State Fault Refusal := onChunk 2 o takeVerdict s

/-- An ABORT (R282); a member whose participation has ended without one passes it on (R283). -/
def takeAbort (s : State) (p : Packet) : State :=
  let d := s.dev
  let g := grp d (colGroupOf p)
  let arg := field p.payload 24 4
  let rot := SMap.get (fun _ => 0) d.col.ended (colGroupOf p * 2 ^ 16 + colCseqOf p)
  if (colMatch d p).isNone ∧ rot ≠ 0 ∧ ¬ badKind p then
    let dests := ctlNeighbours g (rot % 2 ^ 16 - 1) (senderOf d g p)
    let on := { p with payload := if 2 ^ 16 ≤ rot then p.payload.take 8 ++ leBytes 2 g.self ++ p.payload.drop 10 else p.payload }
    { s with dev := (dests.foldl (fun d m => d.offer { on with dest := memberMa d g m }) d).colStale }
  else colTake s p (fun x s => colAbort s x (bits arg 31 24) (bits arg 14 0) (senderOf s.dev g p))

/-- ABORT. -/
def execAbortChunk (o : Option Packet) (s : State) : Host.Outcome State Fault Refusal := onChunk 3 o takeAbort s

/-- The tree of a chunk packet's header: from the sender's or this member's logical index (R265, R272). -/
def treeOf (x : ColPart) (g : Grp) (member l : Nat) : Nat :=
  match x.job.coll with
  | 2 | 3 => (member + g.count - l % g.count) % g.count
  | _ => 0

/-- The tree in which member `node` holds the node of index `index` (R265). -/
def lentTree (x : ColPart) (g : Grp) (node index : Nat) : Nat :=
  if x.job.coll = 2 then (node + g.count - index % g.count) % g.count else 0

/-- A CREDIT for a chunk is taken (R276): a child's for a result, the parent's, or, with HI = LO, that of the member which holds the
node of this member's index. -/
def ColPart.takeCredit (x : ColPart) (g : Grp) (m arg arg2 : Nat) (input : Bool) : ColPart :=
  let t := if x.job.coll = 6 then m else if input then lentTree x g m g.self else treeOf x g g.self arg2
  let q := arg * x.job.trees g.count + t
  if x.job.nch ≤ arg then x
  else if input then
    (if x.lends g q ∧ m = memberAt g (x.rotOf g q) g.self ∧ ¬ (x.chunk q).ended then
      x.setChunk q { x.chunk q with lendCredit := true } else x)
  else
    let c := x.chunk q
    let r := x.rotOf g q
    let p := logicalOf g r g.self
    if c.ended then x
    else if x.job.coll = 6 ∨ (p ≠ 0 ∧ m = memberAt g r (treeParent p)) then x.setChunk q { c with upCredit := true }
    else x.setChunk q { c with credits := c.credits ++ [logicalOf g r m] }

/-- A CREDIT: one whose CHUNK_NO is 0xFFFF_FFFF answers the OPEN (R279), any other is a chunk's. -/
def takeCreditPacket (s : State) (p : Packet) : State :=
  colTake s p (fun x s =>
    let g := grp s.dev x.job.group
    let b := p.payload
    if field b 4 4 = 0xFFFFFFFF then
      s.onDev (fun d => (d.acknowledged (x.cseq % 256) x.openOut).setPart { x with answered := true, openOut := 0 })
    else match senderOf s.dev g p with
    | none => s.onDev (fun d => d.colStale)
    | some m =>
      let input : Bool := field b 8 2 == field b 10 2 && x.job.up
      colRun (s.onDev (fun d => d.setPart (x.takeCredit g m (field b 24 4) (field b 28 4) input))) x.entry)

/-- CREDIT. -/
def execCreditChunk (o : Option Packet) (s : State) : Host.Outcome State Fault Refusal := onChunk 4 o takeCreditPacket s

/-- A chunk packet joins those of its sender: the packets gathered, and the chunk when it is whole. -/
def ColRx.take (r : ColRx) (p : Packet) : ColRx :=
  let b := p.payload
  ⟨SMap.put (fun _ => []) r.pkts (field b 12 2) (b.drop 32), field b 16 8, field b 15 1⟩

/-- The CRC of a complete chunk is checked (R275, R297): false on a mismatch. -/
def Dev.chunkCrc (d : Dev) (data : List Byte) (crc : Nat) : Bool × Dev :=
  let inj := d.armed 0x030 2
  let d := if inj then d.disarm 0x030 2 else d
  if crc64 data = crc ∧ ¬ inj then (true, d) else (false, (d.count Reg.COL_CRC_COUNT).raise 0x030 2)

/-- A packet of a chunk has arrived for key `q` from the sender with logical index `l`; `put` takes the whole chunk. -/
def gatherChunk (s : State) (x : ColPart) (g : Grp) (q l : Nat) (p : Packet) (put : ColChunk → List Byte → ColChunk) : State :=
  let c := x.chunk q
  let r := (SMap.get (fun _ => (⟨[], 0, 0⟩ : ColRx)) c.rx l).take p
  if r.pkts.length < r.need then
    { s with dev := s.dev.setPart (x.setChunk q { c with rx := SMap.put (fun _ => ⟨[], 0, 0⟩) c.rx l r }) }
  else
    let data := (r.pkts.map (·.2)).flatten
    let k := s.dev.chunkCrc data r.crc
    let s := { s with dev := k.2 }
    let x := x.setChunk q { c with rx := SMap.put (fun _ => ⟨[], 0, 0⟩) c.rx l ⟨[], 0, 0⟩ }
    if ¬ k.1 then colAbort s x CRC_FAIL g.self none
    else colRun { s with dev := s.dev.setPart (x.setChunk q (put (x.chunk q) data)) } x.entry

/-- A packet of DATA: of a partial from a child that holds a credit for it, or of the input of this member's node. -/
def takeData (s : State) (p : Packet) : State :=
  colTake s p (fun x s =>
    let g := grp s.dev x.job.group
    let lo := field p.payload 8 2
    let cno := field p.payload 4 4
    let input : Bool := field p.payload 10 2 == lo
    match senderOf s.dev g p with
    | none => s.onDev (fun d => d.colStale)
    | some m =>
      let q := cno * x.job.trees g.count + (if input then lentTree x g g.self lo else treeOf x g m lo)
      let c := x.chunk q
      if ¬ x.job.up ∨ x.job.nch ≤ cno ∨ c.ended then s.onDev (fun d => d.colStale)
      else if input then
        (if x.lends g q ∧ c.inAsked ∧ c.data.isNone ∧ ¬ c.sent ∧ ¬ c.closed ∧ m = lo ∧ lo = logicalOf g (x.rotOf g q) g.self then
          gatherChunk s x g q lo p (fun c data => { c with data := some data })
        else s.onDev (fun d => d.colStale))
      else if ¬ c.granted.contains lo ∨ (c.granted.take c.got).contains lo ∨ (SMap.get (fun _ => none) c.parts lo).isSome then
        s.onDev (fun d => d.colStale)
      else gatherChunk s x g q lo p (fun c data => { c with parts := SMap.put (fun _ => none) c.parts lo (some data) }))

/-- DATA. -/
def execDataChunk (o : Option Packet) (s : State) : Host.Outcome State Fault Refusal := onChunk 5 o takeData s

/-- A packet of a RESULT: checked through the window (R273), taken as GO (R280), gathered, then written and sent on. -/
def takeResult (s : State) (p : Packet) : State :=
  colTake s p (fun x s =>
    let d := s.dev
    let g := grp d x.job.group
    let lo := field p.payload 8 2
    let cno := field p.payload 4 4
    let st := windowCheck d p.window p.tenant p.system 117 p.offset p.length
    if st ≠ OK then colAbort s x st g.self none
    else
      let a : Adv := if x.go then ⟨d, x, none⟩ else (⟨d, x, none⟩ : Adv).verdict g OK 0
      let x := a.x
      let s := { s with dev := a.d.setPart x }
      let q := if x.job.coll = 6 then x.total g + cno * g.count + lo % g.count
        else cno * x.job.trees g.count + treeOf x g g.self lo
      let c := x.chunk q
      if x.job.nch ≤ cno ∨ c.ended ∨ c.final ∨ ¬ c.asked then s.onDev (fun d => d.colStale)
      else gatherChunk s x g q 0xFFFF p (fun c data => { c with data := some data, final := true }))

/-- RESULT. -/
def execResultChunk (o : Option Packet) (s : State) : Host.Outcome State Fault Refusal := onChunk 6 o takeResult s

/-! ## Memory (R254, R263) -/

/-- The lowest key of a participation that a test names. -/
def ColPart.lowest (x : ColPart) (p : Nat → ColChunk → Bool) : Option Nat := (x.chunks.find? (fun e => p e.1 e.2)).map (·.1)

/-- A chunk awaits its input. -/
def ColPart.awaitsInput (x : ColPart) (g : Grp) (q : Nat) (c : ColChunk) : Bool :=
  if x.lends g q then c.lend == 1 && c.mine.isNone else c.own && c.data.isNone && !c.sent && !c.ended && !c.final && x.hasInput g q

/-- This member's input of a chunk has come. -/
def ColPart.putInput (x : ColPart) (g : Grp) (q : Nat) (bs : List Byte) : ColPart :=
  let data := if x.job.up then colEnter x.job.exact x.job.ty bs else bs
  let c := x.chunk q
  x.setChunk q (if x.lends g q then { c with mine := some data } else { c with data := some data })

/-- The input bytes of a chunk: free where a segment does not begin at a whole byte. -/
def inputBytes (s : State) (x : ColPart) (t c : Nat) : Nat × List Byte × Dev :=
  let j := x.job
  let segd := j.coll = 2 ∨ j.coll = 6
  let off := if segd then t * (j.count * colBits j.ty) / 8 else 0
  let a := j.src + off + c * j.chunkBytes
  let n := j.chunkLen c
  let r := gdRead s.dev (colUser s.dev) a n
  if segd ∧ j.count * colBits j.ty % 8 ≠ 0 then (r.1, (upFrom 0 n).map (freeByte r.2.free), r.2.used)
  else (r.1, s.mem.bytes a n, r.2)

/-- Where a chunk's input stands (R254). -/
def ColPart.inputAt (x : ColPart) (g : Grp) (q : Nat) : Nat :=
  let off := if x.job.coll = 2 ∨ x.job.coll = 6 then x.tree g q * (x.job.count * colBits x.job.ty) / 8 else 0
  x.job.src + off + x.cno g q * x.job.chunkBytes

/-- COL_INPUT_READ_DONE: the lowest chunk that awaits its input has been read; nothing is while its memory does not answer (R38,
R133). -/
def execColInputReadDone (i : BitVec 12) (s : State) : Host.Outcome State Fault Refusal :=
  match partAt s.dev i.toNat with
  | none => done s
  | some x =>
    let g := grp s.dev x.job.group
    match if x.job.array then none else x.lowest (x.awaitsInput g) with
    | none => done s
    | some q =>
      if gdWaits s.dev (colUser s.dev) (x.inputAt g q) (x.job.chunkLen (x.cno g q)) then done s else
      let r := inputBytes s x (x.tree g q) (x.cno g q)
      let s := { s with dev := r.2.2 }
      if r.1 ≠ OK then done (colAbort s x r.1 g.self none)
      else done (colRun (s.onDev (fun d => d.setPart (x.putInput g q r.2.1))) i.toNat)

/-- COL_RESULT_WRITE_ACK: the lowest chunk issued is read from the store, and its write takes effect and is acknowledged. -/
def execColResultWriteAck (i : BitVec 12) (s : State) : Host.Outcome State Fault Refusal :=
  match partAt s.dev i.toNat with
  | none => done s
  | some x =>
    let g := grp s.dev x.job.group
    match x.lowest (fun _ c => c.wrote == 1) with
    | none => done s
    | some q =>
      let u := colUser s.dev
      let data := (x.chunk q).data.getD []
      let off := x.job.resOff (x.tree g q) (x.cno g q)
      if gdWaits s.dev (windowUser s.dev 9 x.job.rwin) (windowAddr s.dev x.job.rwin off) data.length then done s else
      let rd := s.dev.panReads data.length
      let s := { s with dev := rd.2 }
      if ¬ rd.1 then done (colAbort s x PANTRY_UE g.self none) else
      let st := windowCheck s.dev x.job.rwin u.tenant u.system 117 off data.length
      let w := if st ≠ OK then (st, s)
        else gdWrite s (windowUser s.dev 9 x.job.rwin) (windowAddr s.dev x.job.rwin off) data
      if w.1 ≠ OK then done (colAbort w.2 x w.1 g.self none)
      else done (colRun (w.2.onDev (fun d => d.setPart (x.setChunk q { x.chunk q with wrote := 2 }))) i.toNat)

/-! ## Array input (R286, R287) -/

/-- The codes of the elements of a chunk when the array has handed over all of them, packed into the chunk's bytes. -/
def ColPart.assembled (x : ColPart) (g : Grp) (q : Nat) : Option (List Byte) :=
  let j := x.job
  let b := colBits j.ty
  let c := x.cno g q
  let lo := c * j.chunkBytes * 8
  let hi := min (lo + j.chunkLen c * 8) (j.count * b)
  let e0 := lo / b
  let e1 := (hi + b - 1) / b
  let base := (if j.coll = 2 ∨ j.coll = 6 then x.tree g q else 0) * j.count
  let got := (upFrom (base + e0) (e1 - e0)).map (SMap.get (fun _ => 0) x.asm)
  if got.any (· == 0) then none
  else some (leBytes (j.chunkLen c) (packNat b (got.map (· - 1)) >>> (lo - e0 * b)))

/-- Chunks whose elements have all arrived take their data. -/
def ColPart.assemble (x : ColPart) (g : Grp) : List Nat → ColPart
  | [] => x
  | q :: qs =>
    let c := x.chunk q
    let x := if x.awaitsInput g q c then
        match x.assembled g q with
        | some bs => x.putInput g q bs
        | none => x
      else x
    x.assemble g qs

/-- The elements that runs name. -/
def runElems (runs : List (Nat × List Nat)) : List (Nat × Nat) :=
  (runs.map (fun r => (upFrom r.1 r.2.length).zip r.2)).flatten

/-- ARRAY_HANDOVER: the array's oldest block for a collective (R286, R287). -/
def execArrayHandover (s : State) : Host.Outcome State Fault Refusal :=
  match s.dev.arr.exec with
  | none => done s
  | some e =>
    match e.unacked.find? (fun w => match w.what with | .collective _ => true | _ => false) with
    | none => done s
    | some w =>
      let runs := match w.what with | .collective rs => rs | _ => []
      let els := runElems runs
      match (liveEntry s.dev (bits (dw e.op.words 9) 15 0)).bind (partAt s.dev) with
      | none => doneDev s (fun d => d.arrAck w.n COL_REFUSED)
      | some x =>
        let g := grp s.dev x.job.group
        if e.op.d.oscaled ∨ els.any (fun p => decide (x.arrayElems g ≤ p.1)) then
          doneDev s (fun d => d.arrAck w.n COL_REFUSED)
        else
          let fresh := (els.filter (fun p => SMap.get (fun _ => 0) x.asm p.1 == 0)).length
          let x := { x with
            asm := els.foldl (fun m (p : Nat × Nat) => SMap.put (fun _ => 0) m p.1 (p.2 + 1)) x.asm
            handed := x.handed + fresh }
          let x := x.assemble g (upFrom 0 (x.total g))
          done (colRun (s.onDev (fun d => (d.setPart x).arrAck w.n OK)) x.entry)

/-- ABANDONMENT_NOTICE: the oldest notice reaches the engine (R127, R287). -/
def execAbandonmentNotice (s : State) : Host.Outcome State Fault Refusal :=
  match s.dev.arr.notices with
  | [] => done s
  | (opid, st) :: rest =>
    let s := s.onDev (fun d => ({ d with arr := { d.arr with notices := rest } } : Dev).send (.abandon opid st))
    match (liveEntry s.dev opid).bind (partAt s.dev) with
    | some x => done (colAbort s x st (grp s.dev x.job.group).self none)
    | none => done s

/-! ## Timers and control (R279, R281, R292) -/

/-- COL_OPEN_RESEND. -/
def execColOpenResend (i : BitVec 12) (s : State) : Host.Outcome State Fault Refusal :=
  doneDev s (fun d =>
    match partAt d i.toNat with
    | none => d
    | some x =>
      let g := grp d x.job.group
      if x.opened ∧ ¬ x.answered ∧ x.ctl g ≠ 0 then
        let a := (⟨d, x, none⟩ : Adv).sendOpen g
        a.d.setPart a.x
      else d)

/-- COL_JOIN_TIMEOUT: no verdict has come. CAUSE is the lowest control child that has not opened, else the control
parent. -/
def execColJoinTimeout (i : BitVec 12) (s : State) : Host.Outcome State Fault Refusal :=
  match partAt s.dev i.toNat with
  | none => done s
  | some x =>
    if x.go then done s
    else
      let g := grp s.dev x.job.group
      let p := x.ctl g
      let l := ((treeKids g.count p).find? (fun l => !x.opens.contains l)).getD (treeParent p)
      done (colAbort (s.onDev (fun d => d.raise 0x030 5)) x TIMEOUT (x.ctlMember g l) none)

/-- The member that a chunk awaits. -/
def ColPart.awaited (x : ColPart) (g : Grp) (q : Nat) : Option Nat :=
  let c := x.chunk q
  let r := x.rotOf g q
  let p := logicalOf g r g.self
  let ks := treeKids g.count p
  if c.ended then none
  else if c.lend = 1 ∧ c.mine.isSome ∧ ¬ c.lendCredit then some (memberAt g r g.self)
  else if ¬ c.own then none
  else if x.lends g q ∧ c.inAsked ∧ c.data.isNone ∧ ¬ c.sent ∧ ¬ c.final then some p
  else if x.job.coll = 6 then (if x.tree g q = g.self ∨ c.final then none else some (x.tree g q))
  else if x.job.up ∧ ¬ c.sent ∧ ¬ c.final then
    (match (ks.drop c.got).find? (fun l => c.granted.contains l && (SMap.get (fun _ => none) c.parts l).isNone) with
      | some l => some (memberAt g r l)
      | none => if p ≠ 0 ∧ c.got = ks.length ∧ c.data.isSome ∧ ¬ c.upCredit then some (memberAt g r (treeParent p)) else none)
  else if ¬ c.final then (if p ≠ 0 ∧ c.asked then some (memberAt g r (treeParent p)) else none)
  else if x.job.downs then (ks.reverse.find? (fun l => !c.down.contains l)).map (memberAt g r)
  else none

/-- COL_PROGRESS_TIMEOUT: the lowest chunk that awaits another member. -/
def execColProgressTimeout (i : BitVec 12) (s : State) : Host.Outcome State Fault Refusal :=
  match partAt s.dev i.toNat with
  | none => done s
  | some x =>
    let g := grp s.dev x.job.group
    match if x.go then (if (optEntry s.dev i.toNat).bad then some g.self else x.chunks.findSome? (fun e => x.awaited g e.1)) else none with
    | some m => done (colAbort (s.onDev (fun d => d.raise 0x030 6)) x TIMEOUT m none)
    | none => done s

/-- Some participations abort with ABORTED. -/
def flushParts : Nat → State → State
  | 0, s => s
  | n + 1, s =>
    match s.dev.col.parts with
    | [] => s
    | x :: _ => flushParts n (colAbort s x ABORTED (grp s.dev x.job.group).self none)

/-- Queued descriptors end with ABORTED. -/
def flushQueue : List ColJob → State → State
  | [], s => s
  | j :: js, s => flushQueue js (colEndDesc s j ABORTED 0 none false false)

/-- The effect of a write of COL_CTRL. -/
def colCtrlEffect (master v : Nat) (s : State) : Nat × State :=
  let r := plainEffect master (rkey 0x030 0x010) v s
  if v.testBit 0 then
    let q := r.2.dev.col.queue
    let s := r.2.onDev (fun d =>
      let d := match d.col.entry with | some i => d.setOpt i OptEntry.free | none => d
      { d.colPop with col := { d.colPop.col with queue := [] } })
    (OK, flushParts s.dev.col.parts.length (flushQueue q s))
  else r

/-- COL_FLUSH, with the HOLD bit of the value written. -/
def execColFlush (master : Byte) (hold : Bool) (s : State) : Host.Outcome State Fault Refusal :=
  let v := 1 + 2 * b2n hold
  done (mgmtWrite master.toNat (mAddr (rkey 0x030 0x010)) 32 v (colCtrlEffect master.toNat v) s)

/-- COL_HOLD. -/
def execColHold (master : Byte) (hold : Bool) (s : State) : Host.Outcome State Fault Refusal :=
  let v := 2 * b2n hold
  done (mgmtWrite master.toNat (mAddr (rkey 0x030 0x010)) 32 v (colCtrlEffect master.toNat v) s)

/-- The effect of a write of COL_TENANT (R292). -/
def colTenantEffect (master v : Nat) (s : State) : Nat × State :=
  if s.dev.col.queue ≠ [] ∨ s.dev.col.parts ≠ [] then (OUT_OF_RANGE, s)
  else plainEffect master Reg.COL_TENANT v s

/-- COL_TENANT_WRITE. -/
def execColTenantWrite (master : Byte) (value : Word) (s : State) : Host.Outcome State Fault Refusal :=
  done (mgmtWrite master.toNat (mAddr Reg.COL_TENANT) 32 value.toNat (colTenantEffect master.toNat value.toNat) s)

/-- COL_STATUS.STATE (R292): 0 IDLE, 1 LAUNCHING, 2 HELD, 3 WAIT_ENTRY, 4 WAIT_QUOTA. -/
def colState (d : Dev) : Nat :=
  match d.col.queue with
  | [] => 0
  | j :: _ =>
    if ¬ d.col.checked then (if (d.rd (rkey 0x030 0x010)).testBit 1 then 2 else 1)
    else match d.col.entry with
    | none => if d.col.waited then 3 else 1
    | some _ => if d.col.detail = none ∧ panFree d < colQuota d j * j.bufSlots then 4 else 1

end Sys2Proof.Machine
end

