-- ==== Sys2Proof/Machine/Security.lean ====
section
/-! DEFINITION. Life cycle (R416-R418), reports and measurements (R422-R425), key delivery (R426-R428, R430), sealed weights
(R429, R431) and debug (R437-R440). What the algorithms decide (a signature, a tag, a decrypted payload) comes with the
command; everything else is computed from the bytes. -/

namespace Sys2Proof.Machine

/-! ## Reports (R423, R424) -/

/-- A value of several registers that follow each other, and `n` registers set from one. -/
def Dev.rdWide (d : Dev) (key n : Nat) : Nat := sumList ((upFrom 0 n).map (fun i => d.rd (key + 4 * i) * 2 ^ (32 * i)))
def Dev.wrWide (d : Dev) (key n v : Nat) : Dev := (upFrom 0 n).foldl (fun d i => d.wr (key + 4 * i) (v / 2 ^ (32 * i))) d

/-- Tiles enabled in the floor plan record. -/
def tilesEnabled (d : Dev) : Nat := ((upFrom 0 512).filter (tileEnabled d)).length

/-- The bound tenant's session key is loaded. -/
def boundKey (d : Dev) : Bool :=
  let b := d.rd Reg.SEC_BINDING
  b.testBit 15 && (sessKey d (bits b 8 0)).isSome

/-- Bytes 0-2,079 of a report (R424). -/
def reportBody (d : Dev) (nonce : Nat) : List Byte :=
  let plan := d.agt.plan
  [0x4C, 0x4E, 0x41, 0x52] ++ leBytes 2 1 ++ leBytes 1 (lcWord d) ++ leBytes 1 (dbgMode d) ++ leBytes 8 Config.serial ++
    leBytes 32 nonce ++ leBytes 8 d.clk.cal ++ leBytes 1 (powerState d) ++
    leBytes 1 (b2n (msecRequired d) + 2 * b2n (d.rd Reg.PTP_STATE == ptpLocked) + 4 * b2n (boundKey d) + 8 * b2n (scrubbing d)) ++
    leBytes 2 (tilesEnabled d) ++ leBytes 2 (d.rd Reg.SEC_BINDING) ++ leBytes 2 Config.romVersion ++ leBytes 32 (ownerIdOf d) ++
    leBytes 8 d.bel.extensionVer ++ leBytes 8 d.bel.parlourVer ++ leBytes 8 ((plan.map (·.id)).getD 0) ++
    leBytes 4 (d.rd Reg.RTB_LIVE_EPOCH) ++ leBytes 4 (d.rd Reg.AGT_TERM) ++ leBytes 64 (d.bel.extension.getD 0) ++
    leBytes 64 (d.bel.parlour.getD 0) ++ leBytes 64 ((plan.map (·.digest)).getD 0) ++ leBytes 64 (d.rdWide Reg.ATT_M_PROG0 16) ++
    leBytes 64 (d.rdWide Reg.ATT_M_WEIGHT0 16) ++ leBytes 4 (d.rd Reg.ATT_UNSEALS) ++ leBytes 60 0 ++
    leBytes 1568 (Config.akemPublic (seedOf d) d.sec.akem)

/-- A report is formed and signed; its signature is a free value. It joins the last 16 (R423). -/
def Dev.formReport (d : Dev) (nonce : Nat) : AttReport × Dev :=
  let r : AttReport := ⟨nonce, reportBody d nonce ++ leBytes 3309 d.fresh, false⟩
  let d := (d.used.count Reg.ATT_REPORT_COUNT)
  (r, { d with sec := { d.sec with
    reports := (d.sec.reports ++ [r]).drop (d.sec.reports.length + 1 - 16), lastNonce := some d.clk.aon } })

/-- The signature engine refuses to sign for a report: the life cycle or MAKER forbids it (R416, R437). -/
def signStatus (d : Dev) : Nat :=
  if d.sec.lc = lcBlank ∨ d.sec.lc = lcScrap then LC_REFUSED else if dbgMode d = 3 then DEBUG_ACTIVE else OK

/-- The kept report of a NONCE. -/
def keptReport (d : Dev) (nonce : Nat) : Option AttReport := d.sec.reports.find? (fun r => r.nonce == nonce)

/-- Data bytes of a part: 1,024 on UDP, 128 on the fabric (R423, R426). -/
def partBytes (m : TMsg) : Nat := match m.src with | .host _ => 1024 | .client _ => 1024 | _ => 128

/-- A part of a report or chain goes back. -/
def Dev.attPart (d : Dev) (m : TMsg) (part : Nat) (bs : List Byte) : Dev :=
  let n := partBytes m
  if bs.length ≤ part * n then d.reply m BAD_MESSAGE []
  else d.reply m OK (leBytes 4 bs.length ++ leBytes 2 part ++ [0, 0] ++ (bs.drop (part * n)).take n)

/-- A new NONCE comes within 100 us of the last one accepted (R423). -/
def nonceSoon (d : Dev) : Bool := match d.sec.lastNonce with | some t => decide (d.clk.aon < t + 10000) | none => false

/-- ATT_REQUEST: `signs` says that the signature is formed within 60 us. A signature that is not has no status in the spec. -/
def execAttRequest (o : Option TMsg) (signs : Bool) (s : State) : Host.Outcome State Fault Refusal :=
  onReqDev famAtt 1 o (fun m d =>
    let nonce := field m.body 0 32
    let kind := field m.body 32 1
    let part := field m.body 34 2
    if m.body.length ≠ 36 ∨ 1 < kind ∨ field m.body 33 1 ≠ 0 then d.reply m BAD_MESSAGE []
    else if d.sec.lc = lcBlank ∨ d.sec.lc = lcScrap then d.reply m LC_REFUSED []
    else if kind = 1 then d.attPart m part (attChain d)
    else match keptReport d nonce with
    | some r => d.attPart m part r.data
    | none =>
      if part ≠ 0 then d.reply m NONCE_STALE []
      else if signStatus d ≠ OK then d.reply m (signStatus d) []
      else if nonceSoon d then d.reply m QUEUE_FULL []
      else if ¬ signs then (d.used.raise 0x05A 0).reply m (1 + d.fresh % 255) []
      else
        let r := d.formReport nonce
        r.2.attPart m 0 r.1.data) s

/-- REPORT_EXPIRY: the oldest kept report is dropped. -/
def execReportExpiry (s : State) : Host.Outcome State Fault Refusal :=
  doneDev s (fun d => { d with sec := { d.sec with reports := d.sec.reports.drop 1 } })

/-- A measurement is extended (R425). -/
def measure (old kind : Nat) (value : List Byte) : Nat :=
  Config.shake256 (leBytes 64 old ++ leBytes 1 kind ++ value) % 2 ^ 512

/-- The request's session is the bound tenant's, or an owner's. -/
def boundSession (d : Dev) (m : TMsg) : Bool :=
  ownerSession d m || (match m.src with
    | .host slot => slotTenant d slot.val == some (bits (d.rd Reg.SEC_BINDING) 8 0)
    | _ => false)

/-- EXTEND. -/
def execAttExtend (o : Option TMsg) (s : State) : Host.Outcome State Fault Refusal :=
  onReqDev famAtt 2 o (fun m d =>
    if m.body.length ≠ 64 then d.reply m BAD_MESSAGE []
    else if ¬ (d.rd Reg.SEC_BINDING).testBit 15 then d.reply m NOT_BOUND []
    else if ¬ boundSession d m then d.reply m ACCESS_DENIED []
    else (d.wrWide Reg.ATT_M_PROG0 16 (measure (d.rdWide Reg.ATT_M_PROG0 16) 1 m.body)).reply m OK []) s

/-! ## Reassembly (R426) -/

/-- A source, whatever the tag of the relay that carried the message. -/
def srcOf : MsgSrc → MsgSrc
  | .relay o p _ => .relay o p 0
  | x => x

/-- A part arrives: its status, the whole package when this part completes it, and the device. -/
def Dev.partIn (d : Dev) (m : TMsg) (token : Bool) : Nat × Option (List Byte) × Dev :=
  let did := field m.body 0 2
  let part := field m.body 2 2
  let parts := field m.body 4 2
  let data := m.body.drop 8
  let n := partBytes m
  let mine (x : Delivery) : Bool := x.src == srcOf m.src && x.did == did && x.token == token
  if m.body.length < 9 ∨ field m.body 6 2 ≠ 0 ∨ parts ≤ part ∨ n < data.length ∨ (part + 1 < parts ∧ data.length ≠ n) ∨
      32768 < (parts - 1) * n + (if part + 1 = parts then data.length else 1) then (BAD_MESSAGE, none, d)
  else
    let x := (d.sec.deliveries.find? mine).getD ⟨srcOf m.src, did, parts, [], token⟩
    if x.parts ≠ parts then (BAD_MESSAGE, none, d)
    else if ¬ d.sec.deliveries.any mine ∧ 4 ≤ d.sec.deliveries.length then (QUEUE_FULL, none, d)
    else
      let old := SMap.get (fun _ => none) x.data part
      let x : Delivery := { x with data := SMap.put (fun _ => none) x.data part (some (old.getD data)) }
      let others := d.sec.deliveries.filter (fun y => !mine y)
      if x.data.length = parts then
        (OK, some ((x.data.map (fun e => e.2.getD [])).flatten), { d with sec := { d.sec with deliveries := others } })
      else (OK, none, { d with sec := { d.sec with deliveries := others ++ [x] } })

/-- DELIVERY_PART_TIMEOUT: a package that waits is discarded. -/
def execDeliveryPartTimeout (i : Fin 4) (s : State) : Host.Outcome State Fault Refusal :=
  doneDev s (fun d => { d with sec := { d.sec with
    deliveries := d.sec.deliveries.take i.val ++ d.sec.deliveries.drop (i.val + 1) } })

/-! ## The delivery checks (R427) -/

/-- The payload's length for a KIND; an LC_TOKEN carries the owner root's key when CHAIN is 0. -/
def payloadBytes (kind chain : Nat) : Option Nat :=
  if kind = 1 then some 100
  else if kind = 2 then some 76
  else if kind = 3 then some 10790
  else if kind = 4 then some 68
  else if kind = 5 then some (if chain = 0 then 1988 else 36)
  else if kind = 6 then some 12
  else none

/-- Where the payload begins, and where the certificates do. -/
def payloadAt (kind : Nat) : Nat := if kind = 5 then 64 else 1632
def certsAt (kind plen : Nat) : Nat := payloadAt kind + plen + (if kind = 5 then 0 else 16)

/-- Check 1: the fields and lengths of a package. -/
def pkgOk (bs : List Byte) : Bool :=
  let kind := field bs 4 1
  let chain := field bs 6 2
  field bs 0 4 == 0x444B4E4C && field bs 5 1 == (if kind = 5 then 0 else 1) && decide (chain ≤ 3) &&
    field bs 8 8 == Config.serial % 2 ^ 64 && field bs 52 12 == 0 &&
    (match payloadBytes kind chain with
    | some n => field bs 48 4 == n && bs.length == certsAt kind n + chain * 5325 + 3309
    | none => false)

/-- The target state of an LC_TOKEN is one that R417 lets the current state reach. -/
def lcAllows (d : Dev) (target gen : Nat) : Bool :=
  let lc := d.sec.lc
  if target = lcVendor then lc == lcBlank
  else if target = lcDeploy then (lc == lcVendor && gen == 0) || (lc == lcReturn && decide (d.sec.gen < 3) && gen == d.sec.gen + 1)
  else if target = lcReturn then lc == lcDeploy
  else target == lcScrap && lc != lcScrap

/-- A transition runs, until the reset of kind M that ends it begins (R418). -/
def transitionRuns (d : Dev) : Bool :=
  d.sec.transition.isSome || d.pwr.due.any (fun r => r.kind == rkModule && r.cause == rcLifeCycle)

/-- Check 2: the life-cycle state allows the KIND. -/
def kindAllowed (d : Dev) (kind : Nat) (pay : List Byte) : Bool :=
  if kind = 3 then d.sec.lc == lcDeploy || d.sec.lc == lcVendor || d.sec.lc == lcReturn
  else if kind = 5 then !transitionRuns d && lcAllows d (field pay 0 1) (field pay 1 1)
  else d.sec.lc == lcDeploy

/-- Check 3: Transit takes no BIND and no weight key (R441). -/
def powerAllowed (d : Dev) (kind : Nat) (pay : List Byte) : Bool :=
  !(powerState d == 2 && (kind == 2 || (kind == 1 && (field pay 2 1).testBit 0)))

/-- Check 4: NONCE names a kept, unused report. In BLANK no report can be formed, and the token needs none. -/
def nonceOk (d : Dev) (nonce : Nat) : Bool :=
  d.sec.lc == lcBlank || d.sec.reports.any (fun r => r.nonce == nonce && !r.used)

/-- The signer's role for a KIND in the current state: none for the owner root itself. -/
def roleFor (d : Dev) (kind : Nat) : Option Nat :=
  if kind = 5 then (if d.sec.lc = lcDeploy then none else some 2)
  else if kind = 3 ∧ d.sec.lc ≠ lcDeploy then some 4
  else some 7

/-- One certificate has a role's form and names its root as issuer, and one of an owner's role the OWNER_ID; a DELIVERY certificate
is not below MIN_GEN (R421). -/
def certOk (d : Dev) (role : Nat) (c : List Byte) : Bool :=
  let owned : Bool := decide (7 ≤ role)
  let root := if owned then ownerIdOf d else Config.voheicRoot
  certForm role c && certIssuer c == root % 2 ^ 64 && (!owned || field c 32 32 == ownerIdOf d) &&
    (role != 7 || decide (((d.sec.config.map (·.minGen)).getD 0) ≤ field c 5 1))

/-- Check 5: the chain; `chain` says that the certificate's own signature verifies. -/
def chainOk (d : Dev) (kind : Nat) (bs pay : List Byte) (chain : Bool) : Bool :=
  match roleFor d kind with
  | none => field bs 6 2 == 0 && Config.shake256 (slice pay 36 1952) % 2 ^ 256 == ownerIdOf d
  | some role => field bs 6 2 == 1 && chain && certOk d role (slice bs (certsAt kind pay.length) 5325)

/-- The weight key with a KEY_ID. -/
def weightKey (d : Dev) (id : Nat) : Option WeightKey := d.sec.weights.find? (fun w => w.id == id)

/-- SET_DIGEST of this module alone (R430). -/
def ownSet : Nat := Config.shake256 (leBytes 8 Config.serial) % 2 ^ 256

/-- Check 7: the conditions of R428 and R430. -/
def ownConditions (d : Dev) (kind : Nat) (pay : List Byte) : Nat :=
  let t := bits (field pay 0 2) 8 0
  let b := d.rd Reg.SEC_BINDING
  if kind = 1 then
    let f := field pay 2 1
    if 2 ≤ dbgMode d then DEBUG_ACTIVE
    else if f.testBit 0 ∧ (b.testBit 15 ∨ scrubbing d) then NOT_BOUND
    else if f.testBit 1 ∧ ¬ f.testBit 0 ∧ ¬ (b.testBit 15 ∧ bits b 8 0 = t) then NOT_BOUND
    else if f.testBit 2 ∧ (celKeyOf d false t).rotating then KEY_BUSY
    else OK
  else if kind = 2 then
    if 2 ≤ dbgMode d then DEBUG_ACTIVE
    else if 1 < field pay 2 1 then BAD_MESSAGE
    else if field pay 2 1 = 1 ∧ field pay 12 32 ≠ ownSet then NOT_BOUND
    else if (weightKey d (field pay 4 8)).isNone ∧ 64 ≤ d.sec.weights.length then WEIGHT_FULL
    else OK
  else if kind = 4 then (if 1 ≤ field pay 0 1 ∧ field pay 0 1 ≤ 32 then OK else BAD_MESSAGE)
  else if kind = 6 then (if 1 ≤ field pay 0 1 ∧ field pay 0 1 ≤ 4 then OK else BAD_MESSAGE)
  else OK

/-- The first check that fails decides (R427). -/
def pkgStatus (d : Dev) (bs pay : List Byte) (chain sig tag : Bool) : Nat :=
  let kind := field bs 4 1
  if ¬ pkgOk bs then BAD_MESSAGE
  else if ¬ kindAllowed d kind pay then LC_REFUSED
  else if ¬ powerAllowed d kind pay then POWER_OFF
  else if ¬ nonceOk d (field bs 16 32) then NONCE_STALE
  else if ¬ chainOk d kind bs pay chain then CERT_INVALID
  else if ¬ sig ∨ (kind ≠ 5 ∧ ¬ tag) then SIG_INVALID
  else ownConditions d kind pay

/-! ## What a package does -/

/-- A Cellar key of a tenant: into slot 0 as epoch 0 when it holds none, else by a rotation (R428). -/
def Dev.loadCelKey (d : Dev) (t key : Nat) : Nat × Dev :=
  let k := celKeyOf d false t
  if (k.slot k.cur).isNone then
    (OK, d.setCelKey false t { k with key0 := some key, key1 := if k.cur then none else k.key1, cur := false })
  else d.celRotate false t key

/-- TENANT_KEYS. -/
def Dev.tenantKeys (d : Dev) (pay : List Byte) : Dev :=
  let t := bits (field pay 0 2) 8 0
  let f := field pay 2 1
  let d := if f.testBit 0 then d.wr Reg.SEC_BINDING (2 ^ 15 + t) else d
  let d := if f.testBit 1 then d.setSessKey t (some (field pay 4 32)) else d
  if f.testBit 2 then (d.loadCelKey t (field pay 36 64)).2 else d

/-- A weight key is loaded in place of one of its KEY_ID, or removed. -/
def Dev.putWeight (d : Dev) (w : WeightKey) : Dev :=
  { d with sec := { d.sec with weights := d.sec.weights.filter (fun x => x.id != w.id) ++ [w] } }
def Dev.dropWeight (d : Dev) (id : Nat) : Dev :=
  { d with sec := { d.sec with weights := d.sec.weights.filter (fun x => x.id != id) } }

/-- WEIGHT_KEY. -/
def Dev.weightIn (d : Dev) (pay : List Byte) : Dev :=
  let t := field pay 0 2
  d.putWeight ⟨field pay 4 8, bits t 8 0, t.testBit 9, field pay 2 1 == 1, field pay 12 32, field pay 44 32⟩

/-- Every owner session closes. -/
def Dev.closeOwners (d : Dev) : Dev :=
  d.closeAll ((upFrom 0 16).filter (fun i => (sessOf d i).st != 0 && (sessOf d i).tenant.isNone))

/-- The configuration a payload carries. -/
def configOf (pay : List Byte) : OwnerConfig :=
  ⟨field pay 0 32, field pay 32 32, field pay 64 32, field pay 96 1, slice pay 100 16, field pay 116 2, slice pay 120 4,
    slice pay 124 16, pay.drop 140⟩

/-- A configuration, sealed under the current KEK. -/
def Dev.sealConfig (d : Dev) (c : OwnerConfig) : Dev := { d with sec := { d.sec with sealedConfig := some (c, kekOf d) } }

/-- OWNER_CONFIG: the configuration is replaced and resealed, and every owner session closes. -/
def Dev.ownerConfig (d : Dev) (pay : List Byte) : Dev :=
  let c := configOf pay
  ((d.useConfig c).closeOwners).sealConfig c

/-- CAK: MKA starts from it (R378). -/
def Dev.cakIn (d : Dev) (pay : List Byte) : Dev :=
  let k : Cak := ⟨slice pay 4 (field pay 0 1), field pay 36 32⟩
  let d : Dev := { d with
    host := { d.host with cak := some k, cakAt := d.clk.aon, mkaPeer := false, rxSa := [], txSa := none }
    sec := { d.sec with sealedCak := some (k, kekOf d) } }
  d.msecStatus 1

/-- The CAK is withdrawn, which also sets MSEC_MODE OFF (R377, R427). -/
def Dev.cakOut (d : Dev) : Dev :=
  let d : Dev := { d with
    host := { d.host with cak := none, mkaPeer := false, rxSa := [], txSa := none }
    sec := { d.sec with sealedCak := none } }
  let d := d.wr Reg.MSEC_STATUS 0
  if msecRequired d then (d.wr Reg.MSEC_MODE 0).append 0x14 1 0 [0] else d

/-- WITHDRAW. -/
def Dev.withdraw (d : Dev) (pay : List Byte) : Dev :=
  let what := field pay 0 1
  let t := bits (field pay 2 2) 8 0
  let noKnock (c : OwnerConfig) : OwnerConfig := { c with knock := 0 }
  if what = 1 then (d.setSessKey t none).setCelKey false t CelKey.empty
  else if what = 2 then d.cakOut
  else if what = 3 then
    { d with sec := { d.sec with
      config := d.sec.config.map noKnock
      sealedConfig := d.sec.sealedConfig.map (fun x => (noKnock x.1, x.2)) } }
  else d.dropWeight (field pay 4 8)

/-! ## Debug mode (R437-R439) -/

/-- The debug mode ends: halted cores A and B are reset, and a halted Keep core restarts Strongroom. -/
def Dev.endDebug (d : Dev) : Dev :=
  let h := d.rd Reg.DBG_CORE_STATE
  let d := (d.wr Reg.DBG_MODE 0).wr Reg.DBG_LEASE_LEFT 0
  let d : Dev := { d with sec := { d.sec with pinsDriven := false } }
  let d := if h.testBit 0 then d.startReset ⟨rkCore, 0, rcDebug⟩ else d
  let d := if h.testBit 1 then d.startReset ⟨rkCore, 1, rcDebug⟩ else d
  if h.testBit 2 then d.startReset ⟨rkModule, 0, rcDebug⟩ else d

/-! ## Life-cycle transitions (R417, R418) -/

/-- A tenant owns a mailbox that is configured or holds a message. -/
def holdsMailbox (d : Dev) (t : Nat) : Bool :=
  (upFrom 0 64).any (fun m => (mbxCfg d m != 0 || !(d.mbox m).fifo.isEmpty) && mbxOwned d false t m)

/-- A tenant has a host session, a QP or a weight range (R436). -/
def holdsHost (d : Dev) (t : Nat) : Bool :=
  (upFrom 0 16).any (fun i => (sessOf d i).st != 0 && (sessOf d i).tenant == some t) ||
  d.host.qps.any (fun e => e.2.any (fun q => !q.system && q.tenant == t)) ||
  (upFrom 0 64).any (fun r => keyRangeValid d r && rangeOwned d false t r)

/-- Tenants with state in the module. -/
def tenantsHere (d : Dev) : List Nat :=
  let b := d.rd Reg.SEC_BINDING
  (upFrom 0 512).filter (fun t =>
    (b.testBit 15 && bits b 8 0 == t) || holdsMailbox d t || holdsHost d t || (sessKey d t).isSome ||
    d.sec.weights.any (fun w => !w.system && w.tenant == t) ||
    celKeyOf d false t != CelKey.empty || d.cel.pages.any (fun e => e.2.valid && !e.2.system && e.2.tenant == t) ||
    (upFrom 0 8).any (fun w => (upFrom 0 16).any (fun n =>
      let o := d.rd (rkey (0x008 + w) 0x084 + 8 * n)
      bits (d.rd (rkey (0x008 + w) 0x080 + 8 * n)) 15 0 != 0 && !o.testBit 9 && bits o 8 0 == t)))

/-- A maker configuration as manufacturing seals it: its values are free. -/
def Dev.makerConfig (d : Dev) : OwnerConfig × Dev :=
  let n := d.free
  (⟨Config.free n, Config.free (n + 1), Config.free (n + 2), Config.free (n + 3) % 256, leBytes 16 (Config.free (n + 4)),
    Config.free (n + 5) % 2 ^ 16, leBytes 4 (Config.free (n + 6)), leBytes 16 (Config.free (n + 7)),
    leBytes 10650 (Config.free (n + 8))⟩, { d with free := n + 9 })

/-- The Voheic certificates, sealed under the current KEK. -/
def Dev.sealCerts (d : Dev) : Dev := { d with sec := { d.sec with sealedCerts := some (kekOf d) } }

/-- The configuration is erased from the key store and the persistent store. -/
def Dev.eraseConfig (d : Dev) : Dev := { d with sec := { d.sec with config := none, sealedConfig := none } }

/-- The fuses of a transition (R417): its state; the seed, drawn at PROVISION; GEN and the owner slot at a CLAIM; and seed-kill. -/
def Dev.fuseTransition (d : Dev) (x : Transition) : Dev :=
  let claim : Bool := x.target == lcDeploy
  { (if x.target = lcVendor then d.used else d) with sec := { d.sec with
    lc := x.target
    seed := if x.target = lcVendor then some d.free else d.sec.seed
    gen := if claim then x.gen else d.sec.gen
    owners := if claim then SMap.put (fun _ => none) d.sec.owners x.gen (some (.claimed (x.owner.getD 0))) else d.sec.owners
    killed := d.sec.killed || x.target == lcScrap
    transition := none } }

/-- The actions of a row, its fuses, its record, the reply and the reset of kind M to come. A new KEK follows from the seed that
PROVISION draws and from the owner that CLAIM fuses; the certificates are sealed again under it (DEDUCED, log entry 258). -/
def Dev.finishTransition (d : Dev) (x : Transition) : Dev :=
  let was := d.sec.lc
  let d :=
    if was = lcDeploy then d.cakOut.eraseConfig
    else if was = lcVendor ∧ x.target = lcDeploy then d.eraseConfig
    else d
  let d := d.fuseTransition x
  let d :=
    if x.target = lcVendor then
      let r := d.makerConfig
      (r.2.sealConfig r.1).sealCerts
    else if x.target = lcDeploy then d.sealCerts
    else d
  let d := d.endDebug.append 0x10 1 0 ([OK, was, x.target, d.sec.gen].map (BitVec.ofNat 8))
  let d := d.reply x.req OK (if x.target = lcVendor then leBytes 1952 (Config.dikPublic (seedOf d)) else [])
  d.startReset ⟨rkModule, 0, rcLifeCycle⟩

/-- A transition that waits for its scrubs goes on when none is left. -/
def Dev.transitionOn (d : Dev) : Dev :=
  match d.sec.transition with
  | some x => if d.pwr.scrubs.isEmpty then d.finishTransition x else d
  | none => d

/-- LC_TOKEN: out of DEPLOY every tenant is scrubbed first. -/
def Dev.beginTransition (d : Dev) (m : TMsg) (pay : List Byte) : Dev :=
  let x : Transition := ⟨field pay 0 1, field pay 1 1, some (field pay 4 32), m⟩
  let ts := if d.sec.lc = lcDeploy then tenantsHere d else []
  let d : Dev := { d with sec := { d.sec with transition := some x } }
  (ts.foldl (fun d t => d.scrubAsk t) d).transitionOn

/-! ## DELIVER -/

/-- The counters, events and record of a package (R443, R447, R483). -/
def Dev.pkgNote (d : Dev) (kind st : Nat) (pay : List Byte) : Dev :=
  let d := d.wr Reg.SEC_DELIVER_LAST (2 ^ 31 + kind * 2 ^ 8 + st)
  let tenant := if kind = 1 ∨ kind = 2 then field pay 0 2 else if kind = 6 then field pay 2 2 else 0
  let d := d.append 0x12 1 0 (leBytes 1 st ++ leBytes 1 kind ++ leBytes 2 tenant)
  if st = OK then d.count Reg.SEC_DELIVER_COUNT
  else
    let d := (d.count Reg.SEC_DELIVER_FAIL_COUNT).raise 0x058 0
    if kind = 5 then (d.count Reg.SEC_LC_FAIL_COUNT).raise 0x058 1 else d

/-- A whole package: checked, and applied whole or refused. -/
def Dev.package (d : Dev) (m : TMsg) (bs : List Byte) (chain sig tag : Bool) (plain : List Byte) : Dev :=
  let kind := field bs 4 1
  let n := (payloadBytes kind (field bs 6 2)).getD 0
  let pay := if kind = 5 then slice bs 64 n else padTo n plain
  let st := pkgStatus d bs pay chain sig tag
  if st ≠ OK then (d.pkgNote kind st pay).reply m st []
  else
    let nonce := field bs 16 32
    let d : Dev := { d with sec := { d.sec with
      reports := d.sec.reports.map (fun r => if r.nonce = nonce then { r with used := true } else r) } }
    let d := d.pkgNote kind OK pay
    if kind = 5 then d.beginTransition m pay
    else
      let d := if kind = 1 then d.tenantKeys pay
        else if kind = 2 then d.weightIn pay
        else if kind = 3 then d.ownerConfig pay
        else if kind = 4 then d.cakIn pay
        else d.withdraw pay
      d.reply m OK []

/-- DELIVER: `chain`, `sig` and `tag` say that the certificate, the package's signature and its tag verify, and `plain` is what
the payload decrypts to. -/
def execKeyDeliver (o : Option TMsg) (chain sig tag : Bool) (plain : List Byte) (s : State) : Host.Outcome State Fault Refusal :=
  onReqDev famKey 1 o (fun m d =>
    match d.partIn m false with
    | (st, none, d) => d.reply m st []
    | (_, some bs, d) => d.package m bs chain sig tag plain) s

/-! ## Sealed weights (R429-R432) -/

/-- Plaintext bytes of a sealed object of a length (R429). -/
def sealedPlain (n : Nat) : Nat := (n - 144) - 16 * ((n - 144 + 65551) / 65552)

/-- Bytes of a sealed object of a plaintext length. -/
def sealedBytes (l : Nat) : Nat := 144 + l + 16 * ((l + 65535) / 65536)

/-- What the unseal engine's accesses carry: the key's owner, and that a write may make a weight range (R432). -/
def unsealUser (k : WeightKey) (writes : Bool) : MemUser := ⟨k.tenant, k.system, writes, 16⟩

/-- The regions and weight ranges let the unseal engine read SRC and write DST for a key's owner. -/
def unsealPlaces (d : Dev) (k : WeightKey) (src dst n : Nat) : Bool :=
  let ok (st : Nat) : Bool := st == OK || st == WING_RESET
  ok (gdCheck d (unsealUser k false) src n) && ok (gdCheck d (unsealUser k true) dst (sealedPlain n)) &&
    dst % 64 == 0 && !overlap src n dst (sealedPlain n)

/-- The mode conditions of R430. -/
def unsealBound (d : Dev) (k : WeightKey) : Bool :=
  let b := d.rd Reg.SEC_BINDING
  let mine : Bool := b.testBit 15 && bits b 8 0 == k.tenant
  k.system || (if k.single then !b.testBit 15 || mine else mine)

/-- The first free weight range. -/
def freeRange (d : Dev) : Option Nat := (upFrom 0 64).find? (fun r => !keyRangeValid d r)

/-- Check 1: the key a request names, when its owner is the session's principal; a key that the store's check spoils is zeroised. -/
def Dev.unsealKey (d : Dev) (m : TMsg) (id : Nat) : Option WeightKey × Dev :=
  let r := d.storeSpoils
  let d := r.2
  if r.1 then (none, d.dropWeight id)
  else (match weightKey d id with
    | some k => if (if k.system then ownerSession d m else reqTenant d m == some k.tenant) then some k else none
    | none => none, d)

/-- The checks of R431 in order: the job, or the status that refuses it. `htag` says that HTAG verifies. A SYSTEM key may be
SINGLE or BOUND and needs no binding. Of an object shorter than its header only its own bytes are read. -/
def unsealStatus (s : State) (k : WeightKey) (src dst n : Nat) (htag : Bool) : Nat :=
  let d := s.dev
  let h := s.mem.bytes src (min n 144)
  if ¬ unsealPlaces d k src dst n then MEM_PROTECT
  else if ¬ unsealBound d k ∨ field h 32 32 ≠ k.digest then NOT_BOUND
  else if gdCheck d (unsealUser k false) src n ≠ OK ∨ ¬ htag ∨ field h 8 8 ≠ k.id ∨ field h 24 4 = 0 ∨
      sealedBytes (field h 24 4) ≠ n then UNSEAL_FAIL
  else if (freeRange d).isNone then WEIGHT_FULL
  else OK

/-- UNSEAL. The engine runs one unseal at a time: a request waits while another runs. -/
def execUnseal (o : Option TMsg) (htag : Bool) (s : State) : Host.Outcome State Fault Refusal :=
  if s.dev.sec.unsealing.isSome then done s
  else onReq famKey 2 o (fun m s =>
    let b := m.body
    let src := field b 0 6
    let dst := field b 6 6
    let n := field b 20 4
    match m.src with
    | .host _ =>
      if b.length ≠ 28 ∨ field b 24 4 ≠ 0 then s.onDev (fun d => d.reply m BAD_MESSAGE [])
      else
        let r := s.dev.unsealKey m (field b 12 8)
        let s := { s with dev := r.2 }
        (match r.1 with
        | none => s.onDev (fun d => d.reply m KEY_ABSENT [])
        | some k =>
          let st := unsealStatus s k src dst n htag
          if st ≠ OK then s.onDev (fun d => d.reply m st [])
          else
            let h := s.mem.bytes src 144
            s.onDev (fun d => ({ d with sec := { d.sec with
              unsealing := some ⟨m, src, dst, field h 16 8, field h 24 4, field h 64 64, k⟩ } } : Dev).wr Reg.KEY_UNSEAL_STATE (2 ^ 31)))
    | _ => s.onDev (fun d => d.reply m ACCESS_DENIED [])) s

/-- A weight range is recorded, M_WEIGHT extended and UNSEALS counted (R431). -/
def Dev.sealRange (d : Dev) (j : UnsealJob) (r : Nat) : Dev :=
  let k := Reg.KEY_RANGE + 16 * r
  let d := ((d.wr k (j.dst % 2 ^ 32)).wr (k + 4) (j.dst / 2 ^ 32)).wr (k + 8) ((j.len + 63) / 64 * 64)
  let d := d.wr (k + 12) (2 ^ 31 + b2n j.key.system * 2 ^ 9 + j.key.tenant % 512)
  let d := d.wrWide Reg.ATT_M_WEIGHT0 16 (measure (d.rdWide Reg.ATT_M_WEIGHT0 16) 2 (leBytes 64 j.digest))
  d.count Reg.ATT_UNSEALS

/-- UNSEAL_DONE: `tags` says that every chunk's tag verifies, and `plain` is what the chunks decrypt to. A SINGLE key is
zeroised when its unseal ends. -/
def execUnsealDone (tags : Bool) (plain : List Byte) (s : State) : Host.Outcome State Fault Refusal :=
  match s.dev.sec.unsealing with
  | none => done s
  | some j =>
    if gdWaits s.dev (unsealUser j.key false) j.src (sealedBytes j.len) ∨ gdWaits s.dev (unsealUser j.key true) j.dst j.len then done s else
    let bs := padTo j.len plain
    let rd := gdRead s.dev (unsealUser j.key false) j.src (sealedBytes j.len)
    let s := { s with dev := rd.2 }
    let w := gdWrite s (unsealUser j.key true) j.dst bs
    let good : Bool := tags && rd.1 == OK && w.1 == OK && Config.shake256 bs % 2 ^ 512 == j.digest
    let s := if good then w.2 else if w.1 = OK then s.havoc j.dst j.len else w.2
    done (s.onDev (fun d =>
      let d := if j.key.single then d.dropWeight j.key.id else d
      let d : Dev := { d with sec := { d.sec with unsealing := none } }
      match good, freeRange d with
      | true, some r =>
        ((d.sealRange j r).wr Reg.KEY_UNSEAL_STATE OK).reply j.req OK (leBytes 8 j.object ++ leBytes 4 j.len)
      | _, _ => ((d.wr Reg.KEY_UNSEAL_STATE UNSEAL_FAIL).raise 0x059 1).reply j.req UNSEAL_FAIL []))

/-! ## Debug commands (R437-R440) -/

/-- The DEBUG family serves owner sessions alone. -/
def onDebug (code : Nat) (o : Option TMsg) (f : TMsg → Dev → Dev) (s : State) : Host.Outcome State Fault Refusal :=
  onReqDev famDebug code o (fun m d => if ownerSession d m then f m d else d.reply m ACCESS_DENIED []) s

/-- DBG_CHALLENGE, drawn as a free value. -/
def dbgChallenge (d : Dev) : Nat := Config.free d.sec.challenge % 2 ^ 256

/-- CHALLENGE. -/
def execDebugChallenge (o : Option TMsg) (s : State) : Host.Outcome State Fault Refusal :=
  onDebug 1 o (fun m d => d.reply m OK (leBytes 32 (dbgChallenge d))) s

/-- The mode is one that the life-cycle state allows (R416). -/
def modeAllowed (d : Dev) (mode : Nat) : Bool :=
  if d.sec.lc = lcScrap then false
  else if d.sec.lc = lcDeploy then decide (1 ≤ mode ∧ mode ≤ 2)
  else decide (1 ≤ mode ∧ mode ≤ 3)

/-- The key store holds a tenant key of some kind, or a tenant is bound (R438). -/
def tenantKeyHeld (d : Dev) : Bool :=
  (d.rd Reg.SEC_BINDING).testBit 15 || d.sec.sessKeys != [] || d.sec.weights.any (fun w => !w.system) ||
    d.cel.keys.any (fun e => e.2.key0.isSome || e.2.key1.isSome)

/-- The status of a token. A challenge that is not the current one has no status in the spec: a free value. -/
def tokenStatus (d : Dev) (bs : List Byte) (chain sig : Bool) : Nat :=
  let mode := field bs 4 1
  let n := field bs 5 1
  let lease := field bs 48 4
  if field bs 0 4 ≠ 0x55444E4C ∨ bs.length ≠ 64 + n * 5325 + 3309 ∨ field bs 6 2 ≠ 0 ∨ field bs 8 8 ≠ Config.serial % 2 ^ 64 ∨
      field bs 52 12 ≠ 0 ∨ lease = 0 ∨ 86400 < lease ∨ mode = 0 then BAD_MESSAGE
  else if field bs 16 32 ≠ dbgChallenge d then 1 + d.fresh % 255
  else if ¬ modeAllowed d mode then LC_REFUSED
  else if n ≠ 1 ∨ ¬ chain ∨ ¬ certOk d (if d.sec.lc = lcDeploy then 9 else 3) (slice bs 64 5325) then CERT_INVALID
  else if ¬ sig then SIG_INVALID
  else if d.sec.lc = lcDeploy ∧ mode = 2 ∧ tenantKeyHeld d then ACCESS_DENIED
  else OK

/-- A mode above OFF is entered, by JTAG or by token, for a lease in seconds. -/
def Dev.enterDebug (d : Dev) (mode lease : Nat) (jtag : Bool) : Dev :=
  let d : Dev := { d with sec := { d.sec with leaseAt := d.clk.aon } }
  (((d.wr Reg.DBG_MODE (mode + b2n jtag * 2 ^ 8)).wr Reg.DBG_LEASE_LEFT lease).count Reg.DBG_UNLOCK_COUNT).raise 0x05B 1

/-- A whole token: the outcome is recorded and the challenge drawn anew (R438). -/
def Dev.token (d : Dev) (m : TMsg) (bs : List Byte) (chain sig : Bool) : Dev :=
  let st := tokenStatus d bs chain sig
  let d := d.used
  let d : Dev := { d.used with sec := { d.sec with challenge := d.free } }
  let d := d.append 0x11 1 7 (leBytes 1 st ++ slice bs 4 1 ++ slice bs 48 4)
  let d := if st = OK then d.enterDebug (field bs 4 1) (field bs 48 4) false else (d.count Reg.DBG_UNLOCK_FAIL_COUNT).raise 0x05B 0
  d.reply m st []

/-- UNLOCK. -/
def execDebugUnlock (o : Option TMsg) (chain sig : Bool) (s : State) : Host.Outcome State Fault Refusal :=
  onDebug 2 o (fun m d =>
    match d.partIn m true with
    | (st, none, d) => d.reply m st []
    | (_, some bs, d) => d.token m bs chain sig) s

/-- RELOCK. -/
def execDebugRelock (o : Option TMsg) (s : State) : Host.Outcome State Fault Refusal :=
  onDebug 3 o (fun m d => (d.reply m OK []).endDebug) s

/-- LEASE_END. -/
def execLeaseEnd (s : State) : Host.Outcome State Fault Refusal :=
  doneDev s (fun d => if dbgMode d = 0 then d else d.endDebug.raise 0x05B 2)

/-- DBG_UNLOCK: in BLANK alone a JTAG write sets the mode. -/
def execDbgUnlock (mode : Fin 4) (s : State) : Host.Outcome State Fault Refusal :=
  doneDev s (fun d =>
    if d.sec.lc ≠ lcBlank ∨ ¬ d.powered.aon then d
    else if mode.val = 0 then d.endDebug
    else (d.enterDebug mode.val 0 true).append 0x11 1 7 (leBytes 1 OK ++ leBytes 1 mode.val ++ leBytes 4 0))

/-! ## CORE -/

/-- A core register as the debugger sees it: what it wrote, or a free value that stays while the core is halted. -/
def Dev.coreReg (d : Dev) (c r : Nat) (halted : Bool) : Nat × Dev :=
  match SMap.get (fun _ => none) d.sec.coreRegs (c * 2 ^ 16 + r) with
  | some v => (v, d)
  | none =>
    let v := d.fresh % 2 ^ 64
    let d := d.used
    if halted then (v, { d with sec := { d.sec with
      coreRegs := SMap.put (fun _ => none) d.sec.coreRegs (c * 2 ^ 16 + r) (some v) } })
    else (v, d)

/-- A core runs again, by one instruction or on: its registers are what its program makes them. -/
def Dev.forgetCore (d : Dev) (c : Nat) : Dev :=
  { d with sec := { d.sec with coreRegs := SMap.erase (fun k => k / 2 ^ 16 == c) d.sec.coreRegs } }

/-- The debug mode reaches a core. -/
def coreReached (d : Dev) (c : Nat) : Bool := if c = 2 then dbgMode d == 3 else decide (c ≤ 1 ∧ 2 ≤ dbgMode d)

/-- OK, or why an operation on a core is not done (R438, R440). -/
def coreStatus (d : Dev) (c : Nat) : Nat :=
  if ¬ coreReached d c then ACCESS_DENIED else if c ≠ 2 ∧ ¬ d.powered.core then POWER_OFF else OK

/-- An operation on a core: the value a read answers, and the device. -/
def Dev.coreOp (d : Dev) (c op r v : Nat) : List Byte × Dev :=
  let st := d.rd Reg.DBG_CORE_STATE
  if op = 0 then ([], d.wr Reg.DBG_CORE_STATE (setBit st c))
  else if op = 1 then ([], (d.wr Reg.DBG_CORE_STATE (clearBit st c)).forgetCore c)
  else if op = 2 then ([], d.forgetCore c)
  else if op = 3 then
    let x := d.coreReg c r (st.testBit c)
    (leBytes 8 x.1, x.2)
  else if st.testBit c then
    ([], { d with sec := { d.sec with coreRegs := SMap.put (fun _ => none) d.sec.coreRegs (c * 2 ^ 16 + r) (some v) } })
  else ([], d)

/-- CORE. -/
def execDebugCore (o : Option TMsg) (s : State) : Host.Outcome State Fault Refusal :=
  onDebug 5 o (fun m d =>
    let c := field m.body 0 1
    let op := field m.body 1 1
    if m.body.length ≠ 12 ∨ 2 < c ∨ 4 < op then d.reply m BAD_MESSAGE []
    else if coreStatus d c ≠ OK then d.reply m (coreStatus d c) []
    else
      let r := d.coreOp c op (field m.body 2 2) (field m.body 4 8)
      r.2.reply m OK r.1) s

/-! ## JTAG (R437)

What an instruction shifts out is sent as `debugValue`: 0 IDCODE, 1 a core register, 2 a fuse, 3 the status of an operation that was
not done (DESIGN CHOICE of form, log entry 259). -/

/-- An operation on a core by JTAG. -/
def Dev.jtagCore (d : Dev) (c op r v : Nat) : Dev :=
  if coreStatus d c ≠ OK then d.send (.debugValue 3 (coreStatus d c))
  else
    let x := d.coreOp c op r v
    if op = 3 then x.2.send (.debugValue 1 (field x.1 0 8)) else x.2

/-- What a fuse reads as: every one but the seed. -/
def fuseWord (d : Dev) : Fuse → Option Nat
  | .serial => some (Config.serial % 2 ^ 64)
  | .mac => some (Config.mac % 2 ^ 48)
  | .lifeCycle => some (lcWord d)
  | .owner slot => some (ownerSlot d slot.val)
  | .seed => none
  | .seedKill => some (b2n d.sec.killed)
  | .shipped t => some (b2n (Config.shipEnabled t.val) + 2 * (Config.shipGrade t.val % 4))

/-- A fuse is read by JTAG, in MAKER alone; the seed never leaves the key-derivation engine. -/
def Dev.jtagFuse (d : Dev) (f : Fuse) : Dev :=
  match (if dbgMode d = 3 then fuseWord d f else none) with
  | some v => d.send (.debugValue 2 v)
  | none => d.send (.debugValue 3 ACCESS_DENIED)

/-- What an instruction does beside driving the pins. -/
def Dev.jtag (d : Dev) : JtagInstr → Dev
  | .idcode => d.send (.debugValue 0 idcodeWord)
  | .core c op r v => d.jtagCore c.val op.val r.toNat v.toNat
  | .fuse f => d.jtagFuse f
  | .bypass => d
  | .samplePreload => d
  | .extest => d
  | .clamp => d
  | .highz => d

/-- JTAG_INSTRUCTION: EXTEST, CLAMP and HIGHZ are in effect in BLANK, FULL and MAKER alone, and in DEPLOY they take the fabric
ports DOWN. -/
def execJtagInstruction (i : JtagInstr) (s : State) : Host.Outcome State Fault Refusal :=
  doneDev s (fun d =>
    let drives : Bool := (i == .extest || i == .clamp || i == .highz) && (d.sec.lc == lcBlank || decide (2 ≤ dbgMode d))
    let pins : Bool := drives && d.sec.lc == lcDeploy
    let d := if d.powered.aon then d.jtag i else d
    let d : Dev := { d with sec := { d.sec with pinsDriven := pins } }
    if pins ∧ d.powered.core then d.allDown rsDisabled (upFrom 0 6) else d)

end Sys2Proof.Machine
end

