-- ==== Sys2Proof/Machine/Tocsin.lean ====
section
/-! DEFINITION. The Tocsin collector: events, states, severity and reactions (R449-R458), ERR_N (R459-R461), the rail test and
the configuration bytes (R462, R463), and BEL_ALIVE (R311, R468). -/

namespace Sys2Proof.Machine

/-! ## Sources -/

/-- A source's state. -/
def tocSrc (d : Dev) (s : Nat) : TocSrc := SMap.get (fun _ => TocSrc.new) d.toc.src s
def Dev.setTocSrc (d : Dev) (s : Nat) (x : TocSrc) : Dev :=
  { d with toc := { d.toc with src := SMap.put (fun _ => TocSrc.new) d.toc.src s x } }

/-- The code of a state in TOC_SRC_STATE. -/
def SrcState.code : SrcState → Nat
  | .idle => 0 | .fault => 1 | .severe => 2 | .rail => 3

/-- The configuration byte of a source as it was written. -/
def cfgByte (d : Dev) (s : Nat) : Nat := SMap.get defaultCfg d.toc.cfg s

/-- The reset that R448 names in a source's BLOCK_RESET column: kind and target; for a BEL source without a core of its own, the
active core when there is one. -/
def blockReset (d : Dev) (s : Nat) : Option (Nat × Nat) :=
  if s < 64 then some (rkCluster, s)
  else if 112 ≤ s ∧ s < 120 then some (rkWing, s - 112)
  else if 128 ≤ s ∧ s < 192 then some (rkWing, (s - 128) / 8)
  else if 192 ≤ s ∧ s < 288 then some (rkPort, (s - 192) / 16)
  else if s = 461 then some (rkCore, 0)
  else if s = 462 then some (rkCore, 1)
  else if 456 ≤ s ∧ s < 472 then d.bel.active.map (fun b => (rkCore, b2n b))
  else none

/-- A source has a BLOCK_RESET kind. -/
def hasBlockReset (s : Nat) : Bool :=
  decide (s < 64) || decide (112 ≤ s ∧ s < 120) || decide (128 ≤ s ∧ s < 288) || decide (456 ≤ s ∧ s < 472)

/-- The collector reads a configuration byte at an event: with wrong parity it raises CFG_UE and uses 0x11 until the byte is
written again (R463). -/
def Dev.cfgRead (d : Dev) (s : Nat) : Nat × Dev :=
  if d.toc.cfgBad.contains s then (0x11, d)
  else if d.armed 0x060 1 then
    (0x11, ({ d.disarm 0x060 1 with toc := { d.toc with cfgBad := s :: d.toc.cfgBad } } : Dev).raise 0x060 1)
  else (cfgByte d s, d)

/-! ## Reactions (R455, R456) -/

/-- INTERRUPT sets the source's TOC_PENDING bit. -/
def Dev.tocPending (d : Dev) (s : Nat) : Dev :=
  let k := Reg.TOC_PENDING + 4 * (s / 32)
  d.wr k (setBit (d.rd k) (s % 32))

/-- The Tocsin interrupt of a core (R455): it is the active one, and a TOC_PENDING bit is 1 whose source is not masked. -/
def tocInterrupt (d : Dev) (core : Bool) : Bool :=
  d.bel.active == some core && (upFrom 0 1024).any (fun s =>
    (d.rd (Reg.TOC_PENDING + 4 * (s / 32))).testBit (s % 32) && !(d.rd (rkey (sourcePage s).1 0x024)).testBit (sourcePage s).2)

/-- A trap goes to the active core, or waits for one (R456, R458). -/
def Dev.tocTrap (d : Dev) (s : Nat) : Dev :=
  match d.bel.active with
  | some b => if switching d then { d with toc := { d.toc with traps := d.toc.traps ++ [s] } } else d.send (.coreTrap (coreMaster b) s)
  | none => { d with toc := { d.toc with traps := d.toc.traps ++ [s] } }

/-- A pulse on ERR_N, with whether it holds the pin afterwards; a running pulse's timer restarts (R456, R460). DESIGN CHOICE (log entry
268): HOLD is taken as the pulse begins, a release before the pulse ends leaves it, and so does a pulse without HOLD that follows. -/
def Dev.errnPulse (d : Dev) (hold : Bool) : Dev :=
  { d with toc := { d.toc with pulse := some (hold || d.toc.pulse.getD false) } }

/-- A reaction is applied. A BLOCK_RESET of a BEL source without a core of its own is absorbed into a running switch-over
(R458); a reset begins after the event's record has been appended. -/
def Dev.react (d : Dev) (s r : Nat) : Dev :=
  if r = 0 then d
  else
    let d := d.tocPending s
    if r = 2 then d.tocTrap s
    else if r = 3 then
      (match blockReset d s with
        | some x => if 456 ≤ s ∧ s ≠ 461 ∧ s ≠ 462 ∧ switching d then d else d.startReset ⟨x.1, x.2, rcTocsin⟩
        | none => d)
    else if r = 4 then d.startReset ⟨rkModule, 0, rcTocsin⟩
    else if r = 5 then d.errnPulse ((d.rd Reg.TOC_ERRN).testBit 16)
    else d

/-! ## Events (R452-R454, R457) -/

/-- TOC_LAST, and TOC_FIRST when a source enters the fault state first. -/
def Dev.tocNote (d : Dev) (s reaction : Nat) (old new : SrcState) : Dev :=
  let d := d.wr Reg.TOC_LAST (2 ^ 31 + reaction * 2 ^ 16 + new.code * 2 ^ 12 + s)
  if old = .idle ∧ new ≠ .idle ∧ ¬ (d.rd Reg.TOC_FIRST).testBit 31 then d.wr Reg.TOC_FIRST (2 ^ 31 + s) else d

/-- The record of an event (R457, R483). -/
def Dev.tocRecord (d : Dev) (s cause reaction : Nat) (new : SrcState) (count : Nat) : Dev :=
  d.append 0x01 0 s [BitVec.ofNat 8 cause, BitVec.ofNat 8 new.code, BitVec.ofNat 8 reaction, BitVec.ofNat 8 count]

/-- The severity window after one more event: its count, N and W; a new window takes them from the source's page (R453). -/
def windowNext (d : Dev) (s : Nat) (w : Option (Nat × Nat × Nat)) : Nat × Nat × Nat :=
  match w with
  | some x => (x.1 + 1, x.2.1, x.2.2)
  | none =>
    let v := d.rd (rkey (sourcePage s).1 0x034)
    (1, bits v 7 0, bits v 31 10)

/-- An unmasked event that reaches a source in IDLE or FAULT. -/
def Dev.tocCounts (d : Dev) (s : Nat) (x : TocSrc) : Dev :=
  let c := d.cfgRead s
  let w := windowNext d s x.win
  let d := c.2
  if w.2.1 ≤ w.1 then
    let r := bits c.1 6 4
    let d := (d.setTocSrc s { x with st := .severe, win := none }).tocNote s r x.st .severe
    (d.tocRecord s 1 r .severe x.count).react s r
  else
    let r := bits c.1 2 0
    let st : SrcState := if 2 ≤ r then .fault else x.st
    let d := (d.setTocSrc s { x with st := st, win := some w }).tocNote s r x.st st
    (if r = 0 then d else d.tocRecord s 0 r st x.count).react s r

/-- An event of bit `n` of a page reaches the collector. One that meets a clearing reset, or a source in SEVERE, is counted only (R452);
DESIGN CHOICE (log entry 267): a masked one is the last event of TOC_LAST, with no reaction. -/
def Dev.tocEvent (d : Dev) (b n s : Nat) : Dev :=
  let x := tocSrc d s
  if x.st = .rail then d
  else
    let x := { x with count := min 255 (x.count + 1) }
    let d := (d.setTocSrc s x).count Reg.TOC_EVENT_COUNT
    let masked := (d.rd (rkey b 0x024)).testBit n
    if clearingRuns d s ∨ x.st = .severe then d
    else if masked then d.tocNote s 0 x.st x.st
    else d.tocCounts s x

/-- TOCSIN_EVENT: one pending toggle of a page's bit reaches the collector (R449); nothing arrives from a page whose domain is
off (R451). -/
def execTocsinEvent (block : BitVec 12) (n : Fin 32) (s : State) : Host.Outcome State Fault Refusal :=
  doneDev s (fun d =>
    let k := block.toNat * 32 + n.val
    let p := SMap.get (fun _ => 0) d.toc.pend k
    match sourceOf block.toNat n.val with
    | none => d
    | some src =>
      if p = 0 ∨ ¬ d.domainOn block.toNat then d
      else ({ d with toc := { d.toc with pend := SMap.put (fun _ => 0) d.toc.pend k (p - 1) } } : Dev).tocEvent block.toNat n.val src)

/-- A source's rails are equal (R449, R452). -/
def Dev.railFault (d : Dev) (s : Nat) : Dev :=
  let x := tocSrc d s
  if ¬ sourceKnown s ∨ x.st = .rail ∨ ¬ d.domainOn (sourcePage s).1 then d
  else
    let c := d.cfgRead s
    let r := bits c.1 6 4
    let d := (c.2.setTocSrc s { x with st := .rail, win := none }).tocNote s r x.st .rail
    ((d.raise 0x060 0).tocRecord s 2 r .rail x.count).react s r

/-- RAIL. -/
def execRailEqual (src : Fin 1024) (s : State) : Host.Outcome State Fault Refusal := doneDev s (fun d => d.railFault src.val)

/-- SEVERITY_WINDOW_END. -/
def execSeverityWindowEnd (src : Fin 1024) (s : State) : Host.Outcome State Fault Refusal :=
  doneDev s (fun d => d.setTocSrc src.val { tocSrc d src.val with win := none })

/-! ## The TOC page's own registers -/

/-- A byte that software may write for a source (R455). -/
def cfgOk (s v : Nat) : Bool :=
  let code (c : Nat) : Bool := decide (c ≤ 5) && (c != 3 || hasBlockReset s)
  !sourceKnown s || (code (bits v 2 0) && code (bits v 6 4))

/-- The effect of a write of register `i` of TOC_SRC_CFG: four sources' bytes; reserved sources ignore theirs. -/
def Dev.tocCfgWrite (d : Dev) (i v : Nat) : Nat × Dev :=
  let ss := upFrom (4 * i) 4
  let byte (s : Nat) : Nat := bits v (8 * (s % 4) + 7) (8 * (s % 4))
  if ss.all (fun s => cfgOk s (byte s)) then
    (OK, (ss.filter sourceKnown).foldl (fun d s =>
      { d with toc := { d.toc with
          cfg := SMap.put defaultCfg d.toc.cfg s (byte s &&& 0x77)
          cfgBad := d.toc.cfgBad.filter (fun x => x != s) } }) d)
  else (OUT_OF_RANGE, d)

/-- TOC_SRC_CFG_WRITE. -/
def execTocSrcCfgWrite (master i : Byte) (value : Word) (s : State) : Host.Outcome State Fault Refusal :=
  done (mgmtWrite master.toNat (mAddr (Reg.TOC_SRC_CFG + 4 * i.toNat)) 32 value.toNat
    (devEffect (fun d => d.tocCfgWrite i.toNat value.toNat)) s)

/-- Every hold of ERR_N ends (R460). -/
def Dev.errnRelease (d : Dev) : Dev := d.wr Reg.TOC_ERRN (clearBit (d.rd Reg.TOC_ERRN) 29)

/-- The effect of a write of TOC_ERRN: HOLD is stored, RELEASE ends every hold. -/
def Dev.tocErrnWrite (d : Dev) (v : Nat) : Nat × Dev :=
  let d := d.wr Reg.TOC_ERRN (setBits (d.rd Reg.TOC_ERRN) 16 16 (bits v 16 16))
  (OK, if v.testBit 0 then d.errnRelease else d)

/-- TOC_ERRN_RELEASE, with the HOLD bit that the same write carries. -/
def execTocErrnRelease (master : Byte) (hold : Bool) (s : State) : Host.Outcome State Fault Refusal :=
  let v := 1 + b2n hold * 2 ^ 16
  done (mgmtWrite master.toNat (mAddr Reg.TOC_ERRN) 32 v (devEffect (fun d => d.tocErrnWrite v)) s)

/-- ERRN_PULSE_END: the driver releases the pin unless a hold is in effect. -/
def execErrnPulseEnd (s : State) : Host.Outcome State Fault Refusal :=
  doneDev s (fun d =>
    match d.toc.pulse with
    | some hold =>
      let d : Dev := { d with toc := { d.toc with pulse := none } }
      if hold then d.wr Reg.TOC_ERRN (setBit (d.rd Reg.TOC_ERRN) 29) else d
    | none => d)

/-- The module drives ERR_N (R459). -/
def errnDriving (d : Dev) : Bool := d.toc.pulse.isSome || (d.rd Reg.TOC_ERRN).testBit 29

/-- The effect of a write of TOC_RAILTEST (R462). -/
def Dev.railTest (d : Dev) (v : Nat) : Nat × Dev := (OK, if v.testBit 31 then d.railFault (bits v 9 0) else d)

/-- TOC_RAILTEST. -/
def execTocRailtest (master : Byte) (value : Word) (s : State) : Host.Outcome State Fault Refusal :=
  done (mgmtWrite master.toNat (mAddr Reg.TOC_RAILTEST) 32 value.toNat (devEffect (fun d => d.railTest value.toNat)) s)

/-! ## BEL_ALIVE (R311, R468) -/

/-- The effect of a write of BEL_ALIVE: the active core's marks Parlour alive, and ends a switch-over, after which the traps that
waited are delivered. -/
def Dev.aliveWrite (d : Dev) (master : Nat) : Nat × Dev :=
  if d.bel.active.map coreMaster ≠ some master then (OK, d)
  else
    let d : Dev := { d with bel := { d.bel with silent := 0 } }
    if switching d then
      let ts := d.toc.traps
      let d := (d.wr Reg.BEL_SWITCH_STATE (clearBit (d.rd Reg.BEL_SWITCH_STATE) 31)).count Reg.BEL_SWITCH_COUNT
      let d : Dev := { d with toc := { d.toc with traps := [] } }
      (OK, ts.foldl (fun d t => d.send (.coreTrap master t)) d)
    else (OK, d)

/-- BEL_ALIVE. -/
def execBelAlive (master : Byte) (value : Word) (s : State) : Host.Outcome State Fault Refusal :=
  done (mgmtWrite master.toNat (mAddr Reg.BEL_ALIVE) 32 value.toNat (devEffect (fun d => d.aliveWrite master.toNat)) s)

end Sys2Proof.Machine
end

