-- ==== Sys2Proof/Machine/Knock.lean ====
section
/-! DEFINITION. The status block (R387), STATUS READ and the Knocker (R384-R386). -/

namespace Sys2Proof.Machine

/-! ## The status block (R387) -/

/-- FLAGS of the status block. -/
def statusFlags (d : Dev) : Nat :=
  let f := d.rd Reg.PWR_FEED_STATE
  b2n (errnDriving d) + 2 * b2n (scrubbing d) + 4 * b2n (f.testBit 0) + 8 * b2n (f.testBit 1) + 16 * b2n d.recd.frozen +
    32 * b2n (d.toc.src.any (fun x => x.2.st == .severe)) + 64 * b2n (d.rd Reg.PTP_STATE == ptpLocked) + 128 * b2n (msecSecured d)

/-- KNK_COUNTER. -/
def knkCounter (d : Dev) : Nat := d.rd Reg.KNK_COUNTER_LO + d.rd Reg.KNK_COUNTER_HI * 2 ^ 32

/-- The status block; fields of the switch core read 0 while it is off. -/
def statusBlock (d : Dev) : List Byte :=
  let on (v : Nat) : Nat := if d.powered.core then v else 0
  leBytes 8 Config.serial ++ leBytes 1 (lcWord d) ++ leBytes 1 (powerState d) ++ leBytes 1 (on (agtWord d)) ++
    leBytes 1 (on (d.rd Reg.BEL_ROLE)) ++ leBytes 2 (statusFlags d) ++ leBytes 2 (d.rd (rkey 0x000 0x00C)) ++ leBytes 8 d.clk.cal ++
    leBytes 4 (on (d.rd Reg.AGT_TERM)) ++ leBytes 4 (on (d.rd Reg.RTB_LIVE_EPOCH)) ++
    leBytes 2 ((d.toc.src.filter (fun x => x.2.st != .idle)).length) ++ leBytes 8 (knkCounter d) ++ leBytes 22 0

/-- STATUS_READ. -/
def execStatusRead (o : Option TMsg) (s : State) : Host.Outcome State Fault Refusal :=
  onReqDev famStatus 1 o (fun m d => if m.body ≠ [] then d.reply m BAD_MESSAGE [] else d.reply m OK (statusBlock d)) s

/-! ## The Knocker (R384-R386) -/

/-- The knock key as the key store gives it; 0 means none. -/
def Dev.knockKey (d : Dev) : Nat × Dev :=
  let r := d.storeSpoils
  if r.1 then (0, { r.2 with sec := { r.2.sec with config := r.2.sec.config.map (fun c => { c with knock := 0 }) } })
  else ((r.2.sec.config.map (fun c => c.knock)).getD 0, r.2)

/-- A KNOCK record (R483). -/
def Dev.knockRecord (d : Dev) (k : Knock) (command st : Nat) : Dev :=
  d.append 0x09 3 0 (leBytes 1 command ++ leBytes 1 st ++ leBytes 8 k.counter ++ leBytes 6 k.sender)

/-- The payload of a Knock reply (R386), its data at most whole records, and its tag under the knock key. -/
def knockPayload (key command status counter : Nat) (data : List Byte) : List Byte :=
  let b := [1] ++ leBytes 1 (command % 128 + 128) ++ leBytes 1 status ++ leBytes 1 (if command = 2 then data.length / 64 else 0) ++
    leBytes 8 Config.serial ++ leBytes 8 counter ++ data
  b ++ leBytes 32 (Config.kmac256 key b "LN knock reply")

/-- A Knock frame with a command: dropped when it comes too soon or fails a check; otherwise its COUNTER is stored, it acts or is
answered BAD_ARG, its record is written, and it is answered. -/
def knocked (cmd : Nat) (k : Knock) (argOk : Bool) (act : State → Nat × List Byte × State) (s : State) : State :=
  if ¬ s.dev.powered.aon then s
  else if k.soon then s.onDev (fun d => d.count Reg.KNK_RATE_DROP_COUNT)
  else
    let command := if 1 ≤ k.command ∧ k.command ≤ 7 then cmd else k.command
    let r := s.dev.knockKey
    let s := { s with dev := r.2 }
    if r.1 = 0 ∨ k.version ≠ 1 ∨ k.serial ≠ Config.serial % 2 ^ 64 ∨ ¬ k.tagOk ∨ k.counter ≤ knkCounter s.dev then
      s.onDev (fun d => ((d.count Reg.KNK_REJECT_COUNT).raise 0x042 0).knockRecord k command AUTH_FAIL)
    else
      let s := s.onDev (fun d => (d.wr Reg.KNK_COUNTER_LO (k.counter % 2 ^ 32)).wr Reg.KNK_COUNTER_HI (k.counter / 2 ^ 32))
      let good : Bool := argOk && k.reservedZero && command == cmd
      let x := if good then act s else (BAD_ARG, [], s)
      x.2.2.onDev (fun d =>
        let d := if good then (d.count Reg.KNK_ACCEPT_COUNT).raise 0x042 1 else d
        let d := d.wr Reg.KNK_LAST (2 ^ 31 + (command % 256) * 2 ^ 8 + x.1)
        (d.knockRecord k command x.1).send
          (.knockReply k.sender (knockPayload r.1 command x.1 k.counter (if x.1 = OK then x.2.1 else []))))

/-- An action on the device alone. -/
def knockDev (f : Dev → Nat × List Byte × Dev) (s : State) : Nat × List Byte × State :=
  let r := f s.dev
  (r.1, r.2.1, { s with dev := r.2.2 })

/-- KNOCK_STATUS. -/
def execKnockStatus (k : Knock) (s : State) : Host.Outcome State Fault Refusal :=
  done (knocked 1 k (k.arg == 0) (knockDev (fun d => (OK, statusBlock d, d))) s)

/-- REC_TAIL: the newest records of the circulating area. -/
def execRecTail (k : Knock) (s : State) : Host.Outcome State Fault Refusal :=
  done (knocked 2 k (decide (k.arg ≤ 16)) (knockDev (fun d =>
    let r := d.readSlots 1 (tailSlots d k.arg (2 ^ 48) [])
    (OK, r.1, r.2))) s)

/-- REC_FREEZE. -/
def execRecFreeze (k : Knock) (s : State) : Host.Outcome State Fault Refusal :=
  done (knocked 3 k (decide (k.arg ≤ 1)) (knockDev (fun d => (OK, [], d.recFreezeTo (k.arg == 1) 6))) s)

/-- SWITCH_CORE. -/
def execSwitchCore (k : Knock) (s : State) : Host.Outcome State Fault Refusal :=
  done (knocked 4 k (k.arg == 0) (knockDev (fun d =>
    if d.powered.core then (let r := d.triggerSwitch tgKnock; (r.1, [], r.2)) else (SWITCH_REFUSED, [], d))) s)

/-- KNOCK_ERR_N: a pulse with its HOLD, or a release. -/
def execKnockErrN (k : Knock) (s : State) : Host.Outcome State Fault Refusal :=
  let n := bits k.arg 15 0
  done (knocked 5 k (decide (k.arg < 2 ^ 17 ∧ ((10 ≤ n ∧ n ≤ 10000) ∨ k.arg = 0))) (knockDev (fun d =>
    (OK, [], if k.arg = 0 then d.errnRelease else d.errnPulse (k.arg.testBit 16)))) s)

/-- KNOCK_RESET. -/
def execKnockReset (k : Knock) (s : State) : Host.Outcome State Fault Refusal :=
  done (knocked 6 k (k.arg == 1) (knockDev (fun d => (OK, [], d.startReset ⟨rkModule, 0, rcKnock⟩))) s)

/-- KNOCK_POWER: busy while any die reads at or above THM_CRITICAL, whatever the power state. -/
def execKnockPower (k : Knock) (s : State) : Host.Outcome State Fault Refusal :=
  done (knocked 7 k (decide (k.arg ≤ 4)) (fun s =>
    if dieHot s.dev then (PWR_BUSY, [], s)
    else
      let r := targetEffect k.arg s
      (r.1, [], r.2)) s)

end Sys2Proof.Machine
end

