-- ==== Sys2Proof/Machine/Measure.lean ====
section
/-! DEFINITION. Measures and congestion records (R245, R353, R531). -/

namespace Sys2Proof.Machine

/-- The length in ns of the measure in progress (R531). -/
def measureLength (d : Dev) : Nat := d.msr.shift.getD (1000 * d.msr.period)

/-- One port's 68 bytes of a congestion record: UTIL, STATE, WIDTH, and of each VC the most frames queued and STALL. -/
def recPort (d : Dev) (util stall : List (BitVec 16)) (p : Nat) : List Byte :=
  let x := portOf d p
  leBytes 2 (listAt 0 util p).toNat ++ leBytes 1 x.st.code ++ leBytes 1 x.width ++
    ((upFrom 0 16).map (fun v =>
      leBytes 2 (min 0xFFFF (SMap.get (fun _ => 0) d.rtr.occ (16 * p + v))) ++ leBytes 2 (listAt 0 stall (16 * p + v)).toNat)).flatten

/-- The congestion record that closes a measure (R245). -/
def congestion (d : Dev) (util stall : List (BitVec 16)) : List Byte :=
  leBytes 8 d.rtr.measure ++ leBytes 8 d.clk.cal ++ leBytes 4 (measureLength d) ++
    leBytes 2 (b2n d.msr.shift.isSome + 2 * b2n d.rtr.flipped + 4 * b2n d.msr.first) ++ [0, 0] ++
    leBytes 4 d.rtr.aged ++ leBytes 4 d.rtr.overrun ++ ((upFrom 0 6).map (recPort d util stall)).flatten ++ leBytes 72 0

/-- The agent keeps the record of a measure, or that it was lost, for its summaries (R353). -/
def Dev.noteRecord (d : Dev) (bs : List Byte) : Dev :=
  { d with agt := { d.agt with cmap := (bs :: d.agt.cmap).take (d.rd Reg.AGT_CMAP_PERIOD) } }

/-- The record goes into the area not written last, and the agent reads it; under HOLD it is lost (R245, R353). -/
def Dev.closeRecord (d : Dev) (util stall : List (BitVec 16)) : Dev :=
  if (d.rd (rkey 0x02B 0x010)).testBit 0 then ((d.count Reg.CMAP_LOST_COUNT).raise 0x02B 0).noteRecord []
  else
    let bs := congestion d util stall
    let area := 1 - bits (d.rd Reg.CMAP_LAST) 0 0
    let d := (upFrom 0 128).foldl (fun d i => d.wr (rkey 0x02B (0x400 + 0x200 * area) + 4 * i) (field bs (4 * i) 4)) d
    (d.wr Reg.CMAP_LAST (2 ^ 31 + area)).noteRecord bs

/-- What a measure counts starts anew: corrections by pin, Cellar timeouts, refused masters, tag failures (R57, R137, R147,
R193). -/
def Dev.newMeasure (d : Dev) : Dev :=
  { d with
    acc := { d.acc with refused := [] }
    gddr := { d.gddr with pins := [], exceeded := [] }
    cel := { d.cel with timeouts := [] }
    lnk := SMap.mapVals (fun _ => Lnk.reset) (fun x => { x with tags := 0, laneCe := [] }) d.lnk
    rtr := { d.rtr with aged := 0, overrun := 0, flipped := false, measure := d.rtr.measure + 1,
                           occ := d.rtr.outq.foldl (fun m e => SMap.put (fun _ => 0) m e.1 (queueFrames e.2)) [] }
    msr := ⟨d.rd Reg.MSR_PERIOD, none, false⟩ }

/-- A PENDING bank becomes LIVE: its new packets carry its epoch, and the record of the measure that opens shows FLIP (R235). -/
def Dev.boundaryFlip (d : Dev) : Dev :=
  if bankPending d then
    match (upFrom 0 2).find? (fun b => bankState d b == 1) with
    | some b =>
      let d := d.makeLive b
      ({ d with rtr := { d.rtr with flipped := true } } : Dev).installed
    | none => d
  else d

/-- MEASURE_BOUNDARY: what the router measured of each port and each VC comes with the command. After AGT_CMAP_PERIOD measures
the agent sends its summary. -/
def execMeasureBoundary (util stall : List (BitVec 16)) (s : State) : Host.Outcome State Fault Refusal :=
  doneDev s (fun d =>
    if ¬ d.powered.aon then d
    else
      let works : Bool := d.powered.core && !moduleResets d
      let d := if d.msr.shift.isSome then
        d.wr Reg.MSR_LAST_SHIFT (unsigned 32 ((measureLength d : Int) - 1000 * d.msr.period)) else d
      let d := if works then d.closeRecord util stall else d
      let d := d.newMeasure
      if ¬ works then d
      else
        let d := d.boundaryFlip
        let n := d.agt.cmapCount + 1
        let d : Dev := { d with agt := { d.agt with cmapCount := n } }
        if d.rd Reg.AGT_CMAP_PERIOD ≤ n then d.periodSummary else d)

end Sys2Proof.Machine
end

