-- ==== Sys2Proof/Machine/Scrub.lean ====
section
/-! DEFINITION. The scrub of a tenant, step by step (R164, R436, R515). -/

namespace Sys2Proof.Machine

/-- PWR_SCRUB's step, and the owner that is scrubbed: tenant and SYSTEM. -/
def scrubStep (d : Dev) : Nat := bits (d.rd Reg.PWR_SCRUB) 26 24

/-- A Cellar page entry belongs to an owner. -/
def pageOwned (sys : Bool) (t : Nat) (e : CelPage) : Bool := (e.valid || e.scrubbing) && e.system == sys && (sys || e.tenant == t)

/-- Step 2: the owner's pages are released; those of ports that carry accesses are zeroed, and the others stay SCRUBBING until their
port can be written (R150). -/
def scrubPages (s : State) (sys : Bool) (t : Nat) : State :=
  let ps := (s.dev.cel.pages.filter (fun e => pageOwned sys t e.2)).map (·.1)
  let zero (k : Nat) : Bool := celUp s.dev (k / 2 ^ 20)
  let units (u : Nat) : Bool := ps.contains (u / 512) && zero (u / 512)
  let s := { s with mem := { s.mem with cel := SMap.erase units s.mem.cel } }
  s.onDev (fun d => ps.foldl (fun d k =>
    let p := k / 2 ^ 20
    let n := k % 2 ^ 20
    let e := celPage d p n
    let d := if stale d e then d.sweepCounted e else d
    (d.sweepDrop p n).setCelPage p n (if zero k then CelPage.empty else ⟨false, e.epoch, sys, t, false, true, false⟩)) d)

/-- The regions of an owner: wing, number, first byte and length. -/
def ownRegions (d : Dev) (sys : Bool) (t : Nat) : List (Nat × Nat × Nat × Nat) :=
  ((upFrom 0 8).map (fun w => (upFrom 0 16).filterMap (fun n =>
    let b := d.rd (rkey (0x008 + w) 0x080 + 8 * n)
    let o := d.rd (rkey (0x008 + w) 0x084 + 8 * n)
    if bits b 15 0 ≠ 0 ∧ o.testBit 9 = sys ∧ (sys ∨ bits o 8 0 = t) then
      some (w, n, w * 2 ^ 34 + bits b 31 16 * 2 ^ 21, bits b 15 0 * 2 ^ 21)
    else none))).flatten

/-- Step 3: zero lines with good codes over the owner's regions of powered wings. -/
def scrubGddr (s : State) (sys : Bool) (t : Nat) : State :=
  (ownRegions s.dev sys t).foldl (fun s r =>
    if s.dev.powered.wings.testBit r.1 then
      let s := { s with mem := s.mem.zero r.2.2.1 r.2.2.2 }
      s.onDev (fun d => d.wroteLines (r.2.2.1 / 64) ((r.2.2.1 + r.2.2.2) / 64))
    else s) s

/-- Step 4: the owner's regions are disabled. -/
def Dev.scrubRegions (d : Dev) (sys : Bool) (t : Nat) : Dev :=
  (ownRegions d sys t).foldl (fun d r => d.wr (rkey (0x008 + r.1) 0x080 + 8 * r.2.1) 0) d

/-- Step 5, the clearing of R436: tiles, mailboxes, sessions, QPs, keys, weight ranges, measurements and the binding. -/
def Dev.scrubClear (d : Dev) (sys : Bool) (t : Nat) : Dev :=
  let ts := (upFrom 0 512).filter (fun i => ¬ (d.pwr.running ++ d.pwr.held).any (fun r => r.covers ⟨rkTile, i, 0⟩))
  let d := ((d.arrFailTiles TILE_RESET (fun i => ts.contains i)).clearTiles ts).tilesIdle ts
  let d := ((upFrom 0 64).filter (mbxOwned d sys t)).foldl (fun d m => d.mbxReset m) d
  let d := if sys then d
    else ((d.closeAll ((upFrom 0 16).filter (fun i => (sessOf d i).st != 0 && (sessOf d i).tenant == some t))).dropQps t).setSessKey t none
  let d : Dev := { d with sec := { d.sec with
    weights := d.sec.weights.filter (fun w => !(w.system == sys && (sys || w.tenant == t)))
    unsealing := d.sec.unsealing.filter (fun j => !(j.key.system == sys && (sys || j.key.tenant == t))) } }
  let d := d.dropRanges (rangeOwned d sys t)
  (((d.wrWide Reg.ATT_M_PROG0 16 0).wrWide Reg.ATT_M_WEIGHT0 16 0).wr Reg.ATT_UNSEALS 0).wr Reg.SEC_BINDING 0

/-- The scrub of one tenant has ended: the next begins, or SCRUB clears and what waited for it goes on. -/
def scrubEnds (s : State) : State :=
  let rest := s.dev.pwr.scrubs.drop 1
  let s := s.onDev (fun d => { d with pwr := { d.pwr with scrubs := rest } })
  match rest with
  | t :: _ => s.onDev (fun d => d.wr Reg.PWR_SCRUB (2 ^ 31 + 2 ^ 24 + t % 2 ^ 10))
  | [] =>
    let s := s.onDev (fun d => ((d.wr Reg.PWR_SCRUB 0).wr Reg.PWR_STATE (clearBit (d.rd Reg.PWR_STATE) 8)).transitionOn)
    if s.dev.pwr.scrubFirst then wavesDown s else s

/-- SCRUB_STEP_DONE. The zero fill of step 3 goes on while a reset of kind W holds a wing it must fill. -/
def execScrubStepDone (s : State) : Host.Outcome State Fault Refusal :=
  match s.dev.pwr.scrubs with
  | [] => done s
  | x :: _ =>
    let t := x % 2 ^ 9
    let sys := x.testBit 9
    let step := scrubStep s.dev
    let waits : Bool := step == 3 && (ownRegions s.dev sys t).any (fun r => wingResets s.dev r.1)
    if moduleResets s.dev ∨ waits then done s
    else
      let s :=
        if step = 1 then s.onDev (fun d => d.setCelKey sys t CelKey.empty)
        else if step = 2 then scrubPages s sys t
        else if step = 3 then scrubGddr s sys t
        else if step = 4 then s.onDev (fun d => d.scrubRegions sys t)
        else s.onDev (fun d => d.scrubClear sys t)
      if step = 5 then done (scrubEnds s)
      else doneDev s (fun d => d.wr Reg.PWR_SCRUB (2 ^ 31 + (step + 1) * 2 ^ 24 + x % 2 ^ 10))

end Sys2Proof.Machine
end

