-- ==== Sys2Proof/Machine/RegRead.lean ====
section
/-! DEFINITION. What a management read returns: the registers computed from state beside those that hold a value, the table
windows (R52), a tenant's view (R435), and the read of any address. -/

namespace Sys2Proof.Machine

/-! ## Words computed from state -/

/-- 32-bit word `i` of a number. -/
def word32 (n i : Nat) : Nat := bits n (32 * i + 31) (32 * i)

/-- A word with a bit for each of 32 things a test names. -/
def flagWord (p : Nat → Bool) : Nat := sumList ((upFrom 0 32).map (fun i => b2n (p i) * 2 ^ i))

/-- The clock grade of a tile: the boot grade, before TILE_TEST the shipped one (R522). -/
def tileGrade (d : Dev) (i : Nat) : Nat :=
  if d.pwr.tested then bits (d.rd (Reg.MOD_FP_GRADE0 + 4 * (i / 16))) (2 * (i % 16) + 1) (2 * (i % 16)) else Config.shipGrade i % 4

/-- TIL_FREQ (R63, R90, R528): MHz of the tile's grade, at most 1,200 while the module is CAPPED, 0 while it is stopped. -/
def tileFreq (d : Dev) (i : Nat) : Nat :=
  if tileStopped d i ∨ ¬ d.powered.halves.testBit (i / 32) ∨ ¬ tileEnabled d i then 0
  else if thmState d = 1 then 1200 else 1500 - 100 * tileGrade d i

/-- TIL_STATUS.STATE (R90). -/
def TileSt.code : TileSt → Nat
  | .off => 0 | .clearing => 1 | .idle => 2 | .busy => 3 | .disabled => 4

/-- BLOCK_STATUS of a page (R47 with the pages' STATUS tables). -/
def ownStatus (d : Dev) (b : Nat) : Nat :=
  match pageOf b with
  | some .til =>
    let t := tile d (b - 0x400)
    tileGrade d (b - 0x400) * 2 ^ 6 + b2n t.parked * 2 ^ 5 + t.st.code
  | some .arr => arrState d * 2 ^ 8 + arrQueued d
  | some .lnk =>
    let x := portOf d (b - 0x020)
    x.width * 2 ^ 16 + x.reason * 2 ^ 12 + b2n x.compat * 2 ^ 11 + b2n x.rot.isSome * 2 ^ 10 + x.miswire * 2 ^ 7 + x.st.code
  | some .col => colState d
  | _ => 0

/-- STATUS of a page. -/
def pageStatus (d : Dev) (b : Nat) : Nat := if b = 0x061 then recStatus d else statusWord d b (ownStatus d b)

/-- TOC_ERRN as it reads: PIN at the contact is low while the module drives it, and free otherwise, since another module may hold
the net (R459, R476). -/
def tocErrnWord (d : Dev) : Nat :=
  setBits (setBits (d.rd Reg.TOC_ERRN) 31 31 (b2n (errnDriving d || d.fresh.testBit 0))) 30 30 (b2n (errnDriving d))

/-- Sources in a state that a test names. -/
def srcCount (d : Dev) (p : SrcState → Bool) : Nat := (d.toc.src.filter (fun x => p x.2.st)).length

/-- Weight keys of an owner, or of all. -/
def weightCount (d : Dev) (p : WeightKey → Bool) : Nat := (d.sec.weights.filter p).length

/-- SEC_KEYS (R443). -/
def secKeys (d : Dev) : Nat :=
  let held := b2n d.sec.config.isSome
  held + 2 * held + 4 * b2n d.host.cak.isSome + 8 * held + weightCount d (fun _ => true) * 2 ^ 8 +
    ((upFrom 0 64).filter (keyRangeValid d)).length * 2 ^ 16

/-- RST_ACTIVE (R520): the kinds that run, and whether a scope is held. -/
def rstActive (d : Dev) : Nat :=
  sumList ((upFrom 0 6).map (fun k => b2n (d.pwr.running.any (fun r => r.kind == k)) * 2 ^ k)) + b2n (d.pwr.held != []) * 2 ^ 31

/-- The hottest die that reads (THM_STATE [11:8]). -/
def hottest (d : Dev) : List Nat → Nat → Nat
  | [], b => b
  | i :: is, b =>
    hottest d is (match dieTemp d i, dieTemp d b with
      | some t, some u => if u < t then i else b
      | some _, none => i
      | none, _ => b)

/-- THM_STATE as it reads. -/
def thmWord (d : Dev) : Nat := thmState d + b2n d.pwr.thermN * 2 ^ 4 + hottest d (upFrom 1 8) 0 * 2 ^ 8

/-- MOD_FP_COUNT: enabled tiles at boot and as shipped. -/
def fpCount (d : Dev) : Nat :=
  tilesEnabled d * 2 ^ 16 + ((upFrom 0 512).filter (fun i => Config.shipEnabled i)).length

/-- MOD_BOOT as it reads: stage READY (0xB) once the agent is READY (R503). -/
def modBoot (d : Dev) : Nat :=
  let v := d.rd Reg.MOD_BOOT
  if bits v 31 28 = 0xA ∧ agtSt d = agReady then setBits v 31 28 0xB else v

/-- A number of ticks that has still to pass of a time that began at a tick: in units of `unit` ticks. -/
def timeLeft (d : Dev) (total at_ unit : Nat) : Nat := total - (d.clk.aon - at_) / unit

/-- The registers whose word is computed, by key; none for a register that holds its value. -/
def derived (d : Dev) (master key : Nat) : Option Nat :=
  let b := key / 0x1000
  let off := key % 0x1000
  match pageOf b with
  | some .hall => none
  | some .mod =>
    if key = Reg.MOD_ACCESS_STATUS then some (d.rd (bankKey master key))
    else if 0x200 ≤ off ∧ off < 0x240 then some (flagWord (fun i => Config.shipEnabled ((off - 0x200) / 4 * 32 + i)))
    else if 0x240 ≤ off ∧ off < 0x280 then some (flagWord (fun i => tileEnabled d ((off - 0x240) / 4 * 32 + i)))
    else if 0x280 ≤ off ∧ off < 0x300 then
      some (sumList ((upFrom 0 16).map (fun k => tileGrade d ((off - 0x280) / 4 * 16 + k) * 2 ^ (2 * k))))
    else if key = Reg.MOD_FP_COUNT then some (fpCount d)
    else if key = Reg.MOD_BOOT then some (modBoot d)
    else none
  | some .til => if off = Reg.TIL_FREQ then some (tileFreq d (b - 0x400)) else none
  | some .clu =>
    if off = Reg.CLU_TILES then
      let t0 := (b - 0x600) * 8
      some (sumList ((upFrom 0 8).map (fun i => b2n (tile d (t0 + i)).parked * 2 ^ (8 + i) + b2n (tileEnabled d (t0 + i)) * 2 ^ i)))
    else none
  | some .cel => if 0x800 ≤ off then some (celKeyOf d false ((off - 0x800) / 4)).word else none
  | some .rtr =>
    if key = Reg.RTR_POOL_FREE then some (poolFree d)
    else if key = Reg.RTR_RA_QUEUED then some d.rtr.ra.length
    else none
  | some .rtb => if key = Reg.RTB_DRAIN_LEFT then some (timeLeft d (d.rd key) d.rtr.drainAt 100) else none
  | some .col =>
    if key = Reg.COL_QUEUED then some d.col.queue.length
    else if key = Reg.COL_ACTIVE then some d.col.parts.length
    else none
  | some .pan => if key = Reg.PAN_SLOTS_FREE then some (panFree d) else none
  | some .grp => if key = Reg.GRP_VALID_COUNT then some (d.col.groups.filter (fun g => g.2.valid)).length else none
  | some .opt => if key = Reg.OPT_FREE then some (optFreeCount d) else none
  | some .eth =>
    if key = Reg.ETH_MAC_LO then some (Config.mac % 2 ^ 32)
    else if key = Reg.ETH_MAC_HI then some (Config.mac / 2 ^ 32 % 2 ^ 16)
    else none
  | some .knk =>
    if key = Reg.KNK_LAST then some (setBits (d.rd key) 30 30 (b2n (d.sec.config.any (fun c => c.knock != 0))))
    else if key = Reg.KNK_COUNTER_HI then some (d.rd (bankKey 0 key))
    else none
  | some .sec =>
    if key = Reg.SEC_LC then some (lcWord d)
    else if key = Reg.SEC_IDCODE then some idcodeWord
    else if Reg.SEC_OWNER_ID0 ≤ key ∧ key < Reg.SEC_BINDING then some (word32 (ownerIdOf d) ((key - Reg.SEC_OWNER_ID0) / 4))
    else if key = Reg.SEC_KEYS then some (secKeys d)
    else none
  | some .key =>
    if key = Reg.KEY_STORE_STATE then some (setBits (d.rd key) 6 0 (weightCount d (fun _ => true)))
    else if 0x800 ≤ off then
      let t := (off - 0x800) / 4
      some (b2n (sessKey d t).isSome * 2 ^ 31 + weightCount d (fun w => !w.system && w.tenant == t))
    else none
  | some .att =>
    if 0x140 ≤ off ∧ off < 0x180 then some (word32 (d.bel.extension.getD 0) ((off - 0x140) / 4))
    else if 0x180 ≤ off ∧ off < 0x1C0 then some (word32 (d.bel.parlour.getD 0) ((off - 0x180) / 4))
    else none
  | some .dbg =>
    if Reg.DBG_CHALLENGE0 ≤ key ∧ key < Reg.DBG_CHALLENGE0 + 32 then some (word32 (dbgChallenge d) ((key - Reg.DBG_CHALLENGE0) / 4))
    else if key = Reg.DBG_LEASE_LEFT then some (timeLeft d (d.rd key) d.sec.leaseAt (10 ^ 8))
    else none
  | some .toc =>
    if key = Reg.TOC_FAULT_COUNT then some (srcCount d (fun s => s != .idle))
    else if key = Reg.TOC_SEVERE_COUNT then some (srcCount d (fun s => s == .severe || s == .rail))
    else if 0x400 ≤ off ∧ off < 0x800 then
      some (sumList ((upFrom 0 4).map (fun i => cfgByte d (off - 0x400 + i) * 2 ^ (8 * i))))
    else if 0x800 ≤ off ∧ off < 0x900 then
      some (sumList ((upFrom 0 16).map (fun k => (tocSrc d ((off - 0x800) / 4 * 16 + k)).st.code * 2 ^ (2 * k))))
    else if 0xC00 ≤ off then some (sumList ((upFrom 0 4).map (fun i => (tocSrc d (off - 0xC00 + i)).count * 2 ^ (8 * i))))
    else none
  | some .recorder =>
    if key = Reg.REC_PERM_FILL then some (permFill d)
    else if key = Reg.REC_CIRC_HEAD then some (recHead d)
    else if key = Reg.REC_NEXT_NUM_LO then some (d.recd.nextNum % 2 ^ 32)
    else if key = Reg.REC_CLEAR_COUNT then some (d.recd.clears % 2 ^ 32)
    else none
  | some .bel => if key = Reg.BEL_HEALTH_AGE then some (healthAge d) else none
  | some .agt =>
    if key = Reg.AGT_STATE then some (agtWord d)
    else if key = Reg.AGT_PEAL_HELD then some (d.agt.peal.pieces.length % 2 ^ 16)
    else none
  | some .rst => if key = Reg.RST_ACTIVE then some (rstActive d) else none
  | some .thm =>
    if key = Reg.THM_STATE then some (thmWord d)
    else if Reg.THM_DIE ≤ key ∧ key < Reg.THM_WARN then
      let v := d.rd key
      some (if (dieTemp d ((key - Reg.THM_DIE) / 4)).isSome then v else v % 2 ^ 31)
    else none
  | some .ptp =>
    if key = Reg.PTP_CAL_LO then some (d.clk.cal % 2 ^ 32)
    -- the read that follows one of PTP_GM_LO shows what that one latched (DESIGN CHOICE, log entry 256)
    else if key = Reg.PTP_GM_HI ∧ d.rd (bankKey 1 key) = 1 then some (d.rd (bankKey 0 key))
    else none
  | some .msr => if key = Reg.MSR_NUMBER_LO then some (d.rtr.measure % 2 ^ 32) else none
  | some .lnk =>
    let x := portOf d (b - 0x020)
    if off = Reg.LNK_TX_FRAMES_LO then some (x.txFrames % 2 ^ 32)
    else if off = Reg.LNK_RX_FRAMES_LO then some (x.rxFrames % 2 ^ 32)
    else none
  | _ => none

/-- What else a read of a register does: a _LO register latches its _HI register (R206, R392, R479, R535), a lowest-count register
starts again from the present count (R295, R296), and the counts of Tocsin sources clear (R476). -/
def Dev.readEffect (d : Dev) (key : Nat) : Dev :=
  let b := key / 0x1000
  let off := key % 0x1000
  match pageOf b with
  | some .lnk =>
    let x := portOf d (b - 0x020)
    if off = Reg.LNK_TX_FRAMES_LO then d.wr (rkey b Reg.LNK_TX_FRAMES_HI) (x.txFrames / 2 ^ 32)
    else if off = Reg.LNK_RX_FRAMES_LO then d.wr (rkey b Reg.LNK_RX_FRAMES_HI) (x.rxFrames / 2 ^ 32)
    else d
  | some .ptp =>
    if key = Reg.PTP_CAL_LO then d.wr Reg.PTP_CAL_HI (d.clk.cal / 2 ^ 32)
    else if key = Reg.PTP_GM_LO then (d.wr (bankKey 0 Reg.PTP_GM_HI) (d.rd Reg.PTP_GM_HI)).wr (bankKey 1 Reg.PTP_GM_HI) 1
    else if key = Reg.PTP_GM_HI then d.wr (bankKey 1 Reg.PTP_GM_HI) 0
    else d
  | some .knk => if key = Reg.KNK_COUNTER_LO then d.wr (bankKey 0 Reg.KNK_COUNTER_HI) (d.rd Reg.KNK_COUNTER_HI) else d
  | some .msr => if key = Reg.MSR_NUMBER_LO then d.wr Reg.MSR_NUMBER_HI (d.rtr.measure / 2 ^ 32) else d
  | some .recorder => if key = Reg.REC_NEXT_NUM_LO then d.wr Reg.REC_NEXT_NUM_HI (d.recd.nextNum / 2 ^ 32 % 2 ^ 16) else d
  | some .pan => if key = Reg.PAN_SLOTS_LOW then d.wr key (panFree d) else d
  | some .opt => if key = Reg.OPT_LOW then d.wr key (optFreeCount d) else d
  | some .toc =>
    if 0xC00 ≤ off then
      (upFrom (off - 0xC00) 4).foldl (fun d i => d.setTocSrc i { tocSrc d i with count := 0 }) d
    else d
  | _ => d

/-- A read of a page: status, value and the device after it. -/
def Dev.pageRead (d : Dev) (master b off : Nat) : Nat × Nat × Dev :=
  let key := rkey b off
  if b = 0x050 ∧ 0x080 ≤ off then d.mbxRead master off
  else if off = 0x014 then (OK, pageStatus d b, d)
  else if key = Reg.TOC_ERRN then (OK, tocErrnWord d, d.used)
  else
    let r := d.plainRead master key
    (OK, (derived d master key).getD r.1, r.2.readEffect key)

/-! ## Table windows (R52) -/

/-- Word `i` of a table that holds numbers under keys. -/
def tableByte (m : SMap Nat) (k : Nat) : Nat := SMap.get (fun _ => 0) m k

/-- An operation-table entry as it reads (R296). -/
def OptEntry.word (e : OptEntry) : Nat :=
  if e.kind = 0 then 0
  else (e.kind % 16) * 2 ^ 124 + (e.gen % 16) * 2 ^ 120 + (e.status % 256) * 2 ^ 112 + (e.state % 16) * 2 ^ 108 +
    (e.group % 4096) * 2 ^ 96 + (e.cseq % 2 ^ 16) * 2 ^ 80 + (e.done % 2 ^ 32) * 2 ^ 32 + e.total % 2 ^ 32

/-- A group entry as it reads (R256). -/
def Grp.wide (x : Grp) : Nat := x.word % 2 ^ 64 + (x.self % 2 ^ 15) * 2 ^ 64 + (x.digest % 2 ^ 64) * 2 ^ 128

/-- The 32-bit word at an offset of a route bank's slot (R227). -/
def bankWord (d : Dev) (b off : Nat) : Nat :=
  if off < 0x20000 then routeEntry d b (off / 4)
  else if off < 0x20040 then tableByte d.rtr.sets (b * 16 + (off - 0x20000) / 4)
  else if 0x20100 ≤ off ∧ off < 0x20300 then
    sumList ((upFrom 0 4).map (fun i => tableByte d.rtr.tmap (b * 512 + (off - 0x20100) + i) * 2 ^ (8 * i)))
  else if off = 0x20300 then tableByte d.rtr.sysSet b
  else if 0x30000 ≤ off ∧ off < 0x50000 then
    let t := b * 2 ^ 16 + (off - 0x30000) / 2
    tableByte d.rtr.members t + tableByte d.rtr.members (t + 1) * 2 ^ 16
  else 0

/-- The 32-bit word at an offset of a slot; 0 beyond a table's end. DESIGN CHOICE (log entry 223): slot 4 shows the journal page, which
has no entry of its own, as 0. -/
def slotWord (d : Dev) (s off : Nat) : Nat :=
  match s with
  | 0 => bankWord d 0 off
  | 1 => bankWord d 1 off
  | 2 =>
    if off < 0x20000 then word32 (grp d (off / 32)).wide (off % 32 / 4)
    else if off < 0xA0000 then
      tableByte d.col.pool ((off - 0x20000) / 2) + tableByte d.col.pool ((off - 0x20000) / 2 + 1) * 2 ^ 16
    else 0
  | 3 => if off < 0x10000 then word32 (windowEntry d (off / 16)) (off % 16 / 4) else 0
  | 4 =>
    let p := off / 0x400000
    let n := off / 4 % 2 ^ 20
    if off < 0x1000000 ∧ n < celCap d p then (celPage d p n).word else 0
  | 5 => if off < 0x10000 then word32 (optEntry d (off / 16)).word (off % 16 / 4) else 0
  | 6 => if off < 0x800 then word32 (tableByte d.acc.policy (off / 8)) (off % 8 / 4) else 0
  | _ => 0

/-- A read of 4 or 8 bytes of a slot. -/
def slotRead (d : Dev) (s off width : Nat) : Nat :=
  slotWord d s off + (if width = 64 then slotWord d s (off + 4) * 2 ^ 32 else 0)

/-- Entries of a table are read in turn: whether all are usable. -/
def readAll (f : Dev → Nat → Bool × Dev) : List Nat → Dev → Bool × Dev
  | [], d => (true, d)
  | i :: is, d => let r := f d i; let q := readAll f is r.2; (r.1 && q.1, q.2)

/-- The entries that a read of a slot touches pass their table's checker (R149, R168, R234, R253, R256, R297). -/
def Dev.slotCheck (d : Dev) (s off width : Nat) : Bool × Dev :=
  match s with
  | 0 => if off < 0x20000 then readAll (fun d i => d.routeRead 0 i) (upFrom (off / 4) (width / 32)) d else (true, d)
  | 1 => if off < 0x20000 then readAll (fun d i => d.routeRead 1 i) (upFrom (off / 4) (width / 32)) d else (true, d)
  | 2 =>
    if off < 0x20000 then d.grpRead
    else if off < 0xA0000 then readAll (fun d _ => d.grpRead) (upFrom 0 (width / 16)) d
    else (true, d)
  | 4 => if off < 0x1000000 then readAll (fun d i => d.entryRead4 i) (upFrom (off / 4) (width / 32)) d else (true, d)
  | 5 => if off < 0x10000 then d.optRead (off / 16) else (true, d)
  | _ => (true, d)

/-- A read of a slot over management. What one of an uncorrectable entry returns the spec leaves open: a free value (log entry
211). -/
def Dev.slotReadAt (d : Dev) (s off width : Nat) : Nat × Nat × Dev :=
  let r := d.slotCheck s off width
  if r.1 then (OK, slotRead d s off width, r.2) else (OK, r.2.fresh % 2 ^ width, r.2.used)

/-! ## A tenant's view (R435) -/

/-- A register that a tenant's read reaches as any master's does. -/
def tenantExact (d : Dev) (t b off : Nat) : Bool :=
  match pageOf b with
  | some .arr | some .col | some .wng | some .gd | some .til | some .clu => boundTo d t
  | some .mbx => mbxExact d t off
  | some .cel => rkey b off == Reg.CEL_TKEY + 4 * t
  | _ => false

/-- What a tenant sees of the word of another register: power and temperature rounded, else 0. -/
def tenantRounded (b off v : Nat) : Nat :=
  let key := rkey b off
  match pageOf b with
  | some .pwr => if key = Reg.PWR_INPUT ∨ key = Reg.PWR_PEAK then v % 2 ^ 16 - v % 2 ^ 16 % 10 else 0
  | some .thm =>
    if Reg.THM_DIE ≤ key ∧ key < Reg.THM_WARN ∧ v.testBit 31 then 2 ^ 31 + unsigned 16 (signed 16 v - signed 16 v % 10) else 0
  | _ => 0

/-- The effect of a management read of any address that passed the checks. What a tenant may not see is read without side effect, and
so is everything during a scrub (R435, R516). -/
def Dev.readAt (d : Dev) (master addr width : Nat) : Nat × Nat × Dev :=
  match tenantMaster d master, mTarget addr with
  | none, .page b off => d.pageRead master b off
  | none, .slot s off => d.slotReadAt s off width
  | some t, .page b off =>
    if windowCheck.scrubbing d then (SCRUB, 0, d)
    else if tenantExact d t b off then d.pageRead master b off
    else (OK, tenantRounded b off (d.pageRead master b off).2.1, d)
  | some _, .slot _ _ => (if windowCheck.scrubbing d then SCRUB else OK, 0, d)
  | _, .nowhere => (NO_PAGE, 0, d)

end Sys2Proof.Machine
end

