-- ==== Sys2Proof/Machine/RegWrite.lean ====
section
/-! DEFINITION. The effect of a write on every register and table (R48, R50, R52, R55 and the register tables of the chapters), what
an access comes to that waited or stands in a message (R38, R46, R56, R371), and the commands that write registers without a command
of their own. -/

namespace Sys2Proof.Machine

/-! ## The header registers -/

/-- A write of a CTRL register. -/
def ctrlEffect (master b v : Nat) (s : State) : Nat × State :=
  match pageOf b with
  | some .arr => arrCtrlEffect master v s
  | some .col => colCtrlEffect master v s
  | some .cel => celCtrlEffect v s
  | some .lnk => devEffect (fun d => d.lnkCtrl master (b - 0x020) v) s
  | some .recorder => devEffect (fun d => (OK, d.recFreezeTo (v.testBit 0) master)) s
  | _ => plainEffect master (rkey b 0x010) v s

/-- A write of a header register. -/
def headerEffect (master b off v : Nat) (s : State) : Nat × State :=
  if off = 0x010 then ctrlEffect master b v s else (OK, s.onDev (fun d => d.headerWrite master b off v))

/-! ## Block-specific registers -/

/-- A core writes its call record: a record with GO and an unknown code is answered OUT_OF_RANGE at once (R300). -/
def callEffect (master key v : Nat) (s : State) : Nat × State :=
  let r := plainEffect master key v s
  if (key = Reg.BEL_CALL_A ∨ key = Reg.BEL_CALL_B) ∧ v.testBit 31 ∧ ¬ v.testBit 30 ∧ ¬ (1 ≤ bits v 23 16 ∧ bits v 23 16 ≤ 7) then
    (OK, r.2.onDev (fun d => (d.wr key (setBits (setBits (d.rd key) 30 30 1) 7 0 OUT_OF_RANGE)).raise 0x068 4))
  else r

/-- The thresholds of THM stay in order (R536), and the readings are held against the new ones (R528). -/
def thmEffect (master key v : Nat) (s : State) : Nat × State :=
  if (key = Reg.THM_WARN ∧ s.dev.rd Reg.THM_CRITICAL ≤ v) ∨ (key = Reg.THM_CRITICAL ∧ v ≤ s.dev.rd Reg.THM_WARN) then (OUT_OF_RANGE, s)
  else
    let r := plainEffect master key v s
    (r.1, r.2.onDev Dev.thmCheck)

/-- RTR_RA_TENANT changes only while the engine is idle (R219). -/
def raTenantEffect (master v : Nat) (s : State) : Nat × State :=
  if s.dev.rtr.ra ≠ [] then (OUT_OF_RANGE, s) else plainEffect master Reg.RTR_RA_TENANT v s

/-- RTB_DIMS does not change while a bank is LIVE (R363). -/
def dimsEffect (master v : Nat) (s : State) : Nat × State :=
  if anyLive s.dev then (OUT_OF_RANGE, s) else plainEffect master Reg.RTB_DIMS v s

/-- A write of a block-specific register, by key. -/
def blockEffect (master key v : Nat) (s : State) : Nat × State :=
  let b := key / 0x1000
  let off := key % 0x1000
  match pageOf b with
  | some .arr =>
    if key = Reg.ARR_CPL_SIZE then cplRingEffect master key v s
    else if key = Reg.ARR_SUBMIT then arrSubmitEffect master v s
    else if key = Reg.ARR_CPL_TAIL then cplTailEffect master v s
    else if key = Reg.ARR_TENANT then arrTenantEffect master v s
    else plainEffect master key v s
  | some .col =>
    if key = Reg.COL_SUBMIT then colSubmitEffect v s
    else if key = Reg.COL_TENANT then colTenantEffect master v s
    else plainEffect master key v s
  | some .cel =>
    if 0x100 ≤ off ∧ off < 0x180 ∧ off % 16 = 0 then copySubmitEffect ((off - 0x100) / 16) v s
    else if 0x100 ≤ off ∧ off < 0x180 ∧ off % 16 = 4 then ceTenantEffect master ((off - 0x100) / 16) v s
    else plainEffect master key v s
  | some .rtr =>
    if key = Reg.RTR_MA then devEffect (fun d => d.rtrMa v) s
    else if key = Reg.RTR_RA_SUBMIT then raSubmitEffect v s
    else if key = Reg.RTR_RA_TENANT then raTenantEffect master v s
    else plainEffect master key v s
  | some .rtb =>
    if key = Reg.RTB_SEAL then devEffect (fun d => d.rtbSeal v) s
    else if key = Reg.RTB_UNSEAL then devEffect (fun d => d.rtbUnseal v) s
    else if key = Reg.RTB_FLIP then devEffect (fun d => d.rtbFlip v) s
    else if key = Reg.RTB_SALT0 ∨ key = Reg.RTB_SALT1 then devEffect (fun d => d.rtbParam false ((key - Reg.RTB_SALT0) / 4) v) s
    else if key = Reg.RTB_MAX_HOPS0 ∨ key = Reg.RTB_MAX_HOPS1 then
      devEffect (fun d => d.rtbParam true ((key - Reg.RTB_MAX_HOPS0) / 4) v) s
    else if key = Reg.RTB_DIMS then dimsEffect master v s
    else if key = Reg.RTB_GEN then devEffect (fun d => d.rtbGen v) s
    else plainEffect master key v s
  | some .grp => if key = Reg.GRP_DISABLE then devEffect (fun d => d.grpDisable v) s else plainEffect master key v s
  | some .bel =>
    if key = Reg.BEL_ALIVE then devEffect (fun d => d.aliveWrite master) s
    else if key = Reg.BEL_SWITCH then devEffect (fun d => d.switchWrite master v) s
    else if key = Reg.BEL_HEALTH then devEffect (fun d => d.healthWrite master v) s
    else if 0x800 ≤ off then callEffect master key v s
    else plainEffect master key v s
  | some .agt =>
    if key = Reg.AGT_PORT_PLAN then devEffect (fun d => d.portPlan master v) s
    else if (key = Reg.AGT_VOTER01 ∨ key = Reg.AGT_VOTER2) ∧ master = 0x80 ∧ trioMode s.dev then
      devEffect (fun d => (OK, d.nameVoters key v)) s
    else plainEffect master key v s
  | some .eth =>
    if Reg.ETH_SLOT ≤ key ∧ key < Reg.ETH_DROP_COUNT then slotWriteEffect master ((key - Reg.ETH_SLOT) / 4) v s
    else plainEffect master key v s
  | some .toc =>
    if 0x400 ≤ off ∧ off < 0x800 then devEffect (fun d => d.tocCfgWrite ((off - 0x400) / 4) v) s
    else if key = Reg.TOC_ERRN then devEffect (fun d => d.tocErrnWrite v) s
    else if key = Reg.TOC_RAILTEST then devEffect (fun d => d.railTest v) s
    else plainEffect master key v s
  | some .recorder =>
    if key = Reg.REC_SW_APPEND then devEffect (fun d => d.swAppend master v) s
    else if key = Reg.REC_READ_SEL then devEffect (fun d => d.readSel v) s
    else plainEffect master key v s
  | some .rst => if key = Reg.RST_REQUEST then devEffect (fun d => d.rstRequest v) s else plainEffect master key v s
  | some .pwr => if key = Reg.PWR_TARGET then targetEffect v s else plainEffect master key v s
  | some .thm => thmEffect master key v s
  | some .lnk =>
    if off = Reg.LNK_ADMIT then devEffect (fun d => d.lnkAdmit (b - 0x020) v) s else plainEffect master key v s
  | _ => plainEffect master key v s

/-! ## Table windows -/

/-- A policy entry takes a value: a valid entry with an inverted range is refused (R55). -/
def Dev.policyPut (d : Dev) (i v : Nat) : Nat × Dev :=
  let e := v &&& 0xFFFFFFFFFF00F000
  if e.testBit 15 ∧ (bits e 63 56 < bits e 55 48 ∨ bits e 47 36 < bits e 35 24) then (OUT_OF_RANGE, d)
  else (OK, { d with acc := { d.acc with policy := SMap.put (fun _ => 0) d.acc.policy i e } })

/-- A write of `n` bytes at an offset of slot 6. -/
def Dev.policyWrite (d : Dev) (off n v : Nat) : Nat × Dev :=
  let i := off / 8
  let old := tableByte d.acc.policy i
  if 256 ≤ i then (OK, d)
  else if n = 8 then d.policyPut i v
  else if off % 8 = 0 then d.policyPut i (setBits old 31 0 v)
  else d.policyPut i (setBits old 63 32 v)

/-- A write of one 32-bit word of a slot whose entries are words. -/
def Dev.slotWrite4 (d : Dev) (s off v : Nat) : Nat × Dev :=
  match s with
  | 0 => d.bankWrite 0 off v
  | 1 => d.bankWrite 1 off v
  | 4 => if off < 0x1000000 then d.celEntryWrite (off / 0x400000) (off / 4 % 2 ^ 20) v else (OK, d)
  | _ => (OK, d)

/-- A write in a slot (R52): one of 64 bits to a table of words writes both or, when either is refused, none. -/
def Dev.slotWrite (d : Dev) (s off width v : Nat) : Nat × Dev :=
  let n := width / 8
  match s with
  | 2 => d.grpSlotWrite off n v
  | 3 => if off < 0x10000 then d.windowWrite (off / 16) (off % 16) n v else (OK, d)
  | 5 => (OK, d)
  | 6 => d.policyWrite off n v
  | _ =>
    if n = 4 then d.slotWrite4 s off v
    else
      let r := d.slotWrite4 s off (v % 2 ^ 32)
      if r.1 ≠ OK then (r.1, d)
      else
        let q := r.2.slotWrite4 s (off + 4) (v / 2 ^ 32)
        if q.1 ≠ OK then (q.1, d) else q

/-! ## Accesses of any address -/

/-- The effect of a write of an address that passed the checks. -/
def writeEffect (master addr width v : Nat) (s : State) : Nat × State :=
  match mTarget addr with
  | .page b off => if off < 0x080 then headerEffect master b off v s else blockEffect master (rkey b off) v s
  | .slot n off => devEffect (fun d => d.slotWrite n off width v) s
  | .nowhere => (NO_PAGE, s)

/-- The offset of an address in the MBX page, whose writes may wait. -/
def mbxAddr (addr width : Nat) : Option Nat :=
  match mTarget addr with
  | .page b off => if b = 0x050 ∧ width = 32 ∧ off % 4 = 0 then some off else none
  | _ => none

/-- A write that its page takes: the status, none for a post that waits for FIFO space (R399), and the state after it. -/
def pageWrite (a : Access1) (s : State) : Option Nat × State :=
  match mbxAddr a.addr a.width with
  | some off => let r := s.dev.mbxWrite a.master off a.value a.entry; (r.1, { s with dev := r.2 })
  | none => let r := writeEffect a.master a.addr a.width a.value s; (some r.1, r.2)

/-- What the AGT hardware's write of one entry of a message comes to (R371, R373): the status it is answered with, or none when its
page does not answer yet. -/
def entryWrite (master addr width v : Nat) (s : State) : Option Nat × State :=
  let a : Access1 := ⟨master, addr, true, width, v, accessCheck s.dev master addr width true v, true, none⟩
  let settle (st : Nat) (s : State) : Option Nat × State := (some st, s.onDev (fun d => d.settleStatus master addr st))
  if accessBehind s.dev master addr then (none, s.onDev (fun d => d.holdAccess a))
  else if a.st ≠ OK then settle a.st s
  else
    let r := pageWrite a s
    if pageSilent s.dev addr true then (if r.1 = some OUT_OF_RANGE then settle OUT_OF_RANGE s else (none, s.onDev (fun d => d.holdAccess a)))
    else if r.1 = some WAITS then (none, s.onDev (fun d => d.holdAccess a))
    else match r.1 with
      | some st => settle st r.2
      | none => (none, r.2)

/-- The same for a read: status and value, none when the page does not answer yet, and the state after it. -/
def entryRead (master addr width : Nat) (s : State) : Option (Nat × Nat) × State :=
  let st := accessCheck s.dev master addr width false 0
  let wait : Option (Nat × Nat) × State := (none, s.onDev (fun d => d.holdAccess ⟨master, addr, false, width, 0, st, true, none⟩))
  if accessBehind s.dev master addr then wait
  else if st ≠ OK then (some (st, 0), s.onDev (fun d => d.settleStatus master addr st))
  else if pageSilent s.dev addr false then wait
  else
    let r := s.dev.readAt master addr width
    (some (r.1, if r.1 = OK then r.2.1 else 0), { s with dev := r.2.2.settleStatus master addr r.1 })

/-- What a waiting access comes to when its page answers: status, value and the state after it; no status for a post that goes on
waiting for FIFO space. -/
def heldEffect (a : Access1) (s : State) : Option Nat × Nat × State :=
  let st := heldStatus s.dev a
  if a.answer.isSome then (a.answer, 0, s)
  else if st ≠ OK then (some st, 0, s)
  else if a.write then let r := pageWrite a s; (r.1, 0, r.2)
  else
    let r := s.dev.readAt a.master a.addr a.width
    (some r.1, r.2.1, { s with dev := r.2.2 })

/-! ## Commands -/

/-- ERR_FORCE. -/
def execErrForce (master : Byte) (block : BitVec 12) (value : Word) (s : State) : Host.Outcome State Fault Refusal :=
  done (mgmtWrite master.toNat (mAddr (rkey block.toNat 0x028)) 32 value.toNat
    (fun s => (OK, s.onDev (fun d => d.forceErrors block.toNat value.toNat (upFrom 0 32)))) s)

/-- ERR_INVCHK. -/
def execErrInvchk (master : Byte) (block : BitVec 12) (value : Word) (s : State) : Host.Outcome State Fault Refusal :=
  done (mgmtWrite master.toNat (mAddr (rkey block.toNat 0x02C)) 32 value.toNat
    (fun s => (OK, s.onDev (fun d => d.armChecks block.toNat value.toNat))) s)

/-- POLICY_ENTRY_WRITE: a 32-bit write of half an entry. -/
def execPolicyEntryWrite (master entry : Byte) (high : Bool) (value : Word) (s : State) : Host.Outcome State Fault Refusal :=
  let off := 8 * entry.toNat + 4 * b2n high
  done (mgmtWrite master.toNat (0x0260000000 + off) 32 value.toNat (devEffect (fun d => d.policyWrite off 4 value.toNat)) s)

/-- PAGE_ANSWER_LATE: the answer is discarded and changes nothing else. -/
def execPageAnswerLate (master : Byte) (addr : BitVec 40) (s : State) : Host.Outcome State Fault Refusal :=
  doneDev s (fun d =>
    match takeFirst (fun a => a.master == master.toNat && a.addr == addr.toNat) d.acc.late with
    | some (_, rest) => { d with acc := { d.acc with late := rest } }
    | none => d)

/-- ISLAND_STOP (R38). -/
def execIslandStop (i : Island) (s : State) : Host.Outcome State Fault Refusal :=
  doneDev s (fun d => if d.stopped.contains i then d else { d with stopped := d.stopped ++ [i] })

end Sys2Proof.Machine
end

