-- ==== Sys2Proof/Machine/TostoReg.lean ====
section
/-! DEFINITION. The Tosto messages that reach registers and mailboxes: REG READ and WRITE (R371-R373), with the accesses that wait
(R38, R56), votes on writes (R316), MBX POST, POLICY_SET (R351), and DEBUG ACCESS (R438). -/

namespace Sys2Proof.Machine

/-! ## Bodies (R372) -/

/-- The entries of a REG READ body: address and width in bytes; none for a body that is not as R372 lays it out. -/
def readEntries (b : List Byte) : Option (List (Nat × Nat)) :=
  let n := field b 0 1
  let es := (upFrom 0 n).map (fun i => (field b (4 + 8 * i) 5, field b (9 + 8 * i) 1, field b (10 + 8 * i) 2))
  if n ≤ 64 ∧ field b 1 3 = 0 ∧ b.length = 4 + 8 * n ∧ es.all (fun e => (e.2.1 == 4 || e.2.1 == 8) && e.2.2 == 0) then
    some (es.map (fun e => (e.1, e.2.1)))
  else none

/-- The entries of a REG WRITE body. -/
def writeEntries (b : List Byte) : Option (List RegEntry) :=
  let n := field b 4 1
  let es := (upFrom 0 n).map (fun i => (⟨field b (8 + 16 * i) 5, field b (13 + 16 * i) 1, field b (16 + 16 * i) 8⟩ : RegEntry))
  if n ≤ 64 ∧ field b 5 3 = 0 ∧ b.length = 8 + 16 * n ∧ es.all (fun e => e.width == 4 || e.width == 8) ∧
      (upFrom 0 n).all (fun i => field b (14 + 16 * i) 2 == 0) then some es
  else none

/-! ## One entry -/

/-- A write of a manager or host entry under its master ID. -/
def plainEntry (master : Nat) (e : RegEntry) (s : State) : Option Nat × State :=
  entryWrite master e.addr (8 * e.width) (e.value % 2 ^ (8 * e.width)) s

/-- A write of a voter: held, applied at its second vote, or refused (R316). -/
def votedEntry (src wseq : Nat) (e : RegEntry) (s : State) : Option Nat × State :=
  let r := s.dev.vote src wseq e.addr e.width (e.value % 2 ^ (8 * e.width))
  let s := { s with dev := r.2.2 }
  if r.1 ≠ OK ∨ ¬ r.2.1 then (some r.1, s) else plainEntry 0x80 e s

/-- A message that came over the fabric. -/
def fromFabric (m : TMsg) : Bool := match m.src with | .fabric _ | .relay _ _ _ => true | _ => false

/-! ## Runs of accesses (R371-R373) -/

/-- A request waits: an entry's page does not answer yet. -/
def State.holdRun (s : State) (r : MsgRun) : State :=
  s.onDev (fun d => { d with acc := { d.acc with runs := d.acc.runs ++ [r] } })

/-- A fabric reply to a read carries AGT_TERM after its entries (R306). -/
def readTail (d : Dev) (m : TMsg) : List Byte := if fromFabric m then leBytes 4 (d.rd Reg.AGT_TERM) else []

/-- An entry of a REG READ reply: its status and value. -/
def readItem (st v : Nat) : List Byte := leBytes 1 st ++ leBytes 7 0 ++ leBytes 8 v

/-- The reads of a request in order, after what its reply holds already: every read is made (R373). -/
def runReads (m : TMsg) (master : Nat) : List (Nat × Nat) → List Byte → State → State
  | [], out, s => s.onDev (fun d => d.reply m OK (out ++ readTail d m))
  | e :: es, out, s =>
    match entryRead master e.1 (8 * e.2) s with
    | (some r, s) => runReads m master es (out ++ readItem r.1 r.2) s
    | (none, s) => s.holdRun ⟨m, master, e :: es, [], 0, out⟩

/-- The answer to a REG WRITE: status and the number of entries applied. -/
def Dev.regWriteDone (d : Dev) (m : TMsg) (st n : Nat) : Dev := d.reply m st (leBytes 4 n)

/-- The writes of a request in order, up to the first that is not OK: its status, and the entries applied before it (R373). In
trio mode a fabric write is a vote. -/
def runWrites (m : TMsg) (master : Nat) : List RegEntry → Nat → State → State
  | [], n, s => s.onDev (fun d => d.regWriteDone m OK n)
  | e :: es, n, s =>
    match (if fromFabric m ∧ trioMode s.dev then votedEntry ((msgMa m).getD (2 ^ 15)) m.seq e s else plainEntry master e s) with
    | (some st, s) => if st = OK then runWrites m master es (n + 1) s else s.onDev (fun d => d.regWriteDone m st n)
    | (none, s) => s.holdRun ⟨m, master, [], e :: es, n, []⟩

/-- The waiting entry of a request has completed: the request goes on. -/
def resumeRun (r : MsgRun) (st v : Nat) (s : State) : State :=
  match r.reads, r.writes with
  | _ :: es, _ => runReads r.msg r.master es (r.reply ++ readItem st v) s
  | [], _ :: es => if st = OK then runWrites r.msg r.master es (r.applied + 1) s else s.onDev (fun d => d.regWriteDone r.msg st r.applied)
  | [], [] => s

/-- The address of the entry a request waits for. -/
def MsgRun.waits (r : MsgRun) : Option Nat :=
  match r.reads, r.writes with
  | e :: _, _ => some e.1
  | [], e :: _ => some e.addr
  | [], [] => none

/-- A waiting access completes with a status and a value: at its master, or for the request it is an entry of. -/
def State.completeHeld (s : State) (a : Access1) (st v : Nat) : State :=
  if a.entry then
    let s := s.onDev (fun d => d.settleStatus a.master a.addr st)
    match takeFirst (fun r => r.master == a.master && r.waits == some a.addr) s.dev.acc.runs with
    | some (r, rest) =>
      resumeRun r st (if st = OK then v else 0) { s with dev := { s.dev with acc := { s.dev.acc with runs := rest } } }
    | none => s
  else s.onDev (fun d => d.complete a.master a.addr st v)

/-- A waiting access is answered by its page. -/
def replayOne (a : Access1) (s : State) : State :=
  let r := heldEffect a s
  match r.1 with
  | some st => r.2.2.completeHeld a st r.2.1
  | none => r.2.2

/-- A waiting access completes now: it may, and its effect does not wait for memory. -/
def completesNow (s : State) (a : Access1) : Bool := mayComplete s.dev a && (heldEffect a s).1 != some WAITS

/-- Accesses that may complete take effect, in their order (R38, R46). -/
def replayAccesses : Nat → State → State
  | 0, s => s
  | n + 1, s =>
    match takeHeld (completesNow s) [] s.dev.acc.waiting with
    | none => s
    | some (a, rest) =>
      replayAccesses n (replayOne a { s with dev := { s.dev with acc := { s.dev.acc with waiting := rest } } })

/-- What waited for memory goes on where it answers (R38, R133): completion records, ends of collectives, RoCEv2 requests. -/
def State.wake (s : State) : State :=
  let s := (releaseHeld s)
  (flushDead s.dev.arr.queue.length s).colEndsGo.rdmaGo

/-- Everything that waited and may go on goes on (R38, R46, R133, R399). -/
def State.settle (s : State) : State := replayAccesses s.dev.acc.waiting.length s.wake

/-- A step on an empty queue: one tick, and what may go on goes on (log entry 1). -/
def State.idle (s : State) : State := (s.onDev Dev.tick).settle

/-! ## Accesses of any address -/

/-- A management write of any address. -/
def regWrite (master addr width v : Nat) (s : State) : State :=
  let a : Access1 := ⟨master, addr, true, width, v, accessCheck s.dev master addr width true v, false, none⟩
  (issue a ((pageWrite a s).1.getD OK) (fun s =>
    let r := pageWrite a s
    match r.1 with
    | some st => r.2.onDev (fun d => d.complete master addr st 0)
    | none => r.2) s).settle

/-- A management read of any address. -/
def regRead (master addr width : Nat) (s : State) : State :=
  (mgmtRead master addr width (devReadEffect (fun d => d.readAt master addr width)) s).settle

/-- Accesses of one cycle, in the order a page takes them. -/
def pageAccesses : List PageAccess → State → State
  | [], s => s
  | a :: as, s =>
    pageAccesses as (if a.write then regWrite a.master.toNat a.addr.toNat 32 a.value.toNat s else regRead a.master.toNat a.addr.toNat 32 s)

/-- REGISTER_WRITE: a write of any address. -/
def execRegisterWrite (master : Byte) (addr : BitVec 40) (width : Nat) (value : BitVec 64) (s : State) :
    Host.Outcome State Fault Refusal :=
  done (regWrite master.toNat addr.toNat width (value.toNat % 2 ^ width) s)

/-- WLOCK: the write of the lock bits is ordered before the other accesses that arrive in its cycle (R51). -/
def execWlock (master : Byte) (block : BitVec 12) (value : LockWrite) (s : State) : Host.Outcome State Fault Refusal :=
  done (pageAccesses value.same (mgmtWrite master.toNat (mAddr (rkey block.toNat 0x018)) 32 value.value.toNat
    (fun s => (OK, s.onDev (fun d => d.setLocks block.toNat value.value.toNat))) s))

/-- A post that waits for FIFO space is given up with TIMEOUT: nothing is posted (R399). -/
def Dev.mbxPostTimeout (d : Dev) (master : Nat) : Dev :=
  match (d.mbx.box.flatMap (fun x => x.2.waits)).find? (fun w => w.master == master) with
  | some w => (d.mbxAbandon master).mbxPostAnswer w TIMEOUT
  | none => d

/-- ACCESS_TIMEOUT: a post that waits for FIFO space, or a waiting access, completes with TIMEOUT; the post comes before what waits
behind it (R46, R399). -/
def execAccessTimeout (master : Byte) (addr : BitVec 40) (s : State) : Host.Outcome State Fault Refusal :=
  let m := master.toNat
  if mbxWaiting s.dev m ∧ addr.toNat = mAddr Reg.MBX_TX_POST then done (s.onDev (fun d => d.mbxPostTimeout m)).settle
  else match takeHeld (fun a => a.master == m && a.addr == addr.toNat) [] s.dev.acc.waiting with
  | some (a, rest) =>
    let s : State := { s with dev := { s.dev with acc := { s.dev.acc with waiting := rest, late := s.dev.acc.late ++ [a] } } }
    done (s.completeHeld a TIMEOUT 0).settle
  | none => done s

/-- A device's recalibration ends, and the requests waiting for it proceed (R133). -/
def execGdRecalDone (w : Fin 8) (dev : Fin 3) (s : State) : Host.Outcome State Fault Refusal :=
  if gdState s.dev w.val dev.val = 2 ∧ ¬ s.dev.gdStopped w.val dev.val then
    done (gdProceed (s.onDev (fun d => d.setGdState w.val dev.val 1)) w.val dev.val).settle
  else done s

/-- HALL_TIMEOUT: the request completes with TIMEOUT, counted and reported. -/
def execHallTimeout (src dst : Fin 17) (tag : Nat) (s : State) : Host.Outcome State Fault Refusal :=
  match s.dev.hallExpire src dst tag with
  | some d => done ({ s with dev := (d.count Reg.HALL_TIMEOUT_COUNT).raise 0x010 0 } : State).settle
  | none => done s

/-- ISLAND_RESTART: what waits at the island's crossings completes. -/
def execIslandRestart (i : Island) (s : State) : Host.Outcome State Fault Refusal :=
  if ¬ s.dev.stopped.contains i then done s
  else
    let s := s.onDev (fun d => { d with stopped := d.stopped.filter (fun x => x != i) })
    let s := match i with
      | .hall | .ucie _ _ | .cxl _ | .host => s.onDev (fun d => d.hallRestart)
      | .gddr w dev => if gdState s.dev w.val dev.val = 2 then s else gdProceed s w.val dev.val
      | .router => s.onDev (fun d => (upFrom 0 6).foldl (fun d p => d.linkSend p) d)
      | .lane p _ => s.onDev (fun d => d.linkSend p.val)
      | _ => s
    done s.settle

/-! ## Mailbox registers (R399-R406, R409) -/

/-- MBX_TX_POST. -/
def execMbxTxPost (master : Byte) (value : Word) (s : State) : Host.Outcome State Fault Refusal :=
  done (regWrite master.toNat (mAddr Reg.MBX_TX_POST) 32 value.toNat s)

/-- MBX_RX. -/
def execMbxRx (master : Byte) (m : Fin 64) (s : State) : Host.Outcome State Fault Refusal :=
  done (regRead master.toNat (mAddr (mbxKey Reg.MBXM_RX m.val)) 32 s)

/-- A read of MBXm_DATA whose word's check finds `err`, by a master whose read of it is exact. -/
def Dev.mbxDataRead (d : Dev) (master : Nat) (w : MbxWord) : Nat × Nat × Dev :=
  let off := 0x808 + 0x20 * w.m.val
  match tenantMaster d master with
  | none => d.mbxRead master off w.err
  | some t =>
    if ¬ windowCheck.scrubbing d ∧ mbxExact d t off then d.mbxRead master off w.err
    else d.readAt master (mAddr (0x50000 + off)) 32

/-- MBX_DATA. -/
def execMbxData (master : Byte) (w : MbxWord) (s : State) : Host.Outcome State Fault Refusal :=
  done (mgmtRead master.toNat (mAddr (mbxKey Reg.MBXM_DATA w.m.val)) 32 (devReadEffect (fun d => d.mbxDataRead master.toNat w)) s).settle

/-- What a read of a latch by a master completes with when it is not exact: the status, with value 0 (R435, R516). -/
def latchMasked (d : Dev) (m r : Nat) : Option Nat :=
  match tenantMaster d r with
  | none => none
  | some t => if windowCheck.scrubbing d then some SCRUB else if mbxExact d t (0x800 + 0x20 * m) then none else some OK

/-- The reads of one cycle that a list of masters makes complete, each with what it reads. -/
def Dev.latchAnswers (d : Dev) (m : Nat) (addr : Nat) : List Nat → Dev
  | [] => d
  | r :: rs =>
    Dev.latchAnswers (match latchMasked d m r with
      | some st => d.complete r addr st 0
      | none => d.complete r addr OK (latchValue d m r)) m addr rs

/-- MBX_LATCH: reads of the latch by some masters in one cycle. -/
def execMbxLatch (m : Fin 64) (readers : List Byte) (s : State) : Host.Outcome State Fault Refusal :=
  let addr := mAddr (mbxKey Reg.MBXM_LATCH m.val)
  doneDev s (fun d =>
    let ms := (readers.map (·.toNat)).filter (fun r => !d.coreStopped r)
    let ok (r : Nat) : Bool := accessCheck d r addr 32 false 0 == OK
    let held (r : Nat) : Bool := accessBehind d r addr
    let now := ms.filter (fun r => ok r && !held r)
    let d := (ms.filter (fun r => !held r && !ok r)).foldl (fun d r => d.complete r addr (accessCheck d r addr 32 false 0) 0) d
    let d := (ms.filter held).foldl (fun d r => d.holdAccess ⟨r, addr, false, 32, 0, accessCheck d r addr 32 false 0, false, none⟩) d
    (d.latchReads m.val (now.filter (fun r => (latchMasked d m.val r).isNone))).latchAnswers m.val addr now)

/-- RELEASE: a write of MBXm_CFG that keeps the other fields. -/
def execLatchRelease (master : Byte) (m : Fin 64) (s : State) : Host.Outcome State Fault Refusal :=
  done (regWrite master.toNat (mAddr (mbxKey Reg.MBXM_CFG m.val)) 32 (setBit (mbxCfg s.dev m.val) 28) s)

/-- RECEIVER_RESET: a write of 1 to MBXm_CFG.RESET that keeps the other fields. -/
def execReceiverReset (master : Byte) (m : Fin 64) (s : State) : Host.Outcome State Fault Refusal :=
  done (regWrite master.toNat (mAddr (mbxKey Reg.MBXM_CFG m.val)) 32 (setBit (mbxCfg s.dev m.val) 29) s)

/-! ## REG -/

/-- The message of REG that is executed next, when it is an answer to the manager: one that a command names, or one that
waits while no request does. -/
def takeAnswer (d : Dev) (code : Nat) (o : Option TMsg) : Option (TMsg × Dev) :=
  match o with
  | some m => if m.reply then some ({ m with family := famReg, code := code }, d) else none
  | none =>
    if (takeReq d famReg code none).isSome then none
    else (takeFirst (fun m => m.family == famReg && m.code == code && m.reply) d.agt.msgs).map (fun r =>
      (r.1, { d with agt := { d.agt with msgs := r.2 } }))

/-- A REG READ is executed. -/
def regReadRun (m : TMsg) (s : State) : State :=
  match readEntries m.body with
  | none => s.onDev (fun d => d.reply m BAD_MESSAGE [])
  | some es => runReads m (reqMaster s.dev m) es [] s

/-- A tenant's REG READ during a scrub: each entry carries SCRUB and 0, with no side effect (R435, R516). -/
def regReadScrub (m : TMsg) (d : Dev) : Dev :=
  match readEntries m.body with
  | none => d.reply m SCRUB []
  | some es => d.reply m SCRUB ((es.map (fun _ => leBytes 1 SCRUB ++ leBytes 15 0)).flatten)

/-- REG_READ: a request is executed, or an answer reaches the manager. -/
def execRegRead (o : Option TMsg) (s : State) : Host.Outcome State Fault Refusal :=
  match takeAnswer s.dev 1 o with
  | some (m, d) => done { s with dev := d.readAnswered m.rtag m.body }
  | none =>
    match takeReq s.dev famReg 1 o with
    | none => done s
    | some (m, d) =>
      let s := { s with dev := d }
      match reqAllowed d m with
      | none => done s
      | some st =>
        if st = OK then done (regReadRun m s).settle
        else if st = SCRUB then doneDev s (regReadScrub m)
        else doneDev s (fun d => d.reply m st [])

/-- A REG WRITE is executed: from the host under its session, from the fabric after the term check or by votes. -/
def regWriteRun (m : TMsg) (s : State) : State :=
  match writeEntries m.body with
  | none => s.onDev (fun d => d.reply m BAD_MESSAGE [])
  | some es =>
    if ¬ fromFabric m then
      (if field m.body 0 4 ≠ 0 then s.onDev (fun d => d.reply m BAD_MESSAGE []) else runWrites m (reqMaster s.dev m) es 0 s)
    else if trioMode s.dev then runWrites m (reqMaster s.dev m) es 0 s
    else
      let c := s.dev.termCheck m (field m.body 0 4)
      if c.1 ≠ OK then { s with dev := c.2.regWriteDone m c.1 0 }
      else runWrites m (reqMaster s.dev m) es 0 { s with dev := c.2 }

/-- REG_WRITE: a request is executed, or an answer reaches the manager. -/
def execRegWrite (o : Option TMsg) (s : State) : Host.Outcome State Fault Refusal :=
  match takeAnswer s.dev 2 o with
  | some (m, d) => done { s with dev := d.writeAnswered m.rtag m.status }
  | none => onReq famReg 2 o (fun m s => (regWriteRun m s).settle) s

/-- VOTED_WRITE: one write of a voter at an agent in trio mode, its width in bytes. Its status is given to the sender. -/
def execVotedWrite (src : BitVec 15) (wseq : Word) (addr : BitVec 40) (width : Nat) (value : BitVec 64) (s : State) :
    Host.Outcome State Fault Refusal :=
  if ¬ trioMode s.dev then done s
  else
    let r := votedEntry src.toNat wseq.toNat ⟨addr.toNat, width, value.toNat⟩ s
    match r.1 with
    | some st => done (r.2.onDev (fun d => d.send (.access 0x80 addr.toNat st 0)))
    | none => done r.2

/-! ## MBX -/

/-- The message that a POST from the host or the fabric carries into a mailbox (R396). -/
def postMsg (d : Dev) (m : TMsg) (data : List Byte) : MbxMsg :=
  match m.src with
  | .host slot =>
    let t := slotTenant d slot.val
    ⟨data, false, true, 0x10 + slot.val, t.isNone, t.getD 0, mbxEpoch d (0x10 + slot.val)⟩
  | _ => ⟨data, true, (msgMa m).isSome, (msgMa m).getD 0, true, 0, 0⟩

/-- POST: an empty post without a doorbell does nothing and is answered OK (R372). -/
def execMbxPost (o : Option TMsg) (s : State) : Host.Outcome State Fault Refusal :=
  onReqDev famMbx 1 o (fun m d =>
    let b := m.body
    let bell := field b 1 1
    let n := field b 2 2
    if b.length < 4 ∨ 256 < n ∨ b.length ≠ 4 + n ∨ ¬ (bell ≤ 31 ∨ bell = 0xFF) then d.reply m BAD_MESSAGE []
    else if n = 0 ∧ bell = 0xFF then d.reply m OK []
    else
      let r := d.mbxPost (field b 0 1) false (postMsg d m (slice b 4 n)) (if bell = 0xFF then none else some bell)
      r.2.reply m r.1 []) s

/-! ## Policy entries (R351) -/

/-- The entries of a POLICY_SET body: index and value. -/
def policyEntries (b : List Byte) : List (Nat × Nat) :=
  (upFrom 0 (field b 4 1)).map (fun i => (field b (8 + 16 * i) 2, field b (16 + 16 * i) 8))

/-- Strongroom declines the whole message: an index it keeps for itself, or a valid entry for a master that is no host
session. -/
def policyDeclined (es : List (Nat × Nat)) : Bool :=
  es.any (fun e => decide (e.1 < 64) ||
    (e.2.testBit 15 && decide (bits e.2 55 48 ≤ bits e.2 63 56) && !decide (0x10 ≤ bits e.2 55 48 ∧ bits e.2 63 56 ≤ 0x1F)))

/-- Entries are written up to the first that is refused. -/
def Dev.policyPuts (d : Dev) : List (Nat × Nat) → Nat → Nat × Nat × Dev
  | [], n => (OK, n, d)
  | e :: es, n =>
    let r := if 256 ≤ e.1 then (OUT_OF_RANGE, d) else d.policyPut e.1 e.2
    if r.1 = OK then Dev.policyPuts r.2 es (n + 1) else (r.1, n, r.2)

/-- POLICY_DONE. -/
def Dev.policyDone (d : Dev) (m : TMsg) (st n : Nat) : Dev := d.answer m 17 (leBytes 1 st ++ leBytes 1 n ++ leBytes 2 0)

/-- The entries of a message that passed its check are written, or the message is declined: its status and the entries written. -/
def Dev.policySet (d : Dev) (m : TMsg) : Nat × Nat × Dev :=
  let es := policyEntries m.body
  if field m.body 4 1 < 1 ∨ 7 < field m.body 4 1 ∨ m.body.length ≠ 8 + 16 * field m.body 4 1 ∨ field m.body 5 3 ≠ 0 ∨
      (upFrom 0 (field m.body 4 1)).any (fun i => field m.body (10 + 16 * i) 6 != 0) then
    (OUT_OF_RANGE, 0, d)
  else if policyDeclined es then (ACCESS_DENIED, 0, d)
  else d.policyPuts es 0

/-- POLICY_SET: checked as a manager write, or as a voted write in trio mode. -/
def execPolicySet (o : Option TMsg) (s : State) : Host.Outcome State Fault Refusal :=
  onBelfry 16 o (fun m d =>
    if trioMode d then d.voteMsg m (fun d => d.policySet m) Dev.policyDone
    else
      let r := d.termCheck m (field m.body 0 4)
      if r.1 ≠ OK then r.2.policyDone m r.1 0 else (let q := r.2.policySet m; q.2.2.policyDone m q.1 q.2.1)) s

/-! ## DEBUG ACCESS (R437, R438) -/

/-- The entries of an ACCESS that the mode does not reach are refused, each as an access of master 0x07 (R54, R57), and the request is
answered ACCESS_DENIED (R438). -/
def Dev.debugDenied (d : Dev) (m : TMsg) (addrs : List Nat) : Dev :=
  (addrs.foldl (fun d a => d.settleStatus 7 a ACCESS_DENIED) d).reply m ACCESS_DENIED []

/-- An ACCESS of an owner session: a body as REG READ's is read, one as REG WRITE's is written, as master 0x07. -/
def debugAccess (m : TMsg) (s : State) : State :=
  match readEntries m.body, writeEntries m.body with
  | some es, _ =>
    if dbgMode s.dev = 0 then s.onDev (fun d => d.debugDenied m (es.map (·.1)))
    else (runReads m 7 es [] s).settle
  | none, some es =>
    if dbgMode s.dev < 2 then s.onDev (fun d => d.debugDenied m (es.map (·.addr)))
    else (runWrites m 7 es 0 s).settle
  | none, none => s.onDev (fun d => d.reply m BAD_MESSAGE [])

/-- DEBUG_ACCESS. -/
def execDebugAccess (o : Option TMsg) (s : State) : Host.Outcome State Fault Refusal :=
  onReq famDebug 4 o (fun m s =>
    if ownerSession s.dev m then debugAccess m s else s.onDev (fun d => d.reply m ACCESS_DENIED [])) s

end Sys2Proof.Machine
end

