-- ==== Sys2Proof/Machine/Peal.lean ====
section
/-! DEFINITION. Peal (R327-R333), the fetch of images and plans (R301-R303, R375), and the PEAL family of the host port (R374).
Whether an object's signature verifies comes with the command; digests are compared under `Config.shake256`. -/

namespace Sys2Proof.Machine

/-! ## Objects (R327, R328)

An object is given by its pieces: manifest pieces first, data pieces after them. -/

abbrev kdExt : Nat := 1
abbrev kdParlour : Nat := 2
abbrev kdPlan : Nat := 3
abbrev kdTables : Nat := 4

/-- The pieces of an object, none where one is not held. -/
abbrev Pieces := Nat → Option (List Byte)

/-- The bytes of a piece. -/
def pieceBytes (g : Pieces) (i : Nat) : List Byte := (g i).getD []

/-- N, and M = 1 + ceil(N / 256), of the object whose manifest piece 0 is held. -/
def objN (g : Pieces) : Nat := min 8192 (field (pieceBytes g 0) 12 4)
def objM (g : Pieces) : Nat := 1 + (objN g + 255) / 256
/-- LENGTH, VERSION, DIGEST and KIND. -/
def objLength (g : Pieces) : Nat := field (pieceBytes g 0) 8 4
def objVersion (g : Pieces) : Nat := field (pieceBytes g 0) 16 8
def objDigest (g : Pieces) : Nat := field (pieceBytes g 0) 32 64
def objKind (g : Pieces) : Nat := field (pieceBytes g 0) 4 1

/-- Every manifest piece is held. -/
def manifestHeld (g : Pieces) : Bool := (g 0).isSome && (upFrom 0 (objM g)).all (fun i => (g i).isSome)

/-- The largest object of a KIND, in bytes. -/
def largest (kind : Nat) : Nat := if kind = kdExt then 196608 else 33554432

/-- The manifest is laid out as R328 has it: an object of a KIND, with the pieces its LENGTH takes. -/
def manifestOk (g : Pieces) : Bool :=
  let p := pieceBytes g 0
  slice p 0 4 == [0x50, 0x45, 0x41, 0x4C] && decide (1 ≤ objKind g ∧ objKind g ≤ 4) && allZero (slice p 5 3) &&
    field p 12 4 == (objLength g + 4095) / 4096 && decide (objLength g ≤ largest (objKind g)) && allZero (slice p 96 32)

/-- The life-cycle state accepts objects of a kind: firmware but in SCRAP, PLAN and TABLES under the configuration that the key store
holds (R416). -/
def objectAllowed (d : Dev) (kind : Nat) : Bool :=
  if kind = kdExt ∨ kind = kdParlour then d.sec.lc != 4 else decide (1 ≤ d.sec.lc ∧ d.sec.lc ≤ 3) && d.sec.config.isSome

/-- The manifest of an object verifies here; `sig` says that its signature does. -/
def manifestGood (d : Dev) (g : Pieces) (sig : Bool) : Bool := sig && manifestOk g && objectAllowed d (objKind g)

/-- The first 16 bytes of the digest of data piece `j`, as the manifest has them. -/
def pieceDigest (g : Pieces) (j : Nat) : Nat := field (pieceBytes g (1 + j / 256)) (16 * (j % 256)) 16

/-- A piece is checked against the manifest (R329); manifest pieces are bound by the signature. -/
def pieceOk (g : Pieces) (i : Nat) (data : List Byte) : Bool :=
  decide (i < objM g) || Config.shake256 data % 2 ^ 128 == pieceDigest g (i - objM g)

/-- Every piece is held. -/
def objectHeld (g : Pieces) : Bool := (upFrom 0 (objM g + objN g)).all (fun i => (g i).isSome)

/-- The data of an object. -/
def objData (g : Pieces) : List Byte := slice ((upFrom (objM g) (objN g)).map (pieceBytes g)).flatten 0 (objLength g)

/-! ## The object a module receives -/

/-- The pieces that the agent holds. -/
def rxPieces (d : Dev) : Pieces := SMap.get (fun _ => none) d.agt.peal.pieces
def Dev.setRx (d : Dev) (x : PealRx) : Dev := { d with agt := { d.agt with peal := x } }

/-- AGT_PEAL_STATE: 0 IDLE, 1 RECEIVING, 2 REPAIRING, 3 VERIFIED, 4 FAILED; the campaign; the KIND. -/
abbrev plIdle : Nat := 0
abbrev plReceiving : Nat := 1
abbrev plRepairing : Nat := 2
abbrev plVerified : Nat := 3
abbrev plFailed : Nat := 4
def pealSt (d : Dev) : Nat := bits (d.rd Reg.AGT_PEAL_STATE) 2 0
def pealNum (d : Dev) : Nat := bits (d.rd Reg.AGT_PEAL_STATE) 31 16
def pealKind (d : Dev) : Nat := bits (d.rd Reg.AGT_PEAL_STATE) 15 12
def Dev.setPeal (d : Dev) (num kind st : Nat) : Dev := d.wr Reg.AGT_PEAL_STATE (num % 2 ^ 16 * 2 ^ 16 + kind % 16 * 2 ^ 12 + st)
def Dev.setPealSt (d : Dev) (st : Nat) : Dev := d.setPeal (pealNum d) (pealKind d) st

/-- A campaign is in progress here. -/
def receiving (d : Dev) : Bool := pealSt d == plReceiving || pealSt d == plRepairing

/-- The pieces that are missing: up to the last one, by END or by the manifest; piece 0 while nothing else is known. -/
def missingPieces (d : Dev) : List Nat :=
  let g := rxPieces d
  let total := match d.agt.peal.last with
    | some n => n + 1
    | none => if (g 0).isSome then objM g + objN g else 1
  (upFrom 0 total).filter (fun i => (g i).isNone)

/-- PEAL_NEED for pieces, 48 to a message; by relay until routes exist (R320). -/
def Dev.needFrom (d : Dev) (ma : Nat) (is : List Nat) : Dev :=
  (chunks 48 (is.length + 1) is).foldl (fun d c =>
    d.agtSend ma 10 (leBytes 2 (pealNum d) ++ leBytes 1 c.length ++ (c.map (leBytes 2)).flatten)) d

/-- Pieces are asked of the manager; in trio mode of the voters, who do its work (R315). -/
def Dev.needFromManager (d : Dev) (is : List Nat) : Dev := (managers d).foldl (fun d ma => d.needFrom ma is) d

/-- Repair begins (R332): the missing pieces are asked of the line neighbour. -/
def Dev.startRepair (d : Dev) : Dev :=
  let is := missingPieces d
  if is.isEmpty then d
  else
    let d := d.setPealSt plRepairing
    match d.agt.peal.toward with
    | some ma => d.needFrom ma is
    | none => d.needFromManager is

/-! ## The ROM's fetch (R301-R303, R375) -/

/-- The module is in the ROM stage: no Parlour runs. -/
def inRom (d : Dev) : Bool := bootStage d == sgFetch && d.powered.core && d.bel.parlour.isNone

/-- An image server is named. -/
def serverNamed (d : Dev) : Bool := d.sec.config.isSome

/-- A failed attempt writes one record: status, KIND, source, attempt (R302, R483). -/
def Dev.imageRecord (d : Dev) (st kind source attempt : Nat) : Dev :=
  d.append 0x13 1 0 (leBytes 1 st ++ leBytes 1 kind ++ leBytes 1 source ++ leBytes 4 attempt)

/-- A failed fabric attempt of a boot fetch is counted and recorded. -/
def Dev.fabricFailed (d : Dev) (st : Nat) : Dev :=
  match d.host.fetch with
  | some f =>
    if inRom d then
      ({ d with host := { d.host with fetch := some { f with fabTries := f.fabTries + 1 } } } : Dev).imageRecord st (pealKind d) 1 (f.fabTries + 1)
    else d
  | none => d

/-- The bytes of piece `i` of the object being fetched, once piece 0's first quarter tells them. -/
def fetchHead (f : Fetch) : List Byte := SMap.get (fun _ => []) f.quarters 0
def fetchN (f : Fetch) : Nat := min 8192 (field (fetchHead f) 12 4)
def fetchM (f : Fetch) : Nat := 1 + (fetchN f + 255) / 256
def fetchPieceBytes (f : Fetch) (i : Nat) : Nat :=
  if i < fetchM f then 4096 else min 4096 (field (fetchHead f) 8 4 - 4096 * (i - fetchM f))

/-- The quarters that piece `i` takes. -/
def fetchQuarters (f : Fetch) (i : Nat) : List Nat := upFrom 0 ((fetchPieceBytes f i + 1023) / 1024)

/-- A piece whose quarters are all here. -/
def fetchPiece (f : Fetch) (i : Nat) : Option (List Byte) :=
  let qs := (fetchQuarters f i).map (fun q => SMap.get (fun _ => []) f.quarters (4 * i + q))
  if qs.isEmpty ∨ qs.any (fun b => b.isEmpty) then none else some qs.flatten

/-- The pieces known to exist. -/
def fetchTotal (f : Fetch) : Nat := if (fetchHead f).isEmpty then 1 else fetchM f + fetchN f

/-- The next quarters to ask for: piece and offset, those that are neither here nor asked for, up to 64 outstanding. -/
def fetchNext (f : Fetch) : List (Nat × Nat) :=
  let all := ((upFrom 0 (fetchTotal f)).map (fun i => (fetchQuarters f i).map (fun q => (i, 1024 * q)))).flatten
  (all.filter (fun x => (SMap.get (fun _ => []) f.quarters (4 * x.1 + x.2 / 1024)).isEmpty && !f.gets.contains x)).take (64 - f.gets.length)

/-- GETs leave until 64 are outstanding. -/
def Dev.fetchMore (d : Dev) (f : Fetch) : Dev :=
  let new := fetchNext f
  let d : Dev := { d with host := { d.host with fetch := some { f with gets := f.gets ++ new } } }
  new.foldl (fun d x => d.send (.imageGet f.kind x.1 x.2)) d

/-- A fetch of a KIND begins; with no image server named, only the fabric can serve it. -/
def Dev.beginFetch (d : Dev) (kind : Nat) : Dev :=
  let f : Fetch := ⟨kind, [], [], serverNamed d, false, if serverNamed d then 1 else 0, 0⟩
  if serverNamed d then d.fetchMore f else { d with host := { d.host with fetch := some f } }

/-- No fetch runs. -/
def Dev.endFetch (d : Dev) : Dev := { d with host := { d.host with fetch := none } }

/-- An attempt over the host port fails and is recorded. -/
def Dev.attemptFailed (d : Dev) (f : Fetch) (st : Nat) : Dev :=
  if f.kind = kdPlan then d.endFetch
  else
    let f' : Fetch := { f with gets := [], quarters := [], running := false, sigOk := false }
    ({ d with host := { d.host with fetch := some f' } } : Dev).imageRecord st f.kind 0 f.tries

/-- Parlour starts on core A and then core B: core A is active, IMAGE_WANTED ends, FETCH ends, and the plan is asked for when an
image server is named (R303, R333). -/
def Dev.startParlour (d : Dev) (digest ver : Nat) : Dev :=
  let d : Dev := { d with bel := { d.bel with parlour := some digest, parlourVer := ver } }
  let d := d.coreActive false
  let d := d.wr Reg.AGT_STATE (clearBit (d.rd Reg.AGT_STATE) 9)
  (if serverNamed d then d.beginFetch kdPlan else d.endFetch).fetchDone

/-- A Parlour that was VERIFIED here while the extension was missing starts after it. -/
def Dev.startHeldParlour (d : Dev) : Dev :=
  if d.agt.peal.verified ∧ pealKind d = kdParlour then d.startParlour (objDigest (rxPieces d)) (objVersion (rxPieces d)) else d

/-- A VERIFIED object meets the ROM stage (R301, R333): the extension starts, Parlour after it. -/
def Dev.romUse (d : Dev) (g : Pieces) : Dev :=
  if ¬ inRom d then d
  else if objKind g = kdExt ∧ d.bel.extension = none then
    (({ d with bel := { d.bel with extension := some (objDigest g), extensionVer := objVersion g } } : Dev).beginFetch kdParlour).startHeldParlour
  else if objKind g = kdParlour ∧ d.bel.extension ≠ none then d.startParlour (objDigest g) (objVersion g)
  else d

/-- The pieces of a whole object as plain data. -/
def heldPieces (g : Pieces) : SMap (Option (List Byte)) :=
  (upFrom 0 (objM g + objN g)).foldl (fun q i => SMap.put (fun _ => none) q i (g i)) []

/-- A plan in an object's data becomes the active one, unless R319 refuses it with PLAN_INVALID: the plan held before stays. A module
that has reached the discovery step and that the plan names begins what R309 or R315 asks of it; a manager checks every module
again. -/
def Dev.usePlan (d : Dev) (g : Pieces) : Nat × Dev :=
  match parsePlan (objDigest g) (objData g) with
  | some x =>
    let was := belRole d
    let d := (d.takePlan x).roleFromPlan
    let d : Dev := { d with agt := { d.agt with planObj := heldPieces g } }
    let d := if bootStage d = sgDiscovery ∧ belRole d ≠ was then d.atDiscovery else d
    (OK, d.recheckPlan x)
  | none => (PLAN_INVALID, d)

/-- A fetched object is VERIFIED: images start, a plan becomes active at once. -/
def Dev.fetched (d : Dev) (f : Fetch) : Dev :=
  if f.kind = kdPlan then (d.usePlan (fetchPiece f)).2.endFetch else d.romUse (fetchPiece f)

/-- Data pieces whose digest is wrong are dropped and fetched again. -/
def dropBadQuarters (f : Fetch) : Fetch :=
  let g := fetchPiece f
  let bad (i : Nat) : Bool := match g i with | some b => !pieceOk g i b | none => false
  { f with quarters := SMap.erase (fun k => bad (k / 4)) f.quarters }

/-- A quarter is here: the manifest is verified when it is whole, pieces are checked, and more is asked for. -/
def Dev.quarterIn (d : Dev) (f : Fetch) (sig : Bool) : Dev :=
  let g := fetchPiece f
  if ¬ f.sigOk ∧ manifestHeld g ∧ ¬ (manifestGood d g sig ∧ objKind g = f.kind) then d.attemptFailed f SIG_INVALID
  else
    let f : Fetch := { f with sigOk := f.sigOk || manifestHeld g }
    let f := if f.sigOk then dropBadQuarters f else f
    if f.sigOk ∧ objectHeld (fetchPiece f) then d.fetched f else d.fetchMore f

/-- IMAGE_DATA: a DATA that comes from the server (`known`) and answers an outstanding GET; `sig` says whether the manifest's
signature verifies. -/
def execImageData (kind piece off : Nat) (data : List Byte) (known sig : Bool) (s : State) : Host.Outcome State Fault Refusal :=
  doneDev s (fun d =>
    match d.host.fetch with
    | none => d
    | some f =>
      if ¬ hostRuns d ∨ ¬ known ∨ f.kind ≠ kind ∨ ¬ f.running ∨ ¬ f.gets.contains (piece, off) ∨ data.isEmpty ∨ 1024 < data.length then d
      else
        let f : Fetch := { f with
          gets := f.gets.filter (fun x => x != (piece, off))
          quarters := SMap.put (fun _ => []) f.quarters (4 * piece + off / 1024) data }
        d.quarterIn f sig)

/-- IMAGE_GET_RESEND: a GET without its DATA for 10 ms leaves again. -/
def execImageGetResend (piece off : Nat) (s : State) : Host.Outcome State Fault Refusal :=
  doneDev s (fun d =>
    match d.host.fetch with
    | some f => if f.running ∧ f.gets.contains (piece, off) then d.send (.imageGet f.kind piece off) else d
    | none => d)

/-- IMAGE_FETCH_TIMEOUT: an attempt has taken 30 s. -/
def execImageFetchTimeout (s : State) : Host.Outcome State Fault Refusal :=
  doneDev s (fun d =>
    match d.host.fetch with
    | some f => if f.running ∧ f.kind ≠ kdPlan then d.attemptFailed f TIMEOUT else d
    | none => d)

/-- IMAGE_FETCH_RETRY: the next attempt, 5 s after the last. -/
def execImageFetchRetry (s : State) : Host.Outcome State Fault Refusal :=
  doneDev s (fun d =>
    match d.host.fetch with
    | some f =>
      if ¬ f.running ∧ f.kind ≠ kdPlan ∧ serverNamed d then d.fetchMore { f with running := true, tries := f.tries + 1 } else d
    | none => d)

/-- PLAN_FETCH_RETRY: 10 ms without DATA for a plan; after three attempts the module goes on without one. -/
def execPlanFetchRetry (s : State) : Host.Outcome State Fault Refusal :=
  doneDev s (fun d =>
    match d.host.fetch with
    | some f =>
      if f.kind = kdPlan ∧ f.quarters = [] then
        (if f.tries < 3 then d.fetchMore { f with gets := [], tries := f.tries + 1 } else d.endFetch)
      else d
    | none => d)

/-- SRAM_INIT_DONE: a fault in the packet buffer, a route bank or Belfry SRAM is fatal; one in the Pantry store, the group table
or the operation table fails the self-test (R498). FETCH begins, unless the target is Standby or Off (R514). -/
def execSramInitDone (fatal other : Bool) (s : State) : Host.Outcome State Fault Refusal :=
  if bootStage s.dev ≠ sgSramInit ∨ moduleResets s.dev ∨ ¬ s.dev.powered.core then done s
  else if fatal then doneDev s (fun d => (d.allDown rsDisabled (upFrom 0 6)).setStage sgHalted)
  else
    done (moveOn (s.onDev (fun d =>
      let d : Dev := { d with pwr := { d.pwr with sramBad := other } }
      let d := (d.setStage sgFetch).wr Reg.AGT_STATE (setBit (d.rd Reg.AGT_STATE) 9)
      d.beginFetch kdExt)))

/-! ## Pieces of a campaign (R329-R331) -/

/-- The packets that carry a piece, or END, along a line of this module: to ceil((L - 1) / 2) hops in P, and to
floor((L - 1) / 2) hops in N when that is at least 1. -/
def linePackets (d : Dev) (a num seq window : Nat) (data : List Byte) : List Packet :=
  let l := dimLen d a
  let ma := myMa d
  let at_ (n : Nat) : Nat := withCoord ma a ((coord ma a + n) % l)
  let pkt (phase : Bool) (dest : Nat) : Packet :=
    { mgmtPacket phase dest dest data with ptype := ptPeal, window := window, channel := a, opid := num, seq := seq }
  (if l / 2 = 0 then [] else [pkt false (at_ (l / 2))]) ++ (if (l - 1) / 2 = 0 then [] else [pkt true (at_ (l - (l - 1) / 2))])

/-- A piece or END leaves along several stages. -/
def Dev.sendStages (d : Dev) (axes : List Nat) (num seq window : Nat) (data : List Byte) : Dev :=
  axes.foldl (fun d a => (linePackets d a num seq window data).foldl (fun d p => d.offer p) d) d

/-- A packet that arrived along a stage goes on along the next ones, before it is checked (R331). -/
def Dev.forwardPeal (d : Dev) (p : Packet) : Dev :=
  if ¬ p.passAlong then d
  else if p.channel = 0 then d.sendStages [1, 2] p.opid p.seq p.window p.payload
  else if p.channel = 1 then d.sendStages [2] p.opid p.seq p.window p.payload
  else d

/-- The line neighbour (R332): the adjacent module toward the sender of the line; on the manager's line and in a unicast
campaign, the sender itself. -/
def lineNeighbour (d : Dev) (p : Packet) : Nat :=
  if p.channel = 0 ∨ 2 < p.channel ∨ ¬ p.passAlong then p.src
  else
    let l := dimLen d p.channel
    withCoord (myMa d) p.channel ((coord (myMa d) p.channel + (if p.phase then 1 else l - 1)) % l)

/-- A packet belongs to the campaign in progress, or begins one: none is in progress, or the one that is has been idle
(R330). -/
def Dev.joinCampaign (d : Dev) (p : Packet) : Option Dev :=
  let d' : Option Dev :=
    if pealSt d ≠ plIdle ∧ p.opid = pealNum d then (if receiving d then some d else none)
    else if receiving d ∧ ¬ d.agt.peal.idle then none
    else if p.channel = 3 ∧ p.dest ≠ myMa d then none
    else some ((d.setRx PealRx.none_).setPeal p.opid 0 plReceiving)
  d'.map (fun d =>
    d.setRx { d.agt.peal with
      idle := false
      toward := if p.channel < 3 ∨ d.agt.peal.toward.isNone then some (lineNeighbour d p) else d.agt.peal.toward })

/-- The object is VERIFIED when every piece is held and checked; a running module discards an extension (R333). -/
def Dev.pealSettle (d : Dev) : Dev :=
  let x := d.agt.peal
  let g := rxPieces d
  if x.sigOk ∧ objectHeld g then
    let d := (d.setRx { x with verified := true }).setPealSt plVerified
    if objKind g = kdExt ∧ ¬ inRom d then d.setRx PealRx.none_ else d.romUse g
  else d

/-- The manifest is whole: its signature is verified; the first failure asks the manager for it again, the second ends the
campaign here (R329). -/
def Dev.pealVerify (d : Dev) (sig : Bool) : Dev :=
  let x := d.agt.peal
  let g := rxPieces d
  if manifestGood d g sig then
    let keep (i : Nat) : Bool := match g i with | some b => pieceOk g i b | none => true
    (d.setRx { x with sigOk := true, pieces := SMap.erase (fun i => !keep i) x.pieces }).pealSettle
  else if x.sigFails = 0 then
    let m := objM g
    let d := d.setRx { x with sigFails := 1, pieces := SMap.erase (fun i => decide (i < m)) x.pieces }
    d.needFromManager (upFrom 0 m)
  else ((d.setRx { x with sigFails := x.sigFails + 1 }).setPealSt plFailed |>.raise 0x069 6).fabricFailed SIG_INVALID

/-- A piece enters the object. -/
def Dev.takePiece (d : Dev) (i : Nat) (data : List Byte) (repair sig : Bool) : Dev :=
  let x := d.agt.peal
  let g := rxPieces d
  if 8224 < i ∨ (g i).isSome ∨ (x.sigOk ∧ ¬ pieceOk g i data) then d
  else
    let d := if repair then d.count Reg.AGT_PEAL_REPAIR_COUNT else d
    let d := d.setRx { x with pieces := SMap.put (fun _ => none) x.pieces i (some data), notHeld := x.notHeld.filter (fun j => j != i) }
    let d := if i = 0 then d.setPeal (pealNum d) (objKind (rxPieces d)) (pealSt d) else d
    if ¬ x.sigOk ∧ manifestHeld (rxPieces d) then d.pealVerify sig else d.pealSettle

/-- The oldest PEAL packet delivered here with a WINDOW, or the one a command names. -/
def takePeal (d : Dev) (window : Nat) (o : Option Packet) : Option (Packet × Dev) :=
  match o with
  | some p => some ({ p with ptype := ptPeal, window := window }, d)
  | none =>
    d.fromSink (fun p => p.ptype == ptPeal && p.window == window)

/-- PEAL: a piece arrives; `sig` says whether the manifest's signature verifies, should this piece complete it. -/
def execPealPkt (o : Option Packet) (sig : Bool) (s : State) : Host.Outcome State Fault Refusal :=
  doneDev s (fun d =>
    match takePeal d 0 o with
    | none => d
    | some (p, d) =>
      let d := d.forwardPeal p
      match d.joinCampaign p with
      | none => d
      | some d => d.takePiece p.seq p.payload (p.channel == 3) sig)

/-- PEAL_END: the END marker; one whose SEQ is no piece an object can have is refused (R18, R326). -/
def execPealEnd (o : Option Packet) (s : State) : Host.Outcome State Fault Refusal :=
  doneDev s (fun d =>
    match takePeal d 1 o with
    | none => d
    | some (p, d) =>
      let d := d.forwardPeal p
      if 8224 < p.seq then d
      else match d.joinCampaign p with
      | none => d
      | some d => (d.setRx { d.agt.peal with last := some p.seq }).startRepair)

/-! ## Repair (R332) -/

/-- The pieces that a PEAL_NEED or PEAL_NOT_HELD lists. -/
def needPieces (b : List Byte) : List Nat := (upFrom 0 (field b 2 1)).map (fun i => field b (3 + 2 * i) 2)

/-- A packet of this module to one other, in C3 where it is routed (R332, R333): a PEAL packet on one line passes along the shorter way
whatever its class (R233). -/
def pealTo (d : Dev) (cls ma num seq window : Nat) (data : List Byte) : Packet :=
  let phase : Bool := match lineAxis (myMa d) ma with
    | some a => decide (dimLen d a < 2 * ((coord ma a + dimLen d a - coord (myMa d) a) % dimLen d a))
    | none => false
  { mgmtPacket phase ma ma data with ptype := ptPeal, cls := cls, window := window, channel := 3, opid := num, seq := seq }

/-- A piece goes to a module that asked for it, on CHANNEL 3: the manager answers in C3, as does a module that is on no line with the
other (R332). -/
def Dev.repairPiece (d : Dev) (ma i : Nat) (data : List Byte) : Dev :=
  d.offer (pealTo d (if servesJobs d ∨ (lineAxis (myMa d) ma).isNone then 3 else 0) ma (pealNum d) i 0 data)

/-- PEAL_NEED reaches a line neighbour or the manager. -/
def execPealNeed (o : Option TMsg) (s : State) : Host.Outcome State Fault Refusal :=
  onBelfry 10 o (fun m d =>
    match msgMa m with
    | none => d
    | some ma =>
      let mine : Bool := pealSt d != plIdle && field m.body 0 2 == pealNum d
      let is := needPieces m.body
      let held (i : Nat) : Bool := mine && (rxPieces d i).isSome
      let d := (is.filter held).foldl (fun d i => d.repairPiece ma i (pieceBytes (rxPieces d) i)) d
      let lack := is.filter (fun i => !held i)
      if lack.isEmpty then d
      else
        d.answerSt m 11 NOT_HELD (slice m.body 0 2 ++ leBytes 1 lack.length ++ (lack.map (leBytes 2)).flatten)) s

/-- PEAL_NOT_HELD: the pieces listed are asked of the manager. -/
def execPealNotHeld (o : Option TMsg) (s : State) : Host.Outcome State Fault Refusal :=
  onBelfry 11 o (fun m d =>
    if ¬ receiving d ∨ field m.body 0 2 ≠ pealNum d then d
    else
      let is := (needPieces m.body).filter (fun i => (rxPieces d i).isNone)
      let x := d.agt.peal
      (d.setRx { x with notHeld := x.notHeld ++ is.filter (fun i => !x.notHeld.contains i) }).needFromManager is) s

/-- PEAL_IDLE_TIMEOUT: no piece for AGT_PEAL_IDLE_TIMEOUT; repair begins while pieces are missing. -/
def execPealIdleTimeout (s : State) : Host.Outcome State Fault Refusal :=
  doneDev s (fun d =>
    if ¬ receiving d then d
    else
      let d := d.setRx { d.agt.peal with idle := true }
      if pealSt d = plReceiving then d.startRepair else d)

/-- PEAL_REPAIR_TIMEOUT: pieces still missing are asked of the manager. -/
def execPealRepairTimeout (s : State) : Host.Outcome State Fault Refusal :=
  doneDev s (fun d => if pealSt d = plRepairing then d.needFromManager (missingPieces d) else d)

/-- PEAL_CAMPAIGN_TIMEOUT: the campaign fails here. -/
def execPealCampaignTimeout (s : State) : Host.Outcome State Fault Refusal :=
  doneDev s (fun d => if receiving d then ((d.setPealSt plFailed).raise 0x069 5).fabricFailed TIMEOUT else d)

/-! ## Activation (R333) -/

/-- A running module takes a new Parlour: the standby core is reset into the image, the cores switch, and the other is reset. The
spec names no CAUSE for these resets. -/
def Dev.newParlour (d : Dev) (digest ver : Nat) : Dev :=
  let d : Dev := { d with bel := { d.bel with parlour := some digest, parlourVer := ver } }
  match d.bel.active with
  | none => d
  | some old =>
    let d := d.used.enterReset ⟨rkCore, b2n (!old), d.fresh % 16⟩
    let d := d.coreSwitch (!old) tgRequest
    d.used.enterReset ⟨rkCore, b2n old, d.fresh % 16⟩

/-- The records of a TABLES object, in order. -/
def tableRecords (data : List Byte) : List (List Byte) :=
  (upFrom 0 (data.length / 24)).map (fun i => slice data (24 * i) 24)

/-- The records that cover an MA are applied as writes of the manager under R56. -/
def applyRecords (ma : Nat) : List (List Byte) → State → State
  | [], s => s
  | r :: rs, s => applyRecords ma rs (if recRange r ma then (plainEntry 0x80 (recEntry r) s).2 else s)

/-- The VERIFIED object is taken into use, with its status; a running module discards an extension. -/
def useObject (s : State) : Nat × State :=
  let g := rxPieces s.dev
  let kind := objKind g
  if ¬ s.dev.agt.peal.verified then (OK, s)
  else if kind = kdParlour then
    (OK, s.onDev (fun d => if inRom d then d.romUse g else d.newParlour (objDigest g) (objVersion g)))
  else if kind = kdPlan then (let r := s.dev.usePlan g; (r.1, { s with dev := r.2 }))
  else if kind = kdTables then (OK, applyRecords (myMa s.dev) (tableRecords (objData g)) s)
  else if kind = kdExt then (OK, s.onDev (fun d => if inRom d then d.romUse g else d.setRx PealRx.none_))
  else (OK, s)

/-- The message names the object that is VERIFIED here. -/
def namesObject (d : Dev) (m : TMsg) : Bool :=
  d.agt.peal.verified && pealSt d == plVerified && field m.body 4 2 == pealNum d && field m.body 6 1 == pealKind d

/-- PEAL_ACTIVATE: checked by its term, or voted in trio mode. -/
def execPealActivate (o : Option TMsg) (s : State) : Host.Outcome State Fault Refusal :=
  match takeMsg s.dev famBelfry 12 o with
  | none => done s
  | some (m, d) =>
    let r : Bool × Dev :=
      if trioMode d then
        let v := d.vote ((msgMa m).getD (2 ^ 15)) m.seq 0 m.body.length (ofLE (m.body.drop 4))
        (v.1 == OK && v.2.1, v.2.2)
      else
        let c := d.termCheck m (field m.body 0 4)
        (c.1 == OK, c.2)
    let s := { s with dev := r.2 }
    if r.1 ∧ belfryBody 12 m.body ∧ namesObject s.dev m then done (useObject s).2 else done s

/-! ## The manager's side (R331, R374) -/

/-- The pieces that PUT has filled. -/
def putPieces (d : Dev) : Pieces := SMap.get (fun _ => none) d.mgr.pieces

/-- Bytes are written into a piece at an offset. -/
def pieceWrite (old : List Byte) (off : Nat) (data : List Byte) : List Byte :=
  slice old 0 off ++ data ++ old.drop (off + data.length)

/-- PUT: 1 to 1,024 bytes of a piece; none does nothing. -/
def execPealPut (o : Option TMsg) (s : State) : Host.Outcome State Fault Refusal :=
  onJobDev famPeal 1 o (fun m d =>
    let b := m.body
    let piece := field b 0 4
    let off := field b 4 2
    let n := field b 6 2
    if b.length ≠ 8 + n ∨ 1024 < n ∨ 8224 < piece ∨ 4096 < off + n then d.reply m BAD_MESSAGE []
    else if n = 0 then d.reply m OK []
    else
      let new := pieceWrite (pieceBytes (putPieces d) piece) off (b.drop 8)
      ({ d with mgr := { d.mgr with pieces := SMap.put (fun _ => none) d.mgr.pieces piece (some new) } } : Dev).reply m OK []) s

/-- The object of the buffer as it is sent: manifest pieces of 4 KiB, data pieces to LENGTH. -/
def sentPieces (d : Dev) : Pieces := fun i =>
  let g := putPieces d
  (g i).map (fun b =>
    if i < objM g then slice b 0 4096 else slice b 0 (min 4096 (objLength g - 4096 * (i - objM g))))

/-- The object in the buffer verifies (R329). -/
def bufferOk (d : Dev) (kind : Nat) (sig : Bool) : Bool :=
  let g := sentPieces d
  manifestHeld g && manifestGood d g sig && objKind g == kind && objectHeld g &&
    (upFrom (objM g) (objN g)).all (fun i => pieceOk g i (pieceBytes g i))

/-- The one module that a boot campaign serves alone: the only one whose AGT_STATE shows IMAGE_WANTED, for an extension, which
no running module takes, or for the Parlour that every other member runs already. -/
def aloneWanting (d : Dev) (kind digest : Nat) : Option Nat :=
  match d.mgr.mods.filter (fun e => match e.2 with | some y => y.agt.testBit 9 && !y.lost | none => false) with
  | [e] =>
    if kind = kdExt ∨ (kind = kdParlour ∧ (memberMas d).all (fun m => m == e.1 || (mgrMod d m).any (fun y => y.dig == digest % 2 ^ 32))) then
      some e.1
    else none
  | _ => none

/-- The campaign's number: one more than the last, never 0. -/
def nextCampaign (d : Dev) : Nat := d.mgr.lastCampaign % 65535 + 1

/-- A campaign begins with an object that this module holds VERIFIED. -/
def Dev.beginCampaign (d : Dev) (num kind : Nat) (held : SMap (Option (List Byte))) (aim : Option Nat) (auto : Bool) : Dev :=
  let d := (d.setRx { PealRx.none_ with pieces := held, sigOk := true, verified := true }).setPeal num kind plVerified
  { d with mgr := { d.mgr with lastCampaign := num, campaign := some ⟨num, kind, held.length, 0, aim, auto, false⟩ } }

/-- START: the object is verified and a campaign begins; the manager's own module holds the object VERIFIED. -/
def execPealStart (o : Option TMsg) (sig : Bool) (s : State) : Host.Outcome State Fault Refusal :=
  onJobDev famPeal 2 o (fun m d =>
    let b := m.body
    let kind := field b 0 1
    let g := sentPieces d
    if b.length ≠ 8 ∨ field b 1 3 ≠ 0 ∨ kind < 1 ∨ 4 < kind ∨ field b 4 4 ≠ objN g then d.reply m BAD_MESSAGE []
    else if ¬ bufferOk d kind sig then (d.raise 0x069 6).reply m SIG_INVALID []
    else
      let num := nextCampaign d
      let d : Dev := { d with mgr := { d.mgr with pieces := [] } }
      (d.beginCampaign num kind (heldPieces g) (aloneWanting d kind (objDigest g)) false).reply m OK (leBytes 2 num)) s

/-- The manager reads the members' AGT_PEAL_STATE until each shows VERIFIED or FAILED. -/
def Dev.pollPeal (d : Dev) : Dev :=
  let mas := (memberMas d).filter (fun ma => ma != myMa d)
  let r := d.stageOn .peal [mas.map (fun ma => readSend ma Reg.AGT_PEAL_STATE)]
  { r.2 with mgr := { r.2.mgr with scripts := r.2.mgr.scripts.filter (fun x => x.job != .peal) ++ r.1.toList } }

/-- The plan that this manager holds goes to the modules that discovery met. -/
def Dev.planCampaign (d : Dev) : Dev :=
  if d.mgr.planDue ∧ d.agt.planObj ≠ [] then
    let d := d.beginCampaign (nextCampaign d) kdPlan d.agt.planObj none true
    { d with mgr := { d.mgr with planDue := false } }
  else d

/-- A TABLES object of records for every module (R327, R328, R333): its pieces. DESIGN CHOICE (log entry 226): VERSION and SIGNER are
free values. -/
def tablesObject (version signer : Nat) (es : List RegEntry) : SMap (Option (List Byte)) :=
  let record (e : RegEntry) : List Byte :=
    leBytes 2 0 ++ leBytes 2 0x7FFF ++ leBytes 1 e.width ++ leBytes 3 0 ++ leBytes 5 e.addr ++ leBytes 3 0 ++ leBytes 8 e.value
  let data := (es.map record).flatten
  let pieces := chunks 4096 (data.length + 1) data
  let digests := chunks 256 (pieces.length + 1) (pieces.map (fun p => leBytes 16 (Config.shake256 p)))
  let manifest := digests.map (fun g => slice (g.flatten ++ leBytes 4096 0) 0 4096)
  let head := [0x50, 0x45, 0x41, 0x4C] ++ leBytes 1 kdTables ++ leBytes 3 0 ++ leBytes 4 data.length ++ leBytes 4 pieces.length ++
    leBytes 8 version ++ leBytes 8 signer ++ leBytes 64 (Config.shake256 data) ++ leBytes 32 0
  let first := head ++ leBytes 32 (Config.tablesTag (head ++ manifest.flatten)) ++ leBytes 3936 0
  ((first :: manifest) ++ pieces).zipIdx.foldl (fun q e => SMap.put (fun _ => none) q e.2 (some e.1)) []

/-- A campaign of the manager's own begins when one is due and no other runs (DESIGN CHOICE, log entry 216): the TABLES campaign of an
installation whose sets change, once its fragments are answered (R345 step 4), or the plan for the modules that discovery met (R303). -/
def Dev.ownCampaign (d : Dev) : Dev :=
  if ¬ servesJobs d ∨ d.mgr.campaign.any (fun c => !c.done) then d
  else match d.mgr.install with
  | some i =>
    if i.rest ≠ [] ∧ i.tables.isNone ∧ ¬ d.mgr.scripts.any (fun x => x.job == .install) then
      let num := nextCampaign d
      let held := tablesObject (freshAgreed d i.epoch 1 % 2 ^ 64) (freshAgreed d.used i.epoch 2 % 2 ^ 64)
        (memberWrites (i.sets.getD ⟨[], []⟩) (i.epoch % 2))
      let d := d.used.used.beginCampaign num kdTables held none true
      { d with mgr := { d.mgr with install := some { i with tables := some num } } }
    else d.planCampaign
  | none => d.planCampaign

/-- PEAL_PACE: the next piece, or END after the last, leaves along the three stages, or to the one module served; a campaign that
discovery asks for begins here. -/
def execPealPace (s : State) : Host.Outcome State Fault Refusal :=
  doneDev s (fun d =>
    let d := d.ownCampaign
    match d.mgr.campaign with
    | none => d
    | some c =>
      if ¬ servesJobs d ∨ c.pieces < c.next ∨ c.num ≠ pealNum d then d
      else
        let atEnd := c.next = c.pieces
        let seq := if atEnd then c.pieces - 1 else c.next
        let window := if atEnd then 1 else 0
        let data := if atEnd then [] else pieceBytes (rxPieces d) c.next
        let d : Dev := { d with mgr := { d.mgr with campaign := some { c with next := c.next + 1 } } }
        let d := match c.aim with
          | some ma => d.offer (pealTo d 3 ma c.num seq window data)
          | none => d.sendStages [0, 1, 2] c.num seq window data
        if atEnd then d.pollPeal else d)

/-- What the manager has read of a module's AGT_PEAL_STATE for a campaign: 3 VERIFIED, 4 FAILED, else waiting. -/
def pealOf (d : Dev) (num : Nat) (e : Nat × Option MgrMod) : Nat :=
  let v := if e.1 = myMa d then d.rd Reg.AGT_PEAL_STATE
    else match e.2 with | some y => SMap.get (fun _ => 0) y.seen Reg.AGT_PEAL_STATE | none => 0
  if bits v 31 16 = num then bits v 2 0 else 0

/-- The modules that a campaign counts: the members, and the manager's own. -/
def pealModules (d : Dev) : List (Nat × Option MgrMod) :=
  (myMa d, none) :: d.mgr.mods.filter (fun e => e.1 != myMa d && (memberMas d).contains e.1)

/-- The campaign that a body names is the manager's. -/
def namesCampaign (d : Dev) (b : List Byte) : Bool :=
  b.length == 2 && (match d.mgr.campaign with | some c => c.num == field b 0 2 | none => false)

/-- QUERY: the counts of modules VERIFIED, FAILED and waiting. -/
def execPealQuery (o : Option TMsg) (s : State) : Host.Outcome State Fault Refusal :=
  onJobDev famPeal 3 o (fun m d =>
    if ¬ namesCampaign d m.body then d.reply m BAD_MESSAGE []
    else
      let sts := (pealModules d).map (pealOf d (field m.body 0 2))
      let v := (sts.filter (fun x => x == 3)).length
      let f := (sts.filter (fun x => x == 4)).length
      d.reply m OK (leBytes 2 v ++ leBytes 2 f ++ leBytes 2 (sts.length - v - f))) s

/-- COMMIT: PEAL_ACTIVATE to every module; the manager refuses a plan that R319 does not allow. -/
def execPealCommit (o : Option TMsg) (s : State) : Host.Outcome State Fault Refusal :=
  onJobDev famPeal 4 o (fun m d =>
    match d.mgr.campaign with
    | none => d.reply m BAD_MESSAGE []
    | some c =>
      if ¬ namesCampaign d m.body then d.reply m BAD_MESSAGE []
      else if c.kind = kdPlan ∧ (parsePlan (objDigest (rxPieces d)) (objData (rxPieces d))).isNone then d.reply m PLAN_INVALID []
      else
        let d := d.tellActivate (activationOrder d)
        ({ d with mgr := { d.mgr with planDue := false, campaign := some { c with done := true } } } : Dev).reply m OK []) s

end Sys2Proof.Machine
end

