-- ==== Sys2Proof/Machine/Calls.lean ====
section
/-! DEFINITION. Strongroom calls (R300): a core writes a call record with GO, and the Keep core answers it. The record's word 0 says
which call waits; the spec does not lay out words 1-63, so the arguments come with the command and results stand from word 1
on (DESIGN CHOICE, log entry 215). -/

namespace Sys2Proof.Machine

/-- The key of word 0 of a core's call record: core A, or B. -/
def callKey (core : Bool) : Nat := if core then Reg.BEL_CALL_B else Reg.BEL_CALL_A

/-- A call waits in a core's record: GO is set and DONE is not. -/
def callWaits (d : Dev) (core : Bool) : Bool := (d.rd (callKey core)).testBit 31 && !(d.rd (callKey core)).testBit 30

/-- A call with a code waits there. -/
def callIs (d : Dev) (core : Bool) (code : Nat) : Bool := callWaits d core && bits (d.rd (callKey core)) 23 16 == code

/-- The Keep core answers: DONE and the status; a malformed or unanswered record raises CALL_FAULT (R337). -/
def Dev.callDone (d : Dev) (core : Bool) (st : Nat) : Dev :=
  let d := d.wr (callKey core) (setBits (setBit (d.rd (callKey core)) 30) 7 0 st)
  if st = OUT_OF_RANGE ∨ st = TIMEOUT then d.raise 0x068 4 else d

/-- A call of a code is answered with the status that its work gives; nothing happens when no such call waits, or while the Keep
core is stopped (R38, R439). -/
def onCall (core : Bool) (code : Nat) (f : State → Nat × State) (s : State) : Host.Outcome State Fault Refusal :=
  if callIs s.dev core code ∧ ¬ s.dev.coreStopped 1 then
    let r := f s
    done (r.2.onDev (fun d => d.callDone core r.1))
  else done s

/-- The same for a call that touches the device alone. -/
def onCallDev (core : Bool) (code : Nat) (f : Dev → Nat × Dev) (s : State) : Host.Outcome State Fault Refusal :=
  onCall core code (fun s => let r := f s.dev; (r.1, { s with dev := r.2 })) s

/-- VERIFY_OBJECT: `sig` says whether the manifest's signature verifies. -/
def execVerifyObject (core sig : Bool) (s : State) : Host.Outcome State Fault Refusal :=
  onCallDev core 1 (fun d =>
    let g := rxPieces d
    if ¬ manifestHeld g then (SIG_INVALID, d)
    else if d.agt.peal.sigOk then (OK, d)
    else (if manifestGood d g sig then OK else SIG_INVALID, d.pealVerify sig)) s

/-- ACTIVATE_OBJECT: declined unless the object is VERIFIED. -/
def execActivateObject (core : Bool) (s : State) : Host.Outcome State Fault Refusal :=
  onCall core 2 (fun s => if s.dev.agt.peal.verified then useObject s else (ACCESS_DENIED, s)) s

/-- Words 1-8 of a call record take a 32-byte result. -/
def Dev.callResult (d : Dev) (core : Bool) (v : Nat) : Dev := d.wrWide (callKey core + 4) 8 v

/-- Words 1-63 take the first bytes of a longer result. -/
def Dev.callBytes (d : Dev) (core : Bool) (bs : List Byte) : Dev :=
  (upFrom 0 63).foldl (fun d i => d.wr (callKey core + 4 + 4 * i) (field bs (4 * i) 4)) d

/-- SIGN_CLAIM: declined unless the module is the plan's candidate of the rank and the term's COUNT is above AGT_TERM's. No rank is above 7. -/
def execSignClaim (core : Bool) (rank : Nat) (term : Word) (s : State) : Host.Outcome State Fault Refusal :=
  onCallDev core 3 (fun d =>
    if 7 < rank then (OUT_OF_RANGE, d)
    else if myRank d = some rank ∧ d.rd Reg.AGT_TERM / 8 < term.toNat / 8 then
      let plan := match d.agt.plan with | some x => x.id | none => 0
      (OK, d.callResult core (Config.claimTag (claimFields term.toNat (myMa d) rank Config.serial plan)))
    else (ACCESS_DENIED, d)) s

/-- Keys come and go only in DEPLOY (R416) and while DBG_MODE is OFF or OBSERVE (R428). -/
def keysAllowed (d : Dev) : Bool := d.sec.lc == lcDeploy && decide (dbgMode d ≤ 1)

/-- CELLAR_KEY: a tenant's slots are loaded, by a rotation when a key is replaced, or cleared. -/
def execCellarKey (core : Bool) (tenant : Nat) (key : Option Nat) (s : State) : Host.Outcome State Fault Refusal :=
  onCallDev core 4 (fun d =>
    if 511 < tenant then (OUT_OF_RANGE, d)
    else if ¬ keysAllowed d then (ACCESS_DENIED, d)
    else match key with
    | some k => d.loadCelKey tenant k
    | none => (OK, d.setCelKey false tenant CelKey.empty)) s

/-- ATTEST: the report goes to the record as far as it fits. `signs` says that the signature is formed in time; one that is not has no
status in the spec. -/
def execAttest (core : Bool) (nonce : Nat) (signs : Bool) (s : State) : Host.Outcome State Fault Refusal :=
  onCallDev core 5 (fun d =>
    let n := nonce % 2 ^ 256
    if signStatus d ≠ OK then (ACCESS_DENIED, d)
    else match keptReport d n with
    | some r => (OK, d.callBytes core r.data)
    | none =>
      if ¬ signs then (1 + d.fresh % 255, d.used.raise 0x05A 0)
      else (OK, (d.formReport n).2.callBytes core (d.formReport n).1.data)) s

/-- The tenant that a KEY_DELIVERY or WEIGHT_KEY call names. -/
def keyCallTenant : KeyCall → Nat
  | .session t _ => t
  | .weight t _ _ _ _ _ => t

/-- KEY_DELIVERY and WEIGHT_KEY: a tenant's session key or a weight key is accepted or released. -/
def execKeyDelivery (core : Bool) (what : KeyCall) (s : State) : Host.Outcome State Fault Refusal :=
  onCallDev core 6 (fun d =>
    if 511 < keyCallTenant what then (OUT_OF_RANGE, d)
    else if ¬ keysAllowed d then (ACCESS_DENIED, d)
    else match what with
    | .session t k => (OK, d.setSessKey t k)
    | .weight t system single id digest (some k) =>
      if (weightKey d id).isNone ∧ 64 ≤ d.sec.weights.length then (WEIGHT_FULL, d)
      else (OK, d.putWeight ⟨id, t, system, single, digest, k⟩)
    | .weight _ _ _ id _ none => (OK, d.dropWeight id)) s

/-- LOCK: WLOCK bits are set, or a policy entry is written. -/
def execLockCall (core : Bool) (what : LockWhat) (s : State) : Host.Outcome State Fault Refusal :=
  onCallDev core 7 (fun d =>
    match what with
    | .wlock b v => if (pageOf b.toNat).isNone then (OUT_OF_RANGE, d) else (OK, d.setLocks b.toNat v.toNat)
    | .policy i v => if 256 ≤ i then (OUT_OF_RANGE, d) else d.policyPut i v.toNat) s

/-- CALL_TIMEOUT: a call that has waited 100 ms completes with TIMEOUT. -/
def execCallTimeout (core : Bool) (s : State) : Host.Outcome State Fault Refusal :=
  doneDev s (fun d => if callWaits d core then d.callDone core TIMEOUT else d)

end Sys2Proof.Machine
end

