-- ==== Sys2Proof/Machine/Electrical.lean ====
section
/-! DEFINITION. Feeds (R464, R523-R527), thermal limits (R528, R529), board signals (R530), SYNC_IN (R531), PGOOD (R532) and the
telemetry bus (R533), the oscillators' checks (R478) and the links of the host and Cellar ports. -/

namespace Sys2Proof.Machine

/-! ## Feeds -/

/-- A bit of PWR_FEED_STATE, and that bit set to a value. -/
def feedBit (d : Dev) (n : Nat) : Bool := (d.rd Reg.PWR_FEED_STATE).testBit n
def Dev.setFeedBit (d : Dev) (n : Nat) (v : Bool) : Dev :=
  d.wr Reg.PWR_FEED_STATE (setBits (d.rd Reg.PWR_FEED_STATE) n n (b2n v))

/-- The agent tells the manager at once that a feed appeared or disappeared (R353). -/
def Dev.feedSummary (d : Dev) : Dev := if d.powered.core then d.sendSummary else d

/-- Feed `f` (0 A, 1 B) becomes absent; a qualification ends with it. -/
def Dev.feedLost (d : Dev) (f : Nat) : Dev :=
  let was := feedBit d f
  let d := (d.setFeedBit f false).setFeedBit (2 + f) false
  if was then ((d.count Reg.PWR_FEED_LOSS_COUNT).raise 0x002 f).feedSummary else d

/-- FEED_LOST. -/
def execFeedLost (b : Bool) (s : State) : Host.Outcome State Fault Refusal :=
  doneDev s (fun d => if d.powered.aon then d.feedLost (b2n b) else d)

/-- OVERVOLT: the feed becomes absent. -/
def execOvervolt (b : Bool) (s : State) : Host.Outcome State Fault Refusal :=
  doneDev s (fun d => if d.powered.aon then (d.feedLost (b2n b)).raise 0x002 4 else d)

/-- FEED_QUALIFY_START. -/
def execFeedQualifyStart (b : Bool) (s : State) : Host.Outcome State Fault Refusal :=
  doneDev s (fun d => if d.powered.aon ∧ ¬ feedBit d (b2n b) then d.setFeedBit (2 + b2n b) true else d)

/-- FEED_RETURN: the qualification ends and the switch closes; UNDERVOLT ends with it. -/
def execFeedReturn (b : Bool) (s : State) : Host.Outcome State Fault Refusal :=
  doneDev s (fun d =>
    if feedBit d (2 + b2n b) then
      let d := ((d.setFeedBit (b2n b) true).setFeedBit (2 + b2n b) false).setFeedBit 4 false
      (d.raise 0x002 2).feedSummary
    else d)

/-- ORING: a switch passes reverse current. -/
def execOring (b : Bool) (s : State) : Host.Outcome State Fault Refusal :=
  doneDev s (fun d => if d.powered.aon then (d.setFeedBit (5 + b2n b) true).raise 0x002 5 else d)

/-- UNDERVOLT: neither feed is present; the recorder writes its queue out (R490, R525). -/
def execUndervolt (s : State) : Host.Outcome State Fault Refusal :=
  doneDev s (fun d =>
    if d.powered.aon ∧ ¬ feedBit d 0 ∧ ¬ feedBit d 1 ∧ ¬ feedBit d 4 then
      ((d.setFeedBit 4 true).raise 0x002 3).recPowerLoss
    else d)

/-- ENTRY_TO_OFF: every domain loses regulation. What a reset of kind P keeps is all that is left (R512, R518). -/
def execEntryToOff (s : State) : Host.Outcome State Fault Refusal :=
  let s := powerLost s false false
  doneDev s (fun d => { d with powered := ⟨false, false, 0, 0⟩ })

/-- PRECHARGE_DONE. -/
def execPrechargeDone (s : State) : Host.Outcome State Fault Refusal :=
  doneDev s (fun d => if d.powered.aon then d.setFeedBit 7 true else d)

/-- CONVERTER and OVERCURRENT (R527). -/
def execConverter (s : State) : Host.Outcome State Fault Refusal := doneDev s (fun d => d.raise 0x002 6)
def execOvercurrent (s : State) : Host.Outcome State Fault Refusal := doneDev s (fun d => d.raise 0x002 7)

/-! ## Temperatures (R528, R529) -/

/-- A die's reading in tenths of a degree. -/
def Dev.dieRead (d : Dev) (i : Nat) (t : Int) : Dev := d.wr (Reg.THM_DIE + 4 * i) (2 ^ 31 + unsigned 16 t)

/-- Readings of dies 0 to 8. -/
def Dev.dieReads (d : Dev) (i : Nat) : List Int → Dev
  | [] => d
  | t :: ts => if 8 < i then d else Dev.dieReads (d.dieRead i t) (i + 1) ts

/-- WARN: a die's reading reaches THM_WARN. -/
def execWarn (die : Fin 9) (t : Int) (s : State) : Host.Outcome State Fault Refusal :=
  doneDev s (fun d =>
    let d := d.dieRead die.val t
    if dieAbove d (d.rd Reg.THM_WARN) then (d.thmLevel).raise 0x003 0 else d)

/-- CRITICAL: a die's reading reaches THM_CRITICAL, and every tile clock stops. -/
def execCritical (die : Fin 9) (t : Int) (s : State) : Host.Outcome State Fault Refusal :=
  doneDev s (fun d =>
    let d := d.dieRead die.val t
    if dieHot d then (d.thmLevel).raise 0x003 1 else d)

/-- THERMAL_TRIP: a die at 115 degrees; Standby at once, without waves or scrub, after a record (R528). -/
def execThermalTrip (die : Fin 9) (t : Int) (s : State) : Host.Outcome State Fault Refusal :=
  let s := s.onDev (fun d => d.dieRead die.val t)
  if t < 1150 ∨ ¬ s.dev.powered.aon then done s
  else if ¬ s.dev.powered.core then doneDev s (fun d => d.wr Reg.PWR_TARGET 3)
  else
    let s := s.onDev (fun d =>
      let d := (d.shutdownRecord 3).wr Reg.PWR_TARGET 3
      let d : Dev := { d with
        pwr := { d.pwr with
          wave := none, phase := 0, scrubs := [], scrubFirst := false, changeAt := d.clk.aon
          running := d.pwr.running.filter (fun r => r.kind == rkModule) }
        sec := { d.sec with unsealing := none, transition := none } }
      let d := (d.wr Reg.PWR_SCRUB 0).wr Reg.PWR_STATE (clearBit (d.rd Reg.PWR_STATE) 8)
      ((d.toStandby).wingsOff).showHalves)
    done s.forget

/-- THERMAL_COOLED: for 100 ms every die has stayed 5 degrees below a threshold; the readings of the dies now. -/
def execThermalCooled (reads : List Int) (s : State) : Host.Outcome State Fault Refusal :=
  doneDev s (fun d =>
    let d := (d.dieReads 0 reads).thmCheck
    if thmState d = 0 then d
    else if dieBelow d (d.rd Reg.THM_WARN) ∧ ¬ d.pwr.thermN then d.thmEnter 0
    else if thmState d = 2 ∧ dieBelow d (d.rd Reg.THM_CRITICAL) then d.thmEnter 1
    else d)

/-- THERM_N: the pin passes its filter. -/
def execThermN (s : State) : Host.Outcome State Fault Refusal :=
  doneDev s (fun d =>
    if d.powered.aon ∧ ¬ d.pwr.thermN then
      (({ d with pwr := { d.pwr with thermN := true } } : Dev).thmLevel).raise 0x003 2
    else d)

/-- THERM_N_RELEASE; `cool` says that every die has been 5 degrees below THM_WARN for 100 ms. -/
def execThermNRelease (cool : Bool) (s : State) : Host.Outcome State Fault Refusal :=
  doneDev s (fun d =>
    let d : Dev := { d with pwr := { d.pwr with thermN := false } }
    if cool ∧ thmState d = 1 ∧ dieBelow d (d.rd Reg.THM_WARN) then d.thmEnter 0 else d)

/-- SENSOR: the two sensors of a die disagree; the higher reading governs. -/
def execSensor (die : Fin 9) (t : Int) (s : State) : Host.Outcome State Fault Refusal :=
  doneDev s (fun d => (d.dieRead die.val t).thmCheck.raise 0x003 3)

/-! ## Oscillators and links -/

/-- REF_LOST and AON_DRIFT. -/
def execRefLost (s : State) : Host.Outcome State Fault Refusal := doneDev s (fun d => d.raise 0x001 0)
def execAonDrift (s : State) : Host.Outcome State Fault Refusal := doneDev s (fun d => d.raise 0x001 1)

/-- HOST_LINK_UP: the link is up in the mode that ETH_MODE selects (R364). -/
def execHostLinkUp (s : State) : Host.Outcome State Fault Refusal :=
  doneDev s (fun d => if d.powered.aon then d.wr Reg.ETH_LINK (2 ^ 31 + bits (d.rd Reg.ETH_MODE) 1 0) else d)

/-- LINK_DOWN. -/
def execLinkDown (s : State) : Host.Outcome State Fault Refusal :=
  doneDev s (fun d =>
    if (d.rd Reg.ETH_LINK).testBit 31 then (d.wr Reg.ETH_LINK (clearBit (d.rd Reg.ETH_LINK) 31)).raise 0x040 0 else d)

/-- CEL_TRAIN_FAIL: the port is left FAILED (R502). -/
def execCelTrainFail (p : Fin 4) (s : State) : Host.Outcome State Fault Refusal :=
  doneDev s (fun d => if d.powered.core then d.celFail p.val else d)

/-! ## SYNC_IN (R531) -/

/-- SYNC_IN: a counted pulse whose rising edge falls this many ns into the measure in progress. -/
def execSyncIn (phase : Nat) (s : State) : Host.Outcome State Fault Refusal :=
  doneDev s (fun d =>
    let p := 1000 * d.msr.period
    if ¬ d.powered.aon then d
    else if 3 * p ≤ 4 * phase then
      { d.count Reg.MSR_SYNC_ACCEPT_COUNT with msr := { d.msr with shift := some phase } }
    else if 4 * phase ≤ p then
      { d.count Reg.MSR_SYNC_ACCEPT_COUNT with msr := { d.msr with shift := some (phase + p) } }
    else (d.count Reg.MSR_SYNC_REJECT_COUNT).raise 0x06A 0)

/-! ## PGOOD and telemetry (R532, R533) -/

/-- PGOOD is released. -/
def pgood (d : Dev) : Bool :=
  let st := powerState d
  d.powered.aon && feedBit d 7 && !feedBit d 4 && bootStage d != sgPor &&
  (st == 3 || (d.powered.core && (st == 2 || (d.powered.wings == 255 && d.powered.halves == 65535))))

/-- The mantissa and exponent of a quantity `num / den` in PMBus LINEAR11, the smallest exponent whose mantissa fits, rounded to
nearest. -/
def linear11 (num den : Nat) : Nat :=
  let y (e : Nat) : Nat := (num * 2 ^ 17 / (den * 2 ^ e) + 1) / 2
  match (upFrom 0 32).find? (fun e => decide (y e ≤ 1023)) with
  | some e => ((e + 16) % 32) * 2 ^ 11 + y e
  | none => 15 * 2 ^ 11 + 1023

/-- The same of a quantity with a sign. -/
def linear11Int (x : Int) (den : Nat) : Nat :=
  let v := linear11 x.natAbs den
  if x < 0 then v / 2 ^ 11 * 2 ^ 11 + (2 ^ 11 - v % 2 ^ 11) % 2 ^ 11 else v

/-- The target answers while the always-on domain is powered. -/
def Dev.pmbusAnswer (d : Dev) (code : Nat) (bs : List Byte) : Dev := if d.powered.aon then d.send (.pmbus code bs) else d

/-- STATUS_WORD. -/
def statusPmbus (d : Dev) : Nat :=
  let p := d.rd (rkey 0x002 0x020)
  let t := d.rd (rkey 0x003 0x020)
  b2n (p.testBit 6) * 2 ^ 15 + b2n (p.testBit 7) * 2 ^ 13 + b2n (!pgood d) * 2 ^ 11 +
    b2n (p.testBit 3 || p.testBit 4) * 2 ^ 5 + b2n (t.testBit 1) * 2 ^ 2

/-- STATUS_WORD, PMBUS_REVISION and MFR_SERIAL. -/
def execStatusWord (s : State) : Host.Outcome State Fault Refusal :=
  doneDev s (fun d => d.pmbusAnswer 0x79 (leBytes 2 (statusPmbus d)))
def execPmbusRevision (s : State) : Host.Outcome State Fault Refusal := doneDev s (fun d => d.pmbusAnswer 0x98 [0x33])
def execMfrSerial (s : State) : Host.Outcome State Fault Refusal :=
  doneDev s (fun d => d.pmbusAnswer 0x9E (8 :: leBytes 8 Config.serial))

/-- The feeds' readings, in the registers' form. -/
def Dev.feedReads (d : Dev) (a b : Nat) : Dev := (d.wr Reg.PWR_FEED_A a).wr Reg.PWR_FEED_B b

/-- READ_VIN: the higher feed voltage; the readings are refreshed. -/
def execReadVin (a b : Word) (s : State) : Host.Outcome State Fault Refusal :=
  doneDev s (fun d => (d.feedReads a.toNat b.toNat).pmbusAnswer 0x88
    (leBytes 2 (linear11 (max (bits a.toNat 31 16) (bits b.toNat 31 16)) 100)))

/-- READ_IIN: the sum of both feed currents. -/
def execReadIin (a b : Word) (s : State) : Host.Outcome State Fault Refusal :=
  doneDev s (fun d => (d.feedReads a.toNat b.toNat).pmbusAnswer 0x89
    (leBytes 2 (linear11 (bits a.toNat 15 0 + bits b.toNat 15 0) 100)))

/-- READ_PIN: the input power in W. -/
def execReadPin (w : BitVec 16) (s : State) : Host.Outcome State Fault Refusal :=
  doneDev s (fun d =>
    let d := (d.wr Reg.PWR_INPUT w.toNat).wr Reg.PWR_PEAK (max w.toNat (d.rd Reg.PWR_PEAK))
    d.pmbusAnswer 0x97 (leBytes 2 (linear11 w.toNat 1)))

/-- READ_TEMPERATURE_1: the hottest die, after the readings of dies 0 to 8. -/
def execReadTemperature1 (reads : List Int) (s : State) : Host.Outcome State Fault Refusal :=
  doneDev s (fun d =>
    let d := (d.dieReads 0 reads).thmCheck
    let hot := (upFrom 0 9).foldl (fun (o : Option Int) i =>
      match o, dieTemp d i with
      | some x, some t => some (max x t)
      | none, t => t
      | o, none => o) none
    d.pmbusAnswer 0x8D (leBytes 2 (linear11Int (hot.getD 0) 10)))

/-- SMBUS_CLOCK_TIMEOUT. -/
def execSmbusClockTimeout (s : State) : Host.Outcome State Fault Refusal := doneDev s (fun d => d.send .pmbusRelease)

end Sys2Proof.Machine
end

