-- ==== Sys2Proof/Machine/Slices.lean ====
section
/-! DEFINITION. The JOB family for slices and drains (R347-R352, R358, R374). -/

namespace Sys2Proof.Machine

/-! ## Assemblies (R374) -/

/-- The number under which a request's session is kept: its slot. -/
def sessionKey (m : TMsg) : Nat := match m.src with | .host slot => slot.val | _ => 16

/-- SLICE_BEGIN: a new assembly takes the place of one that was not committed. -/
def execSliceBegin (o : Option TMsg) (s : State) : Host.Outcome State Fault Refusal :=
  onJobDev famJob 1 o (fun m d =>
    let b := m.body
    let t := field b 0 2
    if b.length ≠ 12 ∨ 511 < t ∨ 1 < field b 2 1 ∨ field b 3 1 ≠ 0 then d.reply m BAD_MESSAGE []
    else if (asmOf d t).any (·.waiting.isSome) then d.reply m SLICE_BUSY []
    else
      let d := d.setAsm t (some ⟨field b 2 1 == 1, field b 4 4, field b 8 4, [], [], none⟩)
      ({ d with mgr := { d.mgr with begun := SMap.put (fun _ => 0) d.mgr.begun (sessionKey m) (t + 1) } } : Dev).reply m OK []) s

/-- Members or records enter an assembly from an index on. -/
def SliceAsm.addMembers (x : SliceAsm) (at_ : Nat) (mas : List Nat) : SliceAsm :=
  { x with members := mas.zipIdx.foldl (fun q e => SMap.put (fun _ => none) q (at_ + e.2) (some e.1)) x.members }
def SliceAsm.addRecords (x : SliceAsm) (at_ : Nat) (rs : List (List Byte)) : SliceAsm :=
  { x with records := rs.zipIdx.foldl (fun q e => SMap.put (fun _ => none) q (at_ + e.2) (some e.1)) x.records }

/-- SLICE_PART: items for the assembly that its session began last. -/
def execSlicePart (o : Option TMsg) (s : State) : Host.Outcome State Fault Refusal :=
  onJobDev famJob 2 o (fun m d =>
    let b := m.body
    let item := field b 0 1
    let n := field b 2 2
    let at_ := field b 4 4
    let size := if item = 0 then 2 else 24
    let t1 := SMap.get (fun _ => 0) d.mgr.begun (sessionKey m)
    if 1 < item ∨ field b 1 1 ≠ 0 ∨ (if item = 0 then 700 else 58) < n ∨ b.length ≠ 8 + size * n then d.reply m BAD_MESSAGE []
    else if n = 0 then d.reply m OK []
    else if t1 = 0 then d.reply m BAD_MESSAGE []
    else match asmOf d (t1 - 1) with
    | none => d.reply m BAD_MESSAGE []
    | some x =>
      if (if item = 0 then x.count else x.recCount) < at_ + n then d.reply m BAD_MESSAGE []
      else if item = 0 then
        (d.setAsm (t1 - 1) (some (x.addMembers at_ ((upFrom 0 n).map (fun i => field b (8 + 2 * i) 2))))).reply m OK []
      else
        (d.setAsm (t1 - 1) (some (x.addRecords at_ ((upFrom 0 n).map (fun i => slice b (8 + 24 * i) 24))))).reply m OK []) s

/-! ## Creation (R350) -/

/-- SLICE_COMMIT: the members' scrubs are read, where the manager can ask, and the slice is set up once the checks have passed; a second
COMMIT meanwhile finds the tenant busy (DESIGN CHOICE, log entry 253). -/
def execSliceCommit (o : Option TMsg) (s : State) : Host.Outcome State Fault Refusal :=
  onJobDev famJob 3 o (fun m d =>
    let t := field m.body 0 2
    if m.body.length ≠ 2 ∨ 511 < t then d.reply m BAD_MESSAGE []
    else
      let d := d.placeSelf
      match (asmOf d t).bind (fun x => x.items.map (fun i => (x, i.1))) with
      | none => d.reply m SLICE_INVALID []
      | some (x, mas) =>
        if x.waiting.isSome then d.reply m SLICE_BUSY []
        else
          let asked := (memberMas d).filter (fun ma => ma != myMa d && mas.contains ma)
          let r := d.beginScript (.check t) [asked.map (fun ma => readSend ma Reg.PWR_STATE)]
          if r.1 then r.2.setAsm t (some { x with waiting := some m }) else r.2.sliceCommit t m) s

/-! ## Query and release (R349, R352) -/

/-- SLICE_QUERY: state, last status and number of members; 0 for a tenant without a slice. -/
def execSliceQuery (o : Option TMsg) (s : State) : Host.Outcome State Fault Refusal :=
  onJobDev famJob 4 o (fun m d =>
    let t := field m.body 0 2
    if m.body.length ≠ 2 ∨ 511 < t then d.reply m BAD_MESSAGE []
    else match sliceOf d t with
    | some y => d.reply m OK (leBytes 1 (if y.st = 5 then 1 else y.st) ++ leBytes 1 y.last ++ leBytes 2 y.members.length)
    | none => d.reply m OK [0, 0, 0, 0]) s

/-- SLICE_RELEASE: an ACTIVE or DEGRADED slice is torn down. -/
def execSliceRelease (o : Option TMsg) (s : State) : Host.Outcome State Fault Refusal :=
  onJobDev famJob 5 o (fun m d =>
    let t := field m.body 0 2
    if m.body.length ≠ 2 ∨ 511 < t then d.reply m BAD_MESSAGE []
    else match sliceOf d t with
    | none => d.reply m SLICE_INVALID []
    | some y => if y.st = 2 ∨ y.st = 3 then (d.sliceRelease t OK).reply m OK [] else d.reply m SLICE_BUSY []) s

/-! ## Drains (R358) -/

/-- A module belongs to a slice. -/
def inSlice (d : Dev) (ma : Nat) : Bool :=
  d.mgr.slices.any (fun e => match e.2 with | some y => y.members.contains ma | none => false)

/-- DRAIN: the module is excluded as DRAINING and an installation takes it off its lines. -/
def execTransitDrain (o : Option TMsg) (s : State) : Host.Outcome State Fault Refusal :=
  onJobDev famJob 6 o (fun m d =>
    let ma := field m.body 0 2
    if m.body.length ≠ 2 ∨ ¬ ((memberMas d).contains ma ∨ ma = myMa d) then d.reply m BAD_MESSAGE []
    else if inSlice d ma then d.reply m SLICE_BUSY []
    else
      let ex := if d.mgr.excluded.contains ma then d.mgr.excluded else d.mgr.excluded ++ [ma]
      let d : Dev := { d with mgr := { d.mgr with excluded := ex, drains := SMap.put (fun _ => 0) d.mgr.drains ma 1 } }
      d.startInstall.reply m OK []) s

/-- DRAIN_QUERY. -/
def execDrainQuery (o : Option TMsg) (s : State) : Host.Outcome State Fault Refusal :=
  onJobDev famJob 7 o (fun m d =>
    let ma := field m.body 0 2
    let v := SMap.get (fun _ => 0) d.mgr.drains ma
    if m.body.length ≠ 2 ∨ v = 0 then d.reply m BAD_MESSAGE []
    else d.reply m OK (leBytes 1 (v - 1))) s

end Sys2Proof.Machine
end

