-- ==== Sys2Proof/Machine/Dispatch.lean ====
section
/-! DEFINITION. The dispatch: one arm per constructor of `Instr`, each one direct call of its meaning. -/

namespace Sys2Proof.Machine

def exec (i : Instr) (s : State) : Host.Outcome State Fault Refusal :=
  match i with
  | .hallRequest reqs => Sys2Proof.Machine.execHallRequest reqs s
  | .hallResponse src dst tag status => Sys2Proof.Machine.execHallResponse src dst tag status s
  | .hallTimeout src dst tag => Sys2Proof.Machine.execHallTimeout src dst tag s
  | .ucieLost w m => Sys2Proof.Machine.execUcieLost w m s
  | .wingLost w => Sys2Proof.Machine.execWingLost w s
  | .islandStop isl => Sys2Proof.Machine.execIslandStop isl s
  | .islandRestart isl => Sys2Proof.Machine.execIslandRestart isl s
  | .registerWrite master addr width value => Sys2Proof.Machine.execRegisterWrite master addr width value s
  | .errForce master block value => Sys2Proof.Machine.execErrForce master block value s
  | .errInvchk master block value => Sys2Proof.Machine.execErrInvchk master block value s
  | .wlock master block value => Sys2Proof.Machine.execWlock master block value s
  | .policyEntryWrite master entry high value => Sys2Proof.Machine.execPolicyEntryWrite master entry high value s
  | .accessTimeout master addr => Sys2Proof.Machine.execAccessTimeout master addr s
  | .pageAnswerLate master addr => Sys2Proof.Machine.execPageAnswerLate master addr s
  | .kblockDone i1 err => Sys2Proof.Machine.execKblockDone i1 err s
  | .tileBlockDone i1 => Sys2Proof.Machine.execTileBlockDone i1 s
  | .operandTimeout i1 => Sys2Proof.Machine.execOperandTimeout i1 s
  | .tileClearDone i1 => Sys2Proof.Machine.execTileClearDone i1 s
  | .clearFault i1 => Sys2Proof.Machine.execClearFault i1 s
  | .pllUnlock c => Sys2Proof.Machine.execPllUnlock c s
  | .park master i1 value => Sys2Proof.Machine.execPark master i1 value s
  | .arrSubmit master value => Sys2Proof.Machine.execArrSubmit master value s
  | .arrOpStart => Sys2Proof.Machine.execArrOpStart s
  | .arrWindowEntry => Sys2Proof.Machine.execArrWindowEntry s
  | .passDone => Sys2Proof.Machine.execPassDone s
  | .arrOutputAck n status => Sys2Proof.Machine.execArrOutputAck n status s
  | .arrOpComplete => Sys2Proof.Machine.execArrOpComplete s
  | .arrCplTail master value => Sys2Proof.Machine.execArrCplTail master value s
  | .cplWrite => Sys2Proof.Machine.execCplWrite s
  | .arrFlush master hold => Sys2Proof.Machine.execArrFlush master hold s
  | .arrHold master hold => Sys2Proof.Machine.execArrHold master hold s
  | .arrTenantWrite master value => Sys2Proof.Machine.execArrTenantWrite master value s
  | .arrStallTimeout => Sys2Proof.Machine.execArrStallTimeout s
  | .arrFailDrained => Sys2Proof.Machine.execArrFailDrained s
  | .handshake part => Sys2Proof.Machine.execHandshake part s
  | .gdTrainDone w dev => Sys2Proof.Machine.execGdTrainDone w dev s
  | .gdTrainTimeout w dev => Sys2Proof.Machine.execGdTrainTimeout w dev s
  | .gdRetrainPeriod w => Sys2Proof.Machine.execGdRetrainPeriod w s
  | .gdRecalDone w dev => Sys2Proof.Machine.execGdRecalDone w dev s
  | .gdLineRead addr err user => Sys2Proof.Machine.execGdLineRead addr err user s
  | .gdLineWrite addr bytes user => Sys2Proof.Machine.execGdLineWrite addr bytes user s
  | .gdPatrol w dev err => Sys2Proof.Machine.execGdPatrol w dev err s
  | .wngRegionWrite master w n owner value => Sys2Proof.Machine.execWngRegionWrite master w n owner value s
  | .cellarUnitAccess n err => Sys2Proof.Machine.execCellarUnitAccess n err s
  | .cxlTimeout p eng => Sys2Proof.Machine.execCxlTimeout p eng s
  | .retrain master mask => Sys2Proof.Machine.execRetrain master mask s
  | .celPortTrained p how => Sys2Proof.Machine.execCelPortTrained p how s
  | .celPageGive master p n system tenant => Sys2Proof.Machine.execCelPageGive master p n system tenant s
  | .celPageRelease master p n => Sys2Proof.Machine.execCelPageRelease master p n s
  | .celReleaseFillDone p n => Sys2Proof.Machine.execCelReleaseFillDone p n s
  | .sweepUnitRead p => Sys2Proof.Machine.execSweepUnitRead p s
  | .sweepJournalAck p => Sys2Proof.Machine.execSweepJournalAck p s
  | .sweepUnitDone p => Sys2Proof.Machine.execSweepUnitDone p s
  | .slotRetire tenant => Sys2Proof.Machine.execSlotRetire tenant s
  | .copySubmit master n value => Sys2Proof.Machine.execCopySubmit master n value s
  | .copyStart n => Sys2Proof.Machine.execCopyStart n s
  | .copyComplete n => Sys2Proof.Machine.execCopyComplete n s
  | .copyFailDone n => Sys2Proof.Machine.execCopyFailDone n s
  | .copyFault n => Sys2Proof.Machine.execCopyFault n s
  | .celCeTenantWrite master n value => Sys2Proof.Machine.execCelCeTenantWrite master n value s
  | .lnkRetryInterval p => Sys2Proof.Machine.execLnkRetryInterval p s
  | .detectDone p signal rates => Sys2Proof.Machine.execDetectDone p signal rates s
  | .equalizeDone p lanes => Sys2Proof.Machine.execEqualizeDone p lanes s
  | .alignDone p delay peer => Sys2Proof.Machine.execAlignDone p delay peer s
  | .introFrame p f i1 => Sys2Proof.Machine.execIntroFrame p f i1 s
  | .introDone p => Sys2Proof.Machine.execIntroDone p s
  | .kx1 p m => Sys2Proof.Machine.execKx1 p m s
  | .kx2 p m => Sys2Proof.Machine.execKx2 p m s
  | .kx3 p m => Sys2Proof.Machine.execKx3 p m s
  | .lnkTrainTimeout p => Sys2Proof.Machine.execLnkTrainTimeout p s
  | .dataFrame p f => Sys2Proof.Machine.execDataFrame p f s
  | .ctrlFrame p f c => Sys2Proof.Machine.execCtrlFrame p f c s
  | .nakFrame p f c => Sys2Proof.Machine.execNakFrame p f c s
  | .rot p f c => Sys2Proof.Machine.execRot p f c s
  | .rotack p f c => Sys2Proof.Machine.execRotack p f c s
  | .nakRepeat p => Sys2Proof.Machine.execNakRepeat p s
  | .ctrlFrameDue p => Sys2Proof.Machine.execCtrlFrameDue p s
  | .laneBad p lane => Sys2Proof.Machine.execLaneBad p lane s
  | .laneChangeSet p mask => Sys2Proof.Machine.execLaneChangeSet p mask s
  | .laneReady p ack => Sys2Proof.Machine.execLaneReady p ack s
  | .holdTimeout p => Sys2Proof.Machine.execHoldTimeout p s
  | .lockLost p => Sys2Proof.Machine.execLockLost p s
  | .widen master p => Sys2Proof.Machine.execWiden master p s
  | .widenEqualizeDone p lanes => Sys2Proof.Machine.execWidenEqualizeDone p lanes s
  | .rotate master p => Sys2Proof.Machine.execRotate master p s
  | .keyCountLimit p => Sys2Proof.Machine.execKeyCountLimit p s
  | .rotResend p => Sys2Proof.Machine.execRotResend p s
  | .keyLimit p => Sys2Proof.Machine.execKeyLimit p s
  | .silence p => Sys2Proof.Machine.execSilence p s
  | .admitPort master p => Sys2Proof.Machine.execAdmitPort master p s
  | .markMiswired master p => Sys2Proof.Machine.execMarkMiswired master p s
  | .linkRetrain master p => Sys2Proof.Machine.execLinkRetrain master p s
  | .enablePort master p enable compat => Sys2Proof.Machine.execEnablePort master p enable compat s
  | .packetInject o => Sys2Proof.Machine.execPacketInject o s
  | .packetArrival o => Sys2Proof.Machine.execPacketArrival o s
  | .writePkt o => Sys2Proof.Machine.execWritePkt o s
  | .readReq o => Sys2Proof.Machine.execReadReq o s
  | .readResp o => Sys2Proof.Machine.execReadResp o s
  | .mcastPkt o => Sys2Proof.Machine.execMcastPkt o s
  | .ackPkt o => Sys2Proof.Machine.execAckPkt o s
  | .mgmtPkt o tag => Sys2Proof.Machine.execMgmtPkt o tag s
  | .mbxPostPacket o => Sys2Proof.Machine.execMbxPostPacket o s
  | .pealPkt o sig => Sys2Proof.Machine.execPealPkt o sig s
  | .writeStored => Sys2Proof.Machine.execWriteStored s
  | .readDataReady => Sys2Proof.Machine.execReadDataReady s
  | .ackDelay src opid => Sys2Proof.Machine.execAckDelay src opid s
  | .rtrOpTimeout i1 => Sys2Proof.Machine.execRtrOpTimeout i1 s
  | .windowEntryWrite master w wide value => Sys2Proof.Machine.execWindowEntryWrite master w wide value s
  | .rtrRaSubmit master value => Sys2Proof.Machine.execRtrRaSubmit master value s
  | .raStart => Sys2Proof.Machine.execRaStart s
  | .raEntryTaken => Sys2Proof.Machine.execRaEntryTaken s
  | .raComplete => Sys2Proof.Machine.execRaComplete s
  | .routeEntryWrite master bank m value => Sys2Proof.Machine.execRouteEntryWrite master bank m value s
  | .rtbSeal master value => Sys2Proof.Machine.execRtbSeal master value s
  | .rtbUnseal master value => Sys2Proof.Machine.execRtbUnseal master value s
  | .rtbFlip master value => Sys2Proof.Machine.execRtbFlip master value s
  | .drainTimer b => Sys2Proof.Machine.execDrainTimer b s
  | .hopAge p vc => Sys2Proof.Machine.execHopAge p vc s
  | .rtbParamWrite master hops bank value => Sys2Proof.Machine.execRtbParamWrite master hops bank value s
  | .measureBoundary util stall => Sys2Proof.Machine.execMeasureBoundary util stall s
  | .colSubmit master value => Sys2Proof.Machine.execColSubmit master value s
  | .colHeadCheck => Sys2Proof.Machine.execColHeadCheck s
  | .colEntryTaken => Sys2Proof.Machine.execColEntryTaken s
  | .colQuotaReserved => Sys2Proof.Machine.execColQuotaReserved s
  | .groupEntryWrite master group wide value => Sys2Proof.Machine.execGroupEntryWrite master group wide value s
  | .grpDisable master value => Sys2Proof.Machine.execGrpDisable master value s
  | .memberPoolWrite master i1 value => Sys2Proof.Machine.execMemberPoolWrite master i1 value s
  | .openChunk o => Sys2Proof.Machine.execOpenChunk o s
  | .verdictChunk o => Sys2Proof.Machine.execVerdictChunk o s
  | .abortChunk o => Sys2Proof.Machine.execAbortChunk o s
  | .creditChunk o => Sys2Proof.Machine.execCreditChunk o s
  | .dataChunk o => Sys2Proof.Machine.execDataChunk o s
  | .resultChunk o => Sys2Proof.Machine.execResultChunk o s
  | .colOpenResend i1 => Sys2Proof.Machine.execColOpenResend i1 s
  | .colInputReadDone i1 => Sys2Proof.Machine.execColInputReadDone i1 s
  | .colResultWriteAck i1 => Sys2Proof.Machine.execColResultWriteAck i1 s
  | .colJoinTimeout i1 => Sys2Proof.Machine.execColJoinTimeout i1 s
  | .colProgressTimeout i1 => Sys2Proof.Machine.execColProgressTimeout i1 s
  | .colFlush master hold => Sys2Proof.Machine.execColFlush master hold s
  | .colHold master hold => Sys2Proof.Machine.execColHold master hold s
  | .colTenantWrite master value => Sys2Proof.Machine.execColTenantWrite master value s
  | .arrayHandover => Sys2Proof.Machine.execArrayHandover s
  | .abandonmentNotice => Sys2Proof.Machine.execAbandonmentNotice s
  | .verifyObject core sig => Sys2Proof.Machine.execVerifyObject core sig s
  | .activateObject core => Sys2Proof.Machine.execActivateObject core s
  | .signClaim core rank term => Sys2Proof.Machine.execSignClaim core rank term s
  | .cellarKey core tenant key => Sys2Proof.Machine.execCellarKey core tenant key s
  | .attest core nonce signs => Sys2Proof.Machine.execAttest core nonce signs s
  | .keyDelivery core what => Sys2Proof.Machine.execKeyDelivery core what s
  | .lockCall core what => Sys2Proof.Machine.execLockCall core what s
  | .callTimeout core => Sys2Proof.Machine.execCallTimeout core s
  | .imageFetchTimeout => Sys2Proof.Machine.execImageFetchTimeout s
  | .imageFetchRetry => Sys2Proof.Machine.execImageFetchRetry s
  | .imageGetResend piece off => Sys2Proof.Machine.execImageGetResend piece off s
  | .imageData kind piece off data known sig => Sys2Proof.Machine.execImageData kind piece off data known sig s
  | .planFetchRetry => Sys2Proof.Machine.execPlanFetchRetry s
  | .claim o tag => Sys2Proof.Machine.execClaim o tag s
  | .claimAck o => Sys2Proof.Machine.execClaimAck o s
  | .termNotice o => Sys2Proof.Machine.execTermNotice o s
  | .claimStagger => Sys2Proof.Machine.execClaimStagger s
  | .standby src term => Sys2Proof.Machine.execStandby src term s
  | .heartbeat o => Sys2Proof.Machine.execHeartbeat o s
  | .heartbeatPeriod => Sys2Proof.Machine.execHeartbeatPeriod s
  | .hbMiss => Sys2Proof.Machine.execHbMiss s
  | .probe o => Sys2Proof.Machine.execProbe o s
  | .probeAck o => Sys2Proof.Machine.execProbeAck o s
  | .probeTimeout => Sys2Proof.Machine.execProbeTimeout s
  | .fence => Sys2Proof.Machine.execFence s
  | .belAlive master value => Sys2Proof.Machine.execBelAlive master value s
  | .votedWrite src wseq addr width value => Sys2Proof.Machine.execVotedWrite src wseq addr width value s
  | .voteWindowEnd i1 => Sys2Proof.Machine.execVoteWindowEnd i1 s
  | .relay o tag => Sys2Proof.Machine.execRelay o tag s
  | .discover o => Sys2Proof.Machine.execDiscover o s
  | .discoverReply o => Sys2Proof.Machine.execDiscoverReply o s
  | .readyChange o => Sys2Proof.Machine.execReadyChange o s
  | .agtPortPlanWrite master value => Sys2Proof.Machine.execAgtPortPlanWrite master value s
  | .rtrMaWrite master value => Sys2Proof.Machine.execRtrMaWrite master value s
  | .pealPace => Sys2Proof.Machine.execPealPace s
  | .pealEnd o => Sys2Proof.Machine.execPealEnd o s
  | .pealNeed o => Sys2Proof.Machine.execPealNeed o s
  | .pealNotHeld o => Sys2Proof.Machine.execPealNotHeld o s
  | .pealIdleTimeout => Sys2Proof.Machine.execPealIdleTimeout s
  | .pealRepairTimeout => Sys2Proof.Machine.execPealRepairTimeout s
  | .pealCampaignTimeout => Sys2Proof.Machine.execPealCampaignTimeout s
  | .pealActivate o => Sys2Proof.Machine.execPealActivate o s
  | .routePrepare o => Sys2Proof.Machine.execRoutePrepare o s
  | .routeReady o => Sys2Proof.Machine.execRouteReady o s
  | .routePrepareResend m => Sys2Proof.Machine.execRoutePrepareResend m s
  | .routePrepareLost m => Sys2Proof.Machine.execRoutePrepareLost m s
  | .rtbGen master value => Sys2Proof.Machine.execRtbGen master value s
  | .genFault master value => Sys2Proof.Machine.execGenFault master value s
  | .failureSettle => Sys2Proof.Machine.execFailureSettle s
  | .policySet o => Sys2Proof.Machine.execPolicySet o s
  | .policyDone o => Sys2Proof.Machine.execPolicyDone o s
  | .cmapSummaryDue => Sys2Proof.Machine.execCmapSummaryDue s
  | .cmapSummary o => Sys2Proof.Machine.execCmapSummary o s
  | .ethFrame f => Sys2Proof.Machine.execEthFrame f s
  | .openSession o nonce => Sys2Proof.Machine.execOpenSession o nonce s
  | .prove o proofOk => Sys2Proof.Machine.execProve o proofOk s
  | .closeSession o => Sys2Proof.Machine.execCloseSession o s
  | .proveTimeout slot => Sys2Proof.Machine.execProveTimeout slot s
  | .sessionIdle slot => Sys2Proof.Machine.execSessionIdle slot s
  | .ethSlotWrite master slot value => Sys2Proof.Machine.execEthSlotWrite master slot value s
  | .regRead o => Sys2Proof.Machine.execRegRead o s
  | .regWrite o => Sys2Proof.Machine.execRegWrite o s
  | .mbxPost o => Sys2Proof.Machine.execMbxPost o s
  | .statusRead o => Sys2Proof.Machine.execStatusRead o s
  | .pealPut o => Sys2Proof.Machine.execPealPut o s
  | .pealStart o sig => Sys2Proof.Machine.execPealStart o sig s
  | .pealQuery o => Sys2Proof.Machine.execPealQuery o s
  | .pealCommit o => Sys2Proof.Machine.execPealCommit o s
  | .sliceBegin o => Sys2Proof.Machine.execSliceBegin o s
  | .slicePart o => Sys2Proof.Machine.execSlicePart o s
  | .sliceCommit o => Sys2Proof.Machine.execSliceCommit o s
  | .sliceQuery o => Sys2Proof.Machine.execSliceQuery o s
  | .sliceRelease o => Sys2Proof.Machine.execSliceRelease o s
  | .transitDrain o => Sys2Proof.Machine.execTransitDrain o s
  | .drainQuery o => Sys2Proof.Machine.execDrainQuery o s
  | .qpCreate o => Sys2Proof.Machine.execQpCreate o s
  | .qpDestroy o => Sys2Proof.Machine.execQpDestroy o s
  | .mkaFrame k => Sys2Proof.Machine.execMkaFrame k s
  | .sakPnLimit an => Sys2Proof.Machine.execSakPnLimit an s
  | .mkaLost => Sys2Proof.Machine.execMkaLost s
  | .rdmaWrite r rkey va data => Sys2Proof.Machine.execRdmaWrite r rkey va data s
  | .rdmaRead r rkey va len outstanding => Sys2Proof.Machine.execRdmaRead r rkey va len outstanding s
  | .rdmaSend r data => Sys2Proof.Machine.execRdmaSend r data s
  | .ptpSync h twoStep origin receipt => Sys2Proof.Machine.execPtpSync h twoStep origin receipt s
  | .followUp h origin => Sys2Proof.Machine.execFollowUp h origin s
  | .delayResp h sent receipt => Sys2Proof.Machine.execDelayResp h sent receipt s
  | .announce h best => Sys2Proof.Machine.execAnnounce h best s
  | .announceTimeout => Sys2Proof.Machine.execAnnounceTimeout s
  | .knockStatus k => Sys2Proof.Machine.execKnockStatus k s
  | .recTail k => Sys2Proof.Machine.execRecTail k s
  | .recFreeze k => Sys2Proof.Machine.execRecFreeze k s
  | .switchCore k => Sys2Proof.Machine.execSwitchCore k s
  | .knockErrN k => Sys2Proof.Machine.execKnockErrN k s
  | .knockReset k => Sys2Proof.Machine.execKnockReset k s
  | .knockPower k => Sys2Proof.Machine.execKnockPower k s
  | .mbxTxPost master value => Sys2Proof.Machine.execMbxTxPost master value s
  | .mbxRx master m => Sys2Proof.Machine.execMbxRx master m s
  | .mbxData master word => Sys2Proof.Machine.execMbxData master word s
  | .mbxLatch m readers => Sys2Proof.Machine.execMbxLatch m readers s
  | .latchRelease master m => Sys2Proof.Machine.execLatchRelease master m s
  | .receiverReset master m => Sys2Proof.Machine.execReceiverReset master m s
  | .mbxLatchTimeout m => Sys2Proof.Machine.execMbxLatchTimeout m s
  | .attRequest o signs => Sys2Proof.Machine.execAttRequest o signs s
  | .attExtend o => Sys2Proof.Machine.execAttExtend o s
  | .reportExpiry => Sys2Proof.Machine.execReportExpiry s
  | .keyDeliver o chain sig tag plain => Sys2Proof.Machine.execKeyDeliver o chain sig tag plain s
  | .deliveryPartTimeout i1 => Sys2Proof.Machine.execDeliveryPartTimeout i1 s
  | .unseal o htag => Sys2Proof.Machine.execUnseal o htag s
  | .unsealDone tags plain => Sys2Proof.Machine.execUnsealDone tags plain s
  | .debugChallenge o => Sys2Proof.Machine.execDebugChallenge o s
  | .debugUnlock o chain sig => Sys2Proof.Machine.execDebugUnlock o chain sig s
  | .debugRelock o => Sys2Proof.Machine.execDebugRelock o s
  | .debugAccess o => Sys2Proof.Machine.execDebugAccess o s
  | .debugCore o => Sys2Proof.Machine.execDebugCore o s
  | .leaseEnd => Sys2Proof.Machine.execLeaseEnd s
  | .dbgUnlock mode => Sys2Proof.Machine.execDbgUnlock mode s
  | .jtagInstruction i1 => Sys2Proof.Machine.execJtagInstruction i1 s
  | .tocsinEvent block n => Sys2Proof.Machine.execTocsinEvent block n s
  | .railEqual src => Sys2Proof.Machine.execRailEqual src s
  | .severityWindowEnd src => Sys2Proof.Machine.execSeverityWindowEnd src s
  | .tocSrcCfgWrite master i1 value => Sys2Proof.Machine.execTocSrcCfgWrite master i1 value s
  | .tocErrnRelease master hold => Sys2Proof.Machine.execTocErrnRelease master hold s
  | .errnPulseEnd => Sys2Proof.Machine.execErrnPulseEnd s
  | .tocRailtest master value => Sys2Proof.Machine.execTocRailtest master value s
  | .feedLost b => Sys2Proof.Machine.execFeedLost b s
  | .feedReturn b => Sys2Proof.Machine.execFeedReturn b s
  | .oring b => Sys2Proof.Machine.execOring b s
  | .giveUp master => Sys2Proof.Machine.execGiveUp master s
  | .switchRequest master => Sys2Proof.Machine.execSwitchRequest master s
  | .belWatchdog => Sys2Proof.Machine.execBelWatchdog s
  | .belHealth master value => Sys2Proof.Machine.execBelHealth master value s
  | .healthStale => Sys2Proof.Machine.execHealthStale s
  | .recordSealed => Sys2Proof.Machine.execRecordSealed s
  | .recSwAppend master value => Sys2Proof.Machine.execRecSwAppend master value s
  | .recFreezeWrite master on => Sys2Proof.Machine.execRecFreezeWrite master on s
  | .tostoRecFreeze o => Sys2Proof.Machine.execTostoRecFreeze o s
  | .recFreezeLimit => Sys2Proof.Machine.execRecFreezeLimit s
  | .recRead o => Sys2Proof.Machine.execRecRead o s
  | .recTailRead o => Sys2Proof.Machine.execRecTailRead o s
  | .recClear o => Sys2Proof.Machine.execRecClear o s
  | .recClearDone => Sys2Proof.Machine.execRecClearDone s
  | .recState o => Sys2Proof.Machine.execRecState o s
  | .recReadSel master value => Sys2Proof.Machine.execRecReadSel master value s
  | .recScanDone => Sys2Proof.Machine.execRecScanDone s
  | .powerOn a b => Sys2Proof.Machine.execPowerOn a b s
  | .feedCheckDone a b => Sys2Proof.Machine.execFeedCheckDone a b s
  | .romDone store => Sys2Proof.Machine.execRomDone store s
  | .sramInitDone fatal other => Sys2Proof.Machine.execSramInitDone fatal other s
  | .powerWave ok => Sys2Proof.Machine.execPowerWave ok s
  | .memtestDone status ms => Sys2Proof.Machine.execMemtestDone status ms s
  | .tileTestDone ts => Sys2Proof.Machine.execTileTestDone ts s
  | .linksDone => Sys2Proof.Machine.execLinksDone s
  | .resetTile master i1 => Sys2Proof.Machine.execResetTile master i1 s
  | .resetCluster master c => Sys2Proof.Machine.execResetCluster master c s
  | .resetWing master w => Sys2Proof.Machine.execResetWing master w s
  | .resetPort master p => Sys2Proof.Machine.execResetPort master p s
  | .resetCore master b => Sys2Proof.Machine.execResetCore master b s
  | .resetModule master => Sys2Proof.Machine.execResetModule master s
  | .moduleResetBegin => Sys2Proof.Machine.execModuleResetBegin s
  | .resetComplete kind target store => Sys2Proof.Machine.execResetComplete kind target store s
  | .resetTimeout kind target => Sys2Proof.Machine.execResetTimeout kind target s
  | .resetN => Sys2Proof.Machine.execResetN s
  | .resetNRelease store => Sys2Proof.Machine.execResetNRelease store s
  | .targetFull master => Sys2Proof.Machine.execTargetFull master s
  | .targetQuiet master => Sys2Proof.Machine.execTargetQuiet master s
  | .targetTransit master => Sys2Proof.Machine.execTargetTransit master s
  | .targetStandby master => Sys2Proof.Machine.execTargetStandby master s
  | .targetOff master => Sys2Proof.Machine.execTargetOff master s
  | .scrubStepDone => Sys2Proof.Machine.execScrubStepDone s
  | .undervolt => Sys2Proof.Machine.execUndervolt s
  | .overvolt b => Sys2Proof.Machine.execOvervolt b s
  | .converter => Sys2Proof.Machine.execConverter s
  | .overcurrent => Sys2Proof.Machine.execOvercurrent s
  | .warn die t => Sys2Proof.Machine.execWarn die t s
  | .critical die t => Sys2Proof.Machine.execCritical die t s
  | .thermalTrip die t => Sys2Proof.Machine.execThermalTrip die t s
  | .thermalCooled reads => Sys2Proof.Machine.execThermalCooled reads s
  | .thermN => Sys2Proof.Machine.execThermN s
  | .thermNRelease cool => Sys2Proof.Machine.execThermNRelease cool s
  | .sensor die t => Sys2Proof.Machine.execSensor die t s
  | .syncIn phase => Sys2Proof.Machine.execSyncIn phase s
  | .statusWord => Sys2Proof.Machine.execStatusWord s
  | .readVin a b => Sys2Proof.Machine.execReadVin a b s
  | .readIin a b => Sys2Proof.Machine.execReadIin a b s
  | .readTemperature1 reads => Sys2Proof.Machine.execReadTemperature1 reads s
  | .readPin w => Sys2Proof.Machine.execReadPin w s
  | .pmbusRevision => Sys2Proof.Machine.execPmbusRevision s
  | .mfrSerial => Sys2Proof.Machine.execMfrSerial s
  | .smbusClockTimeout => Sys2Proof.Machine.execSmbusClockTimeout s
  | .introResend p => Sys2Proof.Machine.execIntroResend p s
  | .laneDeskewDone p => Sys2Proof.Machine.execLaneDeskewDone p s
  | .c0TokenRefill p => Sys2Proof.Machine.execC0TokenRefill p s
  | .mbxPostEntryTaken master => Sys2Proof.Machine.execMbxPostEntryTaken master s
  | .prechargeDone => Sys2Proof.Machine.execPrechargeDone s
  | .feedQualifyStart b => Sys2Proof.Machine.execFeedQualifyStart b s
  | .entryToOff => Sys2Proof.Machine.execEntryToOff s
  | .ucieTrained w m => Sys2Proof.Machine.execUcieTrained w m s
  | .celTrainFail p => Sys2Proof.Machine.execCelTrainFail p s
  | .hostLinkUp => Sys2Proof.Machine.execHostLinkUp s
  | .linkDown => Sys2Proof.Machine.execLinkDown s
  | .mkaHello => Sys2Proof.Machine.execMkaHello s
  | .refLost => Sys2Proof.Machine.execRefLost s
  | .aonDrift => Sys2Proof.Machine.execAonDrift s
  | .coreFault b => Sys2Proof.Machine.execCoreFault b s
  | .gddr7ZeroFillDone => Sys2Proof.Machine.execGddr7ZeroFillDone s

end Sys2Proof.Machine
end

