-- ==== Sys2Proof/Safety.lean ====
section
/-! DEFINITION. What the block keeps at every step, and what a claim may ask of a state: the canonical form of the memories, and a
management access that its page takes. -/

namespace Sys2Proof.Machine

/-- The memories are canonical: keys rise, nothing is listed that an unlisted key reads as, and every GDDR7 byte listed lies in
some wing's GDDR7 (R138). -/
def Mem.wf (m : Mem) : Bool :=
  SMap.wf gdDefault m.gd && SMap.wf unitDefault m.cel && m.gd.all (fun e => (gdWing e.1 1).isSome)

/-- The invariant of every step. -/
def State.inv (s : State) : Prop := s.mem.wf = true

/-- A management write of a value that passes the checks of R56, and whose page answers. -/
abbrev writeTaken (d : Dev) (master addr width v : Nat) : Prop :=
  accessCheck d master addr width true v = OK ∧ accessHeld d master addr true = false

/-- The same for a read. -/
abbrev readTaken (d : Dev) (master addr width : Nat) : Prop :=
  accessCheck d master addr width false 0 = OK ∧ accessHeld d master addr false = false

/-- Nothing waits for memory to answer: no completion record, no flushed operation, no end of a collective, no RoCEv2 request. -/
abbrev asleep (d : Dev) : Prop :=
  d.arr.held = none ∧ d.arr.queue.all (fun op => !op.dead) = true ∧ d.col.ends = [] ∧ d.host.rdma = []

/-- Nor does a management access: nothing but the command itself happens at its step. -/
abbrev quiet (d : Dev) : Prop := d.acc.waiting = [] ∧ asleep d

/-- An error event stands in a page's ERR_STATUS (R48). -/
def Dev.err (d : Dev) (b n : Nat) : Bool := (d.rd (rkey b 0x020)).testBit n

/-- A management write completes OK: its answer is the one thing sent. -/
abbrev written (s t : State) (master addr : Nat) : Prop := t.dev.out = s.dev.out ++ [.access master addr OK 0]

/-- An access of GDDR7 that waits for nothing, that the checks let through and that meets no uncorrectable line: no line is known to
be bad and no inverted check of the wing is armed. -/
abbrev gdSound (d : Dev) (u : MemUser) (addr len : Nat) : Prop :=
  gdHeld d addr len = false ∧ gdCheck d u addr len = OK ∧ d.gddr.bad = [] ∧ d.armedFirst (0x090 + addr / 2 ^ 34) [0, 1] = none

/-- A Tosto message as the request of a family and code that a command names. -/
def reqOf (m : TMsg) (fam code : Nat) : TMsg := { m with family := fam, code := code, reply := false }

/-- Such a request may be executed, and the core that answers it runs (R367, R369, R388, R439). -/
abbrev served (d : Dev) (m : TMsg) (fam code : Nat) : Prop := reqAllowed d (reqOf m fam code) = some OK ∧ keepSilent d fam = false

/-- A Knock frame that is taken (R385): not too soon, its fields and tag good, its COUNTER new, and a knock key held whose read no
inverted check spoils. -/
abbrev knockTaken (d : Dev) (k : Knock) : Prop :=
  d.powered.aon = true ∧ k.soon = false ∧ 1 ≤ k.command ∧ k.command ≤ 7 ∧ k.version = 1 ∧ k.serial = Config.serial % 2 ^ 64 ∧
  k.tagOk = true ∧ k.reservedZero = true ∧ knkCounter d < k.counter ∧ k.counter < 2 ^ 64 ∧ d.armed 0x059 0 = false ∧
  (d.sec.config.map (·.knock)).getD 0 ≠ 0

/-- What a taken Knock frame of a command always does (R385, R386): its COUNTER is stored, KNK_LAST shows the command and its status,
and the answer carries them. -/
abbrev knockDone (t : State) (k : Knock) (command st : Nat) : Prop :=
  knkCounter t.dev = k.counter ∧ t.dev.rd Reg.KNK_LAST = 2 ^ 31 + command * 2 ^ 8 + st ∧
  t.dev.out.getLast?.any (fun x => match x with
    | .knockReply dest p => dest == k.sender && p.take 3 == [1] ++ leBytes 1 (command + 128) ++ leBytes 1 st && field p 12 8 == k.counter
    | _ => false) = true

/-- A port carries frames, no stopped island holds them, and no lane has more corrected symbols than LNK_LANE_LIMIT (R38, R195). -/
abbrev framesPass (d : Dev) (p : Nat) : Prop :=
  (portOf d p).carries = true ∧ portRuns d p = true ∧ (portOf d p).laneCe.all (fun e => decide (e.2 ≤ d.rd (lnkReg p 0x08C))) = true

/-- An operation-table entry that a read finds good (R297). -/
abbrev readable (d : Dev) (i : Nat) : Prop := (optEntry d i).bad = false ∧ d.armedFirst 0x038 [0, 1] = none

/-- Every participation but that of an entry is as before. -/
def othersKept (s t : State) (entry : Nat) : Prop :=
  ∀ y : ColPart, y.entry ≠ entry → (y ∈ t.dev.col.parts ↔ y ∈ s.dev.col.parts)

/-- The parts of the state that a frame speaks of: the two memories, the register file, and the device's other fields. -/
inductive Part where
  | gdMem | celMem | regs
  | clk | free | out | stopped | powered | acc | hall | toc | recd | gddr | tiles | arr | cel | mbx | lnk | rtr | opt | optGen | optSince | col | agt | bel | mgr | host | pwr | sec | msr
  deriving DecidableEq, Repr

/-- A part is the same in two states. -/
def Part.same (s t : State) : Part → Prop
  | .gdMem => t.mem.gd = s.mem.gd
  | .celMem => t.mem.cel = s.mem.cel
  | .regs => t.dev.regs = s.dev.regs
  | .clk => t.dev.clk = s.dev.clk
  | .free => t.dev.free = s.dev.free
  | .out => t.dev.out = s.dev.out
  | .stopped => t.dev.stopped = s.dev.stopped
  | .powered => t.dev.powered = s.dev.powered
  | .acc => t.dev.acc = s.dev.acc
  | .hall => t.dev.hall = s.dev.hall
  | .toc => t.dev.toc = s.dev.toc
  | .recd => t.dev.recd = s.dev.recd
  | .gddr => t.dev.gddr = s.dev.gddr
  | .tiles => t.dev.tiles = s.dev.tiles
  | .arr => t.dev.arr = s.dev.arr
  | .cel => t.dev.cel = s.dev.cel
  | .mbx => t.dev.mbx = s.dev.mbx
  | .lnk => t.dev.lnk = s.dev.lnk
  | .rtr => t.dev.rtr = s.dev.rtr
  | .opt => t.dev.opt = s.dev.opt
  | .optGen => t.dev.optGen = s.dev.optGen
  | .optSince => t.dev.optSince = s.dev.optSince
  | .col => t.dev.col = s.dev.col
  | .agt => t.dev.agt = s.dev.agt
  | .bel => t.dev.bel = s.dev.bel
  | .mgr => t.dev.mgr = s.dev.mgr
  | .host => t.dev.host = s.dev.host
  | .pwr => t.dev.pwr = s.dev.pwr
  | .sec => t.dev.sec = s.dev.sec
  | .msr => t.dev.msr = s.dev.msr

/-- Every waiting command, every part but those of `parts`, and every register of a page below `below` but those of `pages` is
unchanged. -/
def framed (parts : List Part) (pages : List Nat) (below : Nat) (s t : State) : Prop :=
  t.pending = s.pending ∧ (∀ p, p ∉ parts → p.same s t) ∧
  ∀ k, k < below * 0x1000 → k / 0x1000 ∉ pages → t.dev.rd k = s.dev.rd k

/-- A page number above every page, a master's own copies among them: a frame below it speaks of every register. -/
abbrev allPages : Nat := 2 ^ 40

/-- Wherever a command answers a next state, all is unchanged but the parts and the register pages named. -/
def Frame (parts : List Part) (pages : List Nat) (below : Nat) (c : Instr) : Prop :=
  ∀ s t, exec c s = .next t → framed parts pages below s t

/-- Wherever a command answers a next state, no byte of GDDR7 outside the ranges (start and length) that a function of the state
names has changed. -/
def StoresIn (ranges : State → List (Nat × Nat)) (c : Instr) : Prop :=
  ∀ s t, exec c s = .next t → ∀ a, (∀ r ∈ ranges s, a < r.1 ∨ r.1 + r.2 ≤ a) → t.mem.byte a = s.mem.byte a

/-- Wherever a command answers a next state, a byte of GDDR7 is as before or reads as one that nothing has written. -/
def ForgetsOnly (c : Instr) : Prop :=
  ∀ s t, exec c s = .next t → ∀ a, t.mem.byte a = s.mem.byte a ∨ t.mem.byte a = 0

/-- The array's completion ring (R99): its address and its length. -/
def ringRange (d : Dev) : Nat × Nat :=
  (d.rd Reg.ARR_CPL_BASE_LO + bits (d.rd Reg.ARR_CPL_BASE_HI) 15 0 * 2 ^ 32, 32 * 2 ^ d.rd Reg.ARR_CPL_SIZE)

/-- The ring and the output rows of the executing operation. -/
def arrayRanges (s : State) : List (Nat × Nat) :=
  ringRange s.dev :: (match s.dev.arr.exec with
    | some e => (arrWrites e.op).flatMap (fun r => (upFrom 0 r.rows).map (fun i => (r.base + i * r.pitch, r.row)))
    | none => [])

/-- Words 14 and 15 of the descriptors of the participations under way (R263). -/
def partRanges (s : State) : List (Nat × Nat) := s.dev.col.parts.map (fun x => (x.job.addr + 56, 8))

/-- Where a packet that a command delivers goes through its window (R215). -/
def windowRange (ptype : Nat) (o : Option Packet) (s : State) : List (Nat × Nat) :=
  match s.dev.takeSink ptype o with
  | some (p, _) => [(windowAddr s.dev p.window p.offset, p.payload.length)]
  | none => []

/-- The status word of the copy at the head of an engine's queue (R162). -/
def copyStatusRange (n : Nat) (s : State) : List (Nat × Nat) := ((copyEng s.dev n).queue.take 1).map (fun op => (op.addr + 60, 4))

/-- A command runs: it answers a next state, and that state has a property. -/
def Runs (c : Instr) (s : State) (p : State → Prop) : Prop := ∃ t, exec c s = .next t ∧ p t

end Sys2Proof.Machine
end

