-- ==== Sys2Proof/Certificates/Slice0/Obligations.lean ====
section
/-! DEFINITION. The statements for the provers. A statement that a command runs names the next state's own effect: what the rule
says the command does, under hypotheses on the state and the operands alone. -/

open Sys2Proof Sys2Proof.Machine

/-- Commands of the Hall run and have their effect. A request from one port to a port that takes it is forwarded; a response completes its request at the source; a timeout completes it with TIMEOUT, counts and raises REQUEST_TIMEOUT; the loss of a UCIe module takes it out of use, and of both makes the wing's port ABSORB. -/
def Obligations.HallRuns : Prop :=
  (∀ (r : HallReq) (s : State), (s.dev.powered.core = true ∧ crossingHeld s.dev r.src.val = false ∧ crossingHeld s.dev r.dst.val = false ∧ 8 ≤ r.src.val ∧ 8 ≤ r.dst.val) → Runs (.hallRequest [r]) s (fun t => t.dev.hall.fwd = s.dev.hall.fwd ++ [r] ∧ t.dev.out = s.dev.out ++ [.hallForward r.src.val r.dst.val r.tag])) ∧
  (∀ (src dst : Fin 17) (tag status : Nat) (s : State), (crossingHeld s.dev src.val = false ∧ crossingHeld s.dev dst.val = false ∧ 8 ≤ src.val ∧ s.dev.hall.fwd.contains ⟨src, dst, tag⟩ = true) → Runs (.hallResponse src dst tag status) s (fun t => t.dev.hall.fwd = s.dev.hall.fwd.erase ⟨src, dst, tag⟩ ∧ t.dev.out = s.dev.out ++ [.hallReply src.val dst.val tag status])) ∧
  (∀ (src dst : Fin 17) (tag : Nat) (s : State), (s.dev.powered.core = true ∧ 8 ≤ src.val ∧ s.dev.hall.fwd.contains ⟨src, dst, tag⟩ = true ∧ s.dev.stopped.contains .hall = false ∧ quiet s.dev) → Runs (.hallTimeout src dst tag) s (fun t => t.dev.hall.fwd = s.dev.hall.fwd.erase ⟨src, dst, tag⟩ ∧ t.dev.out = s.dev.out ++ [.hallReply src.val dst.val tag TIMEOUT] ∧ t.dev.rd Reg.HALL_TIMEOUT_COUNT = min (s.dev.rd Reg.HALL_TIMEOUT_COUNT + 1) 0xFFFFFFFF ∧ t.dev.err 0x010 0 = true)) ∧
  (∀ (src dst : Fin 17) (tag : Nat) (s : State), (s.dev.stopped.contains .hall = true) → Runs (.hallTimeout src dst tag) s (fun t => t = s)) ∧
  (∀ (w : Fin 8) (m : Fin 2) (s : State), (s.dev.powered.wings.testBit w.val = true ∧ ucieOut s.dev w.val m.val = false ∧ ucieOut s.dev w.val (1 - m.val) = false) → Runs (.ucieLost w m) s (fun t => ucieOut t.dev w.val m.val = true ∧ wingState t.dev w.val = wingState s.dev w.val)) ∧
  (∀ (w : Fin 8) (s : State), (s.dev.powered.wings.testBit w.val = true ∧ s.dev.powered.core = true ∧ wingState s.dev w.val = 1 ∧ ucieOut s.dev w.val 0 = false ∧ ucieOut s.dev w.val 1 = false) → Runs (.wingLost w) s (fun t => wingState t.dev w.val = 2 ∧ ucieOut t.dev w.val 0 = true ∧ ucieOut t.dev w.val 1 = true))

/-- Commands of the GDDR7 controllers run and have their effect. Recalibration begins and ends at one device; a line is read and its bytes answered; a write stores its bytes and no others; the patrol reads one line of a device and goes on to the next; a region register takes its value. -/
def Obligations.MemoryRuns : Prop :=
  (∀ (w : Fin 8) (n : Fin 3) (s : State), (SMap.get (fun _ => 0) s.dev.gddr.recal w.val = n.val ∧ gdState s.dev w.val n.val = 1 ∧ ∀ i : Fin 3, gdState s.dev w.val i.val ≠ 2) → Runs (.gdRetrainPeriod w) s (fun t => gdState t.dev w.val n.val = 2 ∧ SMap.get (fun _ => 0) t.dev.gddr.recal w.val = (n.val + 1) % 3 ∧ t.mem = s.mem)) ∧
  (∀ (w : Fin 8) (dev : Fin 3) (s : State), (gdState s.dev w.val dev.val = 2 ∧ s.dev.gdStopped w.val dev.val = false ∧ SMap.get (fun _ => []) s.dev.gddr.waits (w.val * 3 + dev.val) = [] ∧ quiet s.dev) → Runs (.gdRecalDone w dev) s (fun t => gdState t.dev w.val dev.val = 1 ∧ t.mem = s.mem ∧ t.dev.out = s.dev.out)) ∧
  (∀ (addr : BitVec 48) (u : MemUser) (s : State), (rangeWaits s.dev (addr.toNat / 64 * 64) 64 = none ∧ gdCheck s.dev u (addr.toNat / 64 * 64) 64 = OK ∧ s.dev.gddr.bad = [] ∧ s.dev.armedFirst (0x090 + addr.toNat / 64 * 64 / 2 ^ 34) [0, 1] = none) → Runs (.gdLineRead addr .clean u) s (fun t => t.mem = s.mem ∧ t.dev.out = s.dev.out ++ [.line (addr.toNat / 64 * 64) OK (s.mem.bytes (addr.toNat / 64 * 64) 64)])) ∧
  (∀ (addr : BitVec 48) (bytes : List Byte) (u : MemUser) (s : State), (bytes ≠ [] ∧ rangeWaits s.dev addr.toNat bytes.length = none ∧ gdCheck s.dev u addr.toNat bytes.length = OK ∧ s.dev.gddr.bad = [] ∧ s.dev.armedFirst (0x090 + addr.toNat / 2 ^ 34) [0, 1] = none) → Runs (.gdLineWrite addr bytes u) s (fun t => (∀ i, (h : i < bytes.length) → t.mem.byte (addr.toNat + i) = bytes[i]) ∧ (∀ a, (a < addr.toNat ∨ addr.toNat + bytes.length ≤ a) → t.mem.byte a = s.mem.byte a) ∧ t.mem.cel = s.mem.cel ∧ t.dev.out = s.dev.out ++ [.line addr.toNat OK []])) ∧
  (∀ (w : Fin 8) (dev : Fin 3) (err : LineErr) (s : State), (s.dev.rd (rkey (0x090 + w.val) 0x0A0) ≠ 0 ∧ gdState s.dev w.val dev.val = 1 ∧ s.dev.gdStopped w.val dev.val = false) → Runs (.gdPatrol w dev err) s (fun t => SMap.get (fun _ => 0) t.dev.gddr.patrol (w.val * 3 + dev.val) = (SMap.get (fun _ => 0) s.dev.gddr.patrol (w.val * 3 + dev.val) + 1) % 62488576 ∧ t.mem = s.mem ∧ t.dev.out = s.dev.out ∧ (err = .uncorrectable → s.dev.powered.wings.testBit w.val = true → t.dev.err (0x090 + w.val) 1 = true))) ∧
  (∀ (master : Byte) (w : Fin 8) (n : Fin 16) (value : Word) (s : State), (writeTaken s.dev master.toNat (mAddr (rkey (0x008 + w.val) (0x080 + 8 * n.val))) 32 value.toNat) → Runs (.wngRegionWrite master w n false value) s (fun t => t.dev.rd (rkey (0x008 + w.val) (0x080 + 8 * n.val)) = value.toNat ∧ written s t master.toNat (mAddr (rkey (0x008 + w.val) (0x080 + 8 * n.val)))))

/-- Commands of the copy engines run and have their effect. A submission reads its 64 bytes and queues them; an engine takes its next descriptor; a unit read is written under the page owner's key; a timeout fails the copy; an ended copy leaves its engine, counts, and its status is written. -/
def Obligations.CopyRuns : Prop :=
  (∀ (master : Byte) (n : Fin 8) (value : Word) (s : State), (writeTaken s.dev master.toNat (mAddr (ceKey Reg.CEL_CE_SUBMIT n.val)) 32 value.toNat ∧ (copyEng s.dev n.val).queue.length < 16 ∧ gdSound s.dev (ceUser s.dev n.val) (value.toNat * 64) 64) → Runs (.copySubmit master n value) s (fun t => (copyEng t.dev n.val).queue = (copyEng s.dev n.val).queue ++ [⟨wordsOf (s.mem.bytes (value.toNat * 64) 64) 16, value.toNat * 64⟩] ∧ t.mem = s.mem ∧ written s t master.toNat (mAddr (ceKey Reg.CEL_CE_SUBMIT n.val)))) ∧
  (∀ (master : Byte) (n : Fin 8) (value : Word) (s : State), (writeTaken s.dev master.toNat (mAddr (ceKey Reg.CEL_CE_TENANT n.val)) 32 value.toNat ∧ (copyEng s.dev n.val).queue = []) → Runs (.celCeTenantWrite master n value) s (fun t => bits (t.dev.rd (ceKey Reg.CEL_CE_TENANT n.val)) 9 0 = bits value.toNat 9 0 ∧ written s t master.toNat (mAddr (ceKey Reg.CEL_CE_TENANT n.val)))) ∧
  (∀ (n : Fin 8) (op : CopyOp) (rest : List CopyOp) (s : State), ((copyEng s.dev n.val).running = false ∧ (copyEng s.dev n.val).queue = op :: rest ∧ copyWaits s n.val op = false ∧ gdHeld s.dev op.addr 64 = false ∧ copyInvalid s.dev op = false ∧ op.total ≠ 0 ∧ ((cellarPort op.dst).isSome = true ∨ (op.code = 1 ∧ (cellarPort op.src).isSome = true) ∨ (copyMove (s.onDev (fun d => d.setCopyEng n.val { copyEng d n.val with running := true })) op (ceUser s.dev n.val) (op.total / 64) 0).1 = OK)) → Runs (.copyStart n) s (fun t => (copyEng t.dev n.val).running = true ∧ (copyEng t.dev n.val).queue = op :: rest ∧ ((cellarPort op.dst).isSome = true → t.mem = s.mem) ∧ ((cellarPort op.dst).isSome = false ∧ (op.code = 1 → cellarPort op.src = none) → (copyEng t.dev n.val).moved = op.total))) ∧
  (∀ (n : Fin 8) (op : CopyOp) (rest : List CopyOp) (p key : Nat) (data : List Byte) (s : State), (copyEng s.dev n.val = ⟨op :: rest, true, (copyEng s.dev n.val).moved, some data, none, none⟩ ∧ (copyEng s.dev n.val).moved < op.total ∧ portsStopped s.dev op = false ∧ copyWaits s n.val op = false ∧ cellarPort op.dst = some p ∧ stale s.dev (celPage s.dev p (cellarUnit (op.dst + (copyEng s.dev n.val).moved) / 512)) = false ∧ s.dev.celCheck p (cellarUnit (op.dst + (copyEng s.dev n.val).moved)) (ceUser s.dev n.val) true .clean = (OK, some key, s.dev)) → Runs (.cellarUnitAccess n .clean) s (fun t => t.mem = s.mem.setUnit p (cellarUnit (op.dst + (copyEng s.dev n.val).moved)) (.enc key (celTweak p (cellarUnit (op.dst + (copyEng s.dev n.val).moved))) data) ∧ copyEng t.dev n.val = ⟨op :: rest, true, (copyEng s.dev n.val).moved + 4096, none, none, none⟩)) ∧
  (∀ (p : Fin 4) (n : Fin 8) (s : State), (s.dev.powered.core = true ∧ (copyEng s.dev n.val).running = true ∧ (copyEng s.dev n.val).failed = none) → Runs (.cxlTimeout p (some n)) s (fun t => (copyEng t.dev n.val).failed = some TIMEOUT ∧ t.dev.rd Reg.CEL_TIMEOUT_COUNT = min (s.dev.rd Reg.CEL_TIMEOUT_COUNT + 1) 0xFFFFFFFF ∧ t.dev.err 0x04C 1 = true ∧ t.mem = s.mem)) ∧
  (∀ (n : Fin 8) (op : CopyOp) (rest : List CopyOp) (s : State), ((copyEng s.dev n.val).running = true ∧ (copyEng s.dev n.val).failed = none ∧ (copyEng s.dev n.val).queue = op :: rest ∧ op.total ≤ (copyEng s.dev n.val).moved ∧ gdHeld s.dev op.addr 64 = false ∧ gdSound s.dev (ceUser s.dev n.val) (op.addr + 60) 4) → Runs (.copyComplete n) s (fun t => copyEng t.dev n.val = ⟨rest, false, 0, none, none, none⟩ ∧ t.mem = s.mem.store (op.addr + 60) (leBytes 4 (op.statusWord OK)) ∧ t.dev.rd (ceKey Reg.CEL_CE_DONE n.val) = (s.dev.rd (ceKey Reg.CEL_CE_DONE n.val) + 1) % 2 ^ 32)) ∧
  (∀ (n : Fin 8) (op : CopyOp) (rest : List CopyOp) (st : Nat) (s : State), ((copyEng s.dev n.val).running = true ∧ (copyEng s.dev n.val).failed = some st ∧ (copyEng s.dev n.val).queue = op :: rest ∧ cellarPort op.dst = none ∧ gdHeld s.dev op.addr 64 = false ∧ gdSound s.dev (ceUser s.dev n.val) (op.addr + 60) 4) → Runs (.copyFailDone n) s (fun t => copyEng t.dev n.val = ⟨rest, false, 0, none, none, none⟩ ∧ t.mem = s.mem.store (op.addr + 60) (leBytes 4 (op.statusWord st)) ∧ t.dev.rd (ceKey Reg.CEL_CE_DONE n.val) = (s.dev.rd (ceKey Reg.CEL_CE_DONE n.val) + 1) % 2 ^ 32)) ∧
  (∀ (n : Fin 8) (op : CopyOp) (rest : List CopyOp) (st p : Nat) (s : State), ((copyEng s.dev n.val).running = true ∧ (copyEng s.dev n.val).failed = some st ∧ (copyEng s.dev n.val).queue = op :: rest ∧ cellarPort op.dst = some p ∧ gdHeld s.dev op.addr 64 = false ∧ gdSound s.dev (ceUser s.dev n.val) (op.addr + 60) 4) → Runs (.copyFailDone n) s (fun t => copyEng t.dev n.val = ⟨rest, false, 0, none, none, none⟩ ∧ t.mem = (s.mem.undefUnits p (upFrom (cellarUnit op.dst) ((copyEng s.dev n.val).moved / 4096))).store (op.addr + 60) (leBytes 4 (op.statusWord st)) ∧ t.dev.rd (ceKey Reg.CEL_CE_DONE n.val) = (s.dev.rd (ceKey Reg.CEL_CE_DONE n.val) + 1) % 2 ^ 32)) ∧
  (∀ (n : Fin 8) (op : CopyOp) (rest : List CopyOp) (s : State), ((copyEng s.dev n.val).running = true ∧ (copyEng s.dev n.val).queue = op :: rest ∧ s.dev.powered.core = true ∧ ((op.total ≤ (copyEng s.dev n.val).moved ∧ (copyEng s.dev n.val).failed = none) ∨ ((copyEng s.dev n.val).failed.isSome = true ∧ cellarPort op.dst = none))) → Runs (.copyFault n) s (fun t => copyEng t.dev n.val = ⟨rest, false, 0, none, none, none⟩ ∧ t.dev.err 0x04C 6 = true ∧ t.mem = s.mem ∧ t.dev.rd (ceKey Reg.CEL_CE_DONE n.val) = (s.dev.rd (ceKey Reg.CEL_CE_DONE n.val) + 1) % 2 ^ 32))

/-- Commands of the Cellar run and have their effect. A failed port returns to training and a trained one becomes ACTIVE with its capacity; a page is given, released and freed; the sweep reads a unit, rewrites it under the current key and goes on; the previous slot of a rotated owner is zeroised. -/
def Obligations.CellarRuns : Prop :=
  (∀ (master : Byte) (mask : BitVec 4) (p : Fin 4) (s : State), (writeTaken s.dev master.toNat (mAddr (rkey 0x04C 0x010)) 32 mask.toNat ∧ mask.toNat.testBit p.val = true ∧ celPort s.dev p.val = 4) → Runs (.retrain master mask) s (fun t => celPort t.dev p.val = 1 ∧ written s t master.toNat (mAddr (rkey 0x04C 0x010)) ∧ t.mem = s.mem)) ∧
  (∀ (p : Fin 4) (how : CelTrained) (s : State), (how ≠ .failed ∧ celPort s.dev p.val = 1 ∧ s.dev.powered.core = true ∧ s.dev.cxlStopped p.val = false ∧ (celSweep s.dev p.val).resume = false) → Runs (.celPortTrained p how) s (fun t => celPort t.dev p.val = (if how = .reduced then 3 else 2) ∧ celCap t.dev p.val = min (Config.cellarPages p.val) celMax ∧ t.mem = s.mem)) ∧
  (∀ (p : Fin 4) (s : State), (celPort s.dev p.val = 1 ∧ s.dev.powered.core = true ∧ s.dev.cxlStopped p.val = false) → Runs (.celPortTrained p .failed) s (fun t => celPort t.dev p.val = 4 ∧ t.mem = s.mem)) ∧
  (∀ (master : Byte) (p : Fin 4) (n : BitVec 20) (system : Bool) (tenant : Fin 512) (s : State), (writeTaken s.dev master.toNat (celEntryAddr p.val n.toNat) 32 (2 ^ 31 + b2n system * 2 ^ 29 + tenant.val * 2 ^ 20) ∧ n.toNat + 1 < celCap s.dev p.val ∧ (celPage s.dev p.val n.toNat).scrubbing = false ∧ (celPage s.dev p.val n.toNat).valid = false) → Runs (.celPageGive master p n system tenant) s (fun t => celPage t.dev p.val n.toNat = ⟨true, (celKeyOf s.dev system tenant.val).cur, system, tenant.val, false, false, false⟩ ∧ written s t master.toNat (celEntryAddr p.val n.toNat) ∧ t.mem = s.mem)) ∧
  (∀ (master : Byte) (p : Fin 4) (n : BitVec 20) (s : State), (writeTaken s.dev master.toNat (celEntryAddr p.val n.toNat) 32 0 ∧ n.toNat + 1 < celCap s.dev p.val) → Runs (.celPageRelease master p n) s (fun t => (celPage t.dev p.val n.toNat).valid = false ∧ (celPage t.dev p.val n.toNat).scrubbing = true ∧ sweepHolds t.dev p.val n.toNat = false ∧ written s t master.toNat (celEntryAddr p.val n.toNat) ∧ t.mem = s.mem)) ∧
  (∀ (p : Fin 4) (n : BitVec 20) (s : State), ((celPage s.dev p.val n.toNat).scrubbing = true ∧ celUp s.dev p.val = true ∧ s.dev.cxlStopped p.val = false) → Runs (.celReleaseFillDone p n) s (fun t => (celPage t.dev p.val n.toNat).scrubbing = false ∧ (∀ u, u < 512 → t.mem.unit p.val (n.toNat * 512 + u) = unitDefault 0) ∧ t.mem.gd = s.mem.gd)) ∧
  (∀ (p : Fin 4) (page unit : Nat) (s : State), (celUp s.dev p.val = true ∧ s.dev.cxlStopped p.val = false ∧ page < 2 ^ 20 ∧ unit < 512 ∧ sweepReg s.dev p.val = 2 ^ 31 + page * 2 ^ 9 + unit ∧ stale s.dev (celPage s.dev p.val page) = true) → Runs (.sweepUnitRead ⟨p, .clean⟩) s (fun t => (celSweep t.dev p.val).staging = some (s.mem.unit p.val (page * 512 + unit)) ∧ (celSweep t.dev p.val).journal = some (s.mem.unit p.val (page * 512 + unit)) ∧ t.mem = s.mem)) ∧
  (∀ (p : Fin 4) (page unit : Nat) (s : State), (celUp s.dev p.val = true ∧ s.dev.powered.core = true ∧ s.dev.cxlStopped p.val = false ∧ page < 2 ^ 20 ∧ unit < 512 ∧ sweepReg s.dev p.val = 2 ^ 31 + page * 2 ^ 9 + unit ∧ stale s.dev (celPage s.dev p.val page) = true) → Runs (.sweepUnitRead ⟨p, .ide⟩) s (fun t => celPort t.dev p.val = 4 ∧ t.dev.err 0x04C 0 = true ∧ celSweep t.dev p.val = celSweep s.dev p.val ∧ t.mem = s.mem)) ∧
  (∀ (p : Fin 4) (page unit old new : Nat) (data : List Byte) (s : State), (s.dev.cxlStopped p.val = false ∧ page < 2 ^ 20 ∧ unit < 512 ∧ sweepReg s.dev p.val = 2 ^ 31 + page * 2 ^ 9 + unit ∧ (celSweep s.dev p.val).staging = some (.enc old (celTweak p.val (page * 512 + unit)) data) ∧ s.mem.unit p.val (page * 512 + unit) = .enc old (celTweak p.val (page * 512 + unit)) data ∧ celKeyOf s.dev (celPage s.dev p.val page).system (celPage s.dev p.val page).tenant = ⟨some old, some new, true, true, 1⟩) → Runs (.sweepJournalAck p) s (fun t => t.mem = s.mem.setUnit p.val (page * 512 + unit) (.enc new (celTweak p.val (page * 512 + unit)) data) ∧ (sweepReg t.dev p.val).testBit 30 = true)) ∧
  (∀ (p : Fin 4) (page unit : Nat) (s : State), (s.dev.cxlStopped p.val = false ∧ page < 2 ^ 20 ∧ unit < 511 ∧ sweepReg s.dev p.val = 2 ^ 31 + 2 ^ 30 + page * 2 ^ 9 + unit ∧ stale s.dev (celPage s.dev p.val page) = true) → Runs (.sweepUnitDone p) s (fun t => sweepReg t.dev p.val = 2 ^ 31 + page * 2 ^ 9 + (unit + 1) ∧ (celSweep t.dev p.val).staging = none ∧ t.mem = s.mem)) ∧
  (∀ (s : State), (s.dev.cel.sysKey.rotating = true ∧ s.dev.cel.sysKey.count = 0) → Runs (.slotRetire none) s (fun t => t.dev.cel.sysKey.slot (!s.dev.cel.sysKey.cur) = none ∧ t.dev.cel.sysKey.slot s.dev.cel.sysKey.cur = s.dev.cel.sysKey.slot s.dev.cel.sysKey.cur ∧ t.dev.cel.sysKey.rotating = false ∧ t.mem = s.mem)) ∧
  (∀ (tenant : Fin 512) (s : State), ((celKeyOf s.dev false tenant.val).rotating = true ∧ (celKeyOf s.dev false tenant.val).count = 0) → Runs (.slotRetire (some tenant)) s (fun t => (celKeyOf t.dev false tenant.val).slot (!(celKeyOf s.dev false tenant.val).cur) = none ∧ (celKeyOf t.dev false tenant.val).rotating = false ∧ t.mem = s.mem))

/-- Tiles run their commands and have their effect. A K-block adds to every cell; a finished block goes to the epilogue and its writes are issued; a wait too long fails the operation; a cleared tile is idle; a lost PLL stops its tiles; parking is written. -/
def Obligations.TilesRun : Prop :=
  (∀ (i : Fin 512) (e : ArrExec) (b : BlkPos) (l : List LandRow × List LandRow × ArrExec × Rd) (s : State), (s.dev.arr.exec = some e ∧ (tile s.dev i.val).blk = some b ∧ e.failed = none ∧ tileStopped s.dev i.val = false ∧ portsRun s.dev i.val = true ∧ (tile s.dev i.val).kdone < kBlocks e.op.d b ∧ (∀ n : Fin 3, s.dev.armedFirst (0x400 + i.val) [n.val] = none) ∧ l = landBlock s.mem e i.val b (tile s.dev i.val).kdone (Rd.start s.dev) ∧ l.2.2.2.wait = false ∧ l.2.2.2.st = OK) → Runs (.kblockDone i .clean) s (fun t => (tile t.dev i.val).kdone = (tile s.dev i.val).kdone + 1 ∧ (tile t.dev i.val).blk = some b ∧ (tile t.dev i.val).portA = l.1 ∧ (tile t.dev i.val).portB = l.2.1 ∧ (tile t.dev i.val).acc = (kblockCells (fmtOfA e.op.d b) e.op.d.bfmt (l.1.map (fun r => r.kRow (fmtOfA e.op.d b) (kSteps e.op.d b (tile s.dev i.val).kdone))) (l.2.1.map (fun r => r.kRow e.op.d.bfmt (kSteps e.op.d b (tile s.dev i.val).kdone))) (tile s.dev i.val)).1.acc ∧ t.mem = s.mem)) ∧
  (∀ (i : Fin 512) (e : ArrExec) (b : BlkPos) (s : State), (s.dev.arr.exec = some e ∧ (tile s.dev i.val).blk = some b ∧ e.failed = none ∧ tileStopped s.dev i.val = false ∧ kBlocks e.op.d b ≤ (tile s.dev i.val).kdone ∧ ¬ (e.op.d.code = 4 ∧ b.second = false) ∧ (∀ n : Fin 3, s.dev.armedFirst (0x400 + i.val) [n.val] = none) ∧ (epiIn s.mem e.op b (Rd.start s.dev)).2.wait = false ∧ (epiIn s.mem e.op b (Rd.start s.dev)).2.st = OK) → Runs (.tileBlockDone ⟨i, .clean⟩) s (fun t => (tile t.dev i.val).blk = none ∧ (tile t.dev i.val).acc = [] ∧ t.mem = s.mem ∧ ∃ f, t.dev.arr.exec = some f ∧ f.left = e.left.filter (fun j => j != i.val) ∧ f.nextBlock = e.nextBlock + 1 ∧ f.unacked = e.unacked ++ numbered e.nextWrite e.nextBlock (blockWrites e.op b ((upFrom 0 (blkRows e.op.d b).length).map (fun r => outRow e.op.d (dw e.op.words 21) (epiIn s.mem e.op b (Rd.start s.dev)).1 (tile s.dev i.val).acc r (blkCols e.op.d b).length))))) ∧
  (∀ (i : Fin 512) (e : ArrExec) (b : BlkPos) (s : State), (s.dev.arr.exec = some e ∧ (tile s.dev i.val).blk = some b ∧ e.failed = none ∧ tileStopped s.dev i.val = false ∧ kBlocks e.op.d b ≤ (tile s.dev i.val).kdone ∧ (∀ n : Fin 3, s.dev.armedFirst (0x400 + i.val) [n.val] = none) ∧ e.op.d.code = 4 ∧ b.second = false) → Runs (.tileBlockDone ⟨i, .clean⟩) s (fun t => (tile t.dev i.val).blk = none ∧ t.mem = s.mem ∧ ∃ f, t.dev.arr.exec = some f ∧ f.unacked = e.unacked ∧ f.s = keepSums e.s b (tile s.dev i.val).acc (blkRows e.op.d b).length (blkCols e.op.d b).length)) ∧
  (∀ (i : Fin 512) (e : ArrExec) (s : State), (s.dev.arr.exec = some e ∧ e.failed = none ∧ (tile s.dev i.val).blk.isSome = true ∧ tileStopped s.dev i.val = false ∧ s.dev.domainOn (0x400 + i.val) = true) → Runs (.operandTimeout i) s (fun t => t.dev.err (0x400 + i.val) 3 = true ∧ t.mem = s.mem ∧ ∃ f, t.dev.arr.exec = some f ∧ f.failed = some TIMEOUT ∧ f.passes = [] ∧ f.unacked = e.unacked)) ∧
  (∀ (i : Fin 512) (s : State), ((tile s.dev i.val).st = .clearing ∧ tileStopped s.dev i.val = false) → Runs (.tileClearDone i) s (fun t => (tile t.dev i.val).st = .idle ∧ (tile t.dev i.val).acc = [] ∧ (∀ j, j ≠ i.val → tile t.dev j = tile s.dev j) ∧ t.mem = s.mem)) ∧
  (∀ (i : Fin 512) (s : State), ((tile s.dev i.val).st = .clearing ∧ s.dev.domainOn (0x400 + i.val) = true) → Runs (.clearFault i) s (fun t => t.dev.err (0x400 + i.val) 5 = true ∧ t.dev.tiles = s.dev.tiles ∧ t.mem = s.mem)) ∧
  (∀ (c : Fin 64) (s : State), (s.dev.domainOn (0x600 + c.val) = true) → Runs (.pllUnlock c) s (fun t => t.dev.rd (rkey (0x600 + c.val) 0x080) = 0 ∧ t.dev.err (0x600 + c.val) 0 = true ∧ (∀ j : Fin 8, tileStopped t.dev (c.val * 8 + j.val) = true) ∧ t.mem = s.mem)) ∧
  (∀ (master : Byte) (i : Fin 512) (value : Bool) (s : State), (writeTaken s.dev master.toNat (mAddr (rkey (0x400 + i.val) 0x010)) 32 (b2n value)) → Runs (.park master i value) s (fun t => (t.dev.rd (rkey (0x400 + i.val) 0x010)).testBit 0 = value ∧ t.dev.tiles = s.dev.tiles ∧ written s t master.toNat (mAddr (rkey (0x400 + i.val) 0x010))))

/-- The array's sequencer runs its commands and has its effect. A submission reads its 128 bytes and queues them; the head operation starts, its passes go on, its writes are acknowledged and take effect, it ends with a record in the ring; a flush fails it; a failed one drains and ends. -/
def Obligations.ArrayRuns : Prop :=
  (∀ (master : Byte) (value : Word) (s : State), (writeTaken s.dev master.toNat (mAddr Reg.ARR_SUBMIT) 32 value.toNat ∧ value.toNat.testBit 31 = false ∧ value.toNat.testBit 30 = false ∧ arrQueued s.dev < 64 ∧ gdSound s.dev (arrUser s.dev false) (value.toNat * 128) 128) → Runs (.arrSubmit master value) s (fun t => t.dev.arr.queue = s.dev.arr.queue ++ [⟨(upFrom 0 32).map (fun i => ofLE (s.mem.bytes (value.toNat * 128 + 4 * i) 4)), value.toNat, s.dev.rd Reg.ARR_SUBMIT_COUNT, (if 0x10 ≤ master.toNat ∧ master.toNat ≤ 0x1F then s.dev.rd (slotKey (master.toNat - 0x10)) else 0), false⟩] ∧ t.dev.rd Reg.ARR_SUBMIT_COUNT = (s.dev.rd Reg.ARR_SUBMIT_COUNT + 1) % 2 ^ 32 ∧ t.mem = s.mem ∧ written s t master.toNat (mAddr Reg.ARR_SUBMIT))) ∧
  (∀ (op : ArrOp) (rest : List ArrOp) (d : Dev) (s : State), (s.dev.arr.exec = none ∧ s.dev.arr.held = none ∧ s.dev.arr.queue = op :: rest ∧ (s.dev.rd (rkey 0x080 0x010)).testBit 1 = false ∧ (s.dev.rd Reg.ARR_CPL_SIZE = 0 ∨ ringFull s.dev = false) ∧ cplWaits s.dev = false ∧ d = { s.dev.fixParking with arr := { s.dev.arr with queue := rest } } ∧ arrDetail d op = 0 ∧ op.d.noOutput = false ∧ op.d.dest ≠ 1 ∧ (upFrom 0 512).all (tileHole d) = false) → Runs .arrOpStart s (fun t => t.dev.arr.queue = rest ∧ t.dev.rd Reg.ARR_CURRENT = op.desc % 2 ^ 32 ∧ t.mem = s.mem ∧ ∃ f, t.dev.arr.exec = some f ∧ f.op = op)) ∧
  (∀ (e : ArrExec) (p : ArrPass) (s : State), (s.dev.arr.exec = some e ∧ e.cur = some p ∧ e.left = []) → Runs .passDone s (fun t => t.dev.rd Reg.ARR_PASSES = min (e.mainDone + (if p.kind = .fill then 0 else 1)) 0xFFFF * 2 ^ 16 + min (e.fillDone + (if p.kind = .fill then 1 else 0)) 0xFFFF ∧ t.mem = s.mem ∧ ∃ f, t.dev.arr.exec = some f ∧ f.op = e.op)) ∧
  (∀ (e : ArrExec) (i : Nat) (d : Dev) (s : State), (s.dev.arr.exec = some e ∧ e.waitEntry = true ∧ e.failed = none ∧ arrTakeEntry s.dev e.op = some (i, d)) → Runs .arrWindowEntry s (fun t => (optEntry t.dev i).kind = 1 ∧ t.mem = s.mem ∧ ∃ f, t.dev.arr.exec = some f ∧ f.entry = some i ∧ f.waitEntry = false ∧ f.op = e.op)) ∧
  (∀ (n a : Nat) (bs : List Byte) (w : ArrOut) (e : ArrExec) (s : State), (s.dev.arr.exec = some e ∧ e.unacked.find? (fun w => w.n == n) = some w ∧ w.what = .loc a bs ∧ bs ≠ [] ∧ gdSound s.dev (arrUser s.dev false) a bs.length) → Runs (.arrOutputAck n OK) s (fun t => t.mem = s.mem.store a bs ∧ ∃ f, t.dev.arr.exec = some f ∧ f.unacked = e.unacked.filter (fun v => v.n != n))) ∧
  (∀ (n a : Nat) (bs : List Byte) (w : ArrOut) (e : ArrExec) (s : State), (s.dev.arr.exec = some e ∧ e.unacked.find? (fun w => w.n == n) = some w ∧ w.what = .window a bs ∧ e.entry = none) → Runs (.arrOutputAck n OK) s (fun t => t.mem = s.mem ∧ ∃ f, t.dev.arr.exec = some f ∧ f.unacked = e.unacked.filter (fun v => v.n != n))) ∧
  (∀ (n a i : Nat) (bs : List Byte) (w : ArrOut) (e : ArrExec) (s : State), (s.dev.arr.exec = some e ∧ e.unacked.find? (fun w => w.n == n) = some w ∧ w.what = .window a bs ∧ e.entry = some i ∧ (optEntry s.dev i).bad = false ∧ s.dev.armedFirst 0x038 [0, 1] = none ∧ (optEntry s.dev i).owner = 1 ∧ (optEntry s.dev i).done ≤ n ∧ n < (optEntry s.dev i).done + 65535 ∧ n + 1 ≤ (optEntry s.dev i).sent) → Runs (.arrOutputAck n OK) s (fun t => t.mem = s.mem ∧ (optEntry t.dev i).done = n + 1 ∧ ∃ f, t.dev.arr.exec = some f ∧ f.unacked = e.unacked.filter (fun v => decide (n < v.n)))) ∧
  (∀ (e : ArrExec) (a : Nat) (s : State), (s.dev.arr.exec = some e ∧ e.complete = true ∧ s.dev.arr.queue.all (fun o => !o.dead) = true ∧ s.dev.rd Reg.ARR_CPL_SIZE ≠ 0 ∧ ringFull s.dev = false ∧ a = s.dev.rd Reg.ARR_CPL_BASE_LO + bits (s.dev.rd Reg.ARR_CPL_BASE_HI) 15 0 * 2 ^ 32 + 32 * (s.dev.rd Reg.ARR_CPL_HEAD % 2 ^ s.dev.rd Reg.ARR_CPL_SIZE) ∧ gdSound s.dev (arrUser s.dev false) a 32) → Runs .arrOpComplete s (fun t => t.dev.arr.exec = none ∧ t.mem = s.mem.store a (cplBytes e.op OK e.flags 0 e.mainDone e.fillDone s.dev.clk.cal (match e.began with | some x => s.dev.clk.cal - x | none => 0) e.acked) ∧ t.dev.rd Reg.ARR_CPL_HEAD = (s.dev.rd Reg.ARR_CPL_HEAD + 1) % 2 ^ 32 ∧ t.dev.rd Reg.ARR_DONE_COUNT = (s.dev.rd Reg.ARR_DONE_COUNT + 1) % 2 ^ 32)) ∧
  (∀ (master : Byte) (value : Word) (s : State), (writeTaken s.dev master.toNat (mAddr Reg.ARR_CPL_TAIL) 32 value.toNat ∧ s.dev.arr.held = none) → Runs (.arrCplTail master value) s (fun t => t.dev.rd Reg.ARR_CPL_TAIL = value.toNat ∧ t.mem = s.mem ∧ t.dev.arr = s.dev.arr ∧ written s t master.toNat (mAddr Reg.ARR_CPL_TAIL))) ∧
  (∀ (e : ArrExec) (s : State), (s.dev.powered.core = true ∧ s.dev.arr.exec = some e ∧ e.complete = true ∧ s.dev.arr.queue.all (fun o => !o.dead) = true ∧ s.dev.rd Reg.ARR_CPL_SIZE ≠ 0 ∧ ringFull s.dev = false) → Runs .cplWrite s (fun t => t.dev.arr.exec = none ∧ t.mem = s.mem ∧ t.dev.err 0x080 2 = true ∧ t.dev.rd Reg.ARR_CPL_HEAD = s.dev.rd Reg.ARR_CPL_HEAD ∧ t.dev.rd Reg.ARR_CPL_LOST_COUNT = (s.dev.rd Reg.ARR_CPL_LOST_COUNT + 1) % 2 ^ 32 ∧ t.dev.rd Reg.ARR_DONE_COUNT = (s.dev.rd Reg.ARR_DONE_COUNT + 1) % 2 ^ 32)) ∧
  (∀ (master : Byte) (hold : Bool) (e : ArrExec) (s : State), (writeTaken s.dev master.toNat (mAddr (rkey 0x080 0x010)) 32 (1 + 2 * b2n hold) ∧ s.dev.arr.exec = some e ∧ e.failed = none) → Runs (.arrFlush master hold) s (fun t => t.dev.arr.queue = s.dev.arr.queue.map (fun o => ({ o with dead := true } : ArrOp)) ∧ (t.dev.rd (rkey 0x080 0x010)).testBit 1 = hold ∧ t.mem = s.mem ∧ written s t master.toNat (mAddr (rkey 0x080 0x010)) ∧ ∃ f, t.dev.arr.exec = some f ∧ f.failed = some ABORTED ∧ f.passes = [] ∧ f.unacked = e.unacked)) ∧
  (∀ (master : Byte) (hold : Bool) (s : State), (writeTaken s.dev master.toNat (mAddr (rkey 0x080 0x010)) 32 (2 * b2n hold)) → Runs (.arrHold master hold) s (fun t => (t.dev.rd (rkey 0x080 0x010)).testBit 1 = hold ∧ t.dev.arr = s.dev.arr ∧ t.mem = s.mem ∧ written s t master.toNat (mAddr (rkey 0x080 0x010)))) ∧
  (∀ (master : Byte) (value : Word) (s : State), (writeTaken s.dev master.toNat (mAddr Reg.ARR_TENANT) 32 value.toNat ∧ arrState s.dev = 0 ∧ s.dev.arr.queue = []) → Runs (.arrTenantWrite master value) s (fun t => bits (t.dev.rd Reg.ARR_TENANT) 9 0 = bits value.toNat 9 0 ∧ t.dev.arr = s.dev.arr ∧ written s t master.toNat (mAddr Reg.ARR_TENANT))) ∧
  (∀ (e : ArrExec) (s : State), (s.dev.powered.core = true ∧ s.dev.arr.exec = some e ∧ e.failed = none ∧ e.began.isSome = true) → Runs .arrStallTimeout s (fun t => t.dev.err 0x080 1 = true ∧ t.mem = s.mem ∧ ∃ f, t.dev.arr.exec = some f ∧ f.failed = some TIMEOUT ∧ f.passes = [] ∧ f.unacked = e.unacked)) ∧
  (∀ (e : ArrExec) (st : Nat) (s : State), (s.dev.arr.exec = some e ∧ e.failed = some st ∧ e.unacked = [] ∧ s.dev.arr.queue.all (fun o => !o.dead) = true ∧ (s.dev.rd Reg.ARR_CPL_SIZE = 0 ∨ ringFull s.dev = true)) → Runs .arrFailDrained s (fun t => t.dev.arr.exec = none ∧ (s.dev.rd Reg.ARR_CPL_SIZE = 0 → t.dev.rd Reg.ARR_DONE_COUNT = (s.dev.rd Reg.ARR_DONE_COUNT + 1) % 2 ^ 32) ∧ (s.dev.rd Reg.ARR_CPL_SIZE ≠ 0 → t.dev.arr.held = some ⟨cplBytes e.op st e.flags 0 e.mainDone e.fillDone s.dev.clk.cal (match e.began with | some x => s.dev.clk.cal - x | none => 0) e.acked, e.op.d.notify⟩))) ∧
  (∀ (part : HandshakePart) (e : ArrExec) (s : State), (s.dev.arr.exec = some e ∧ e.failed = none ∧ s.dev.powered.core = true ∧ s.dev.domainOn (match part with | .tile i => 0x400 + i.val | _ => 0x080) = true) → Runs (.handshake part) s (fun t => t.dev.err (match part with | .tile i => 0x400 + i.val | _ => 0x080) (match part with | .tile _ => 4 | _ => 3) = true ∧ t.dev.err 0x080 3 = true ∧ t.mem = s.mem ∧ ∃ f, t.dev.arr.exec = some f ∧ f.failed = some TIMEOUT ∧ f.passes = [] ∧ f.unacked = e.unacked))

/-- Commands of link training, keying and admission run and have their effect. A DOWN port starts again; DETECT, EQUALIZE, ALIGN, INTRO and KEYING each lead to the next state with what they found; a timeout takes the port DOWN with its reason; admission, enable and retrain writes have their effect. -/
def Obligations.LinkTrainingRuns : Prop :=
  (∀ (p : Fin 6) (s : State), ((portOf s.dev p.val).st = .down ∧ lnkEnabled s.dev p.val = true ∧ portsBarred s.dev = false ∧ s.dev.domainOn (lnkPage p.val) = true) → Runs (.lnkRetryInterval p) s (fun t => (portOf t.dev p.val).st = .detect ∧ (portOf t.dev p.val).attempts = ((portOf s.dev p.val).attempts + 1) % 2 ^ 32 ∧ t.dev.rd (lnkReg p.val 0x128) = min (s.dev.rd (lnkReg p.val 0x128) + 1) 0xFFFFFFFF ∧ t.dev.out = s.dev.out ++ [.rateWord p.val (if compatAllow s.dev p.val then 3 else 2)])) ∧
  (∀ (p : Fin 6) (rates : BitVec 2) (s : State), ((portOf s.dev p.val).st = .detect ∧ (if compatAllow s.dev p.val then 3 else 2) &&& rates.toNat ≠ 0) → Runs (.detectDone p true rates) s (fun t => (portOf t.dev p.val).st = .equalize ∧ (portOf t.dev p.val).slow = !rates.toNat.testBit 1)) ∧
  (∀ (p : Fin 6) (lanes : BitVec 24) (m : Nat) (s : State), ((portOf s.dev p.val).st = .equalize ∧ m = (if (portOf s.dev p.val).slow then lanes.toNat % 2 ^ 16 else lanes.toNat) ∧ s.dev.rd (lnkReg p.val 0x088) ≤ popCount 24 m) → Runs (.equalizeDone p lanes) s (fun t => (portOf t.dev p.val).st = .align ∧ (portOf t.dev p.val).good = m ∧ (portOf t.dev p.val).bad = (if (portOf s.dev p.val).slow then 2 ^ 16 - 1 - m else 2 ^ 24 - 1 - m))) ∧
  (∀ (p : Fin 6) (delay : BitVec 16) (peer : BitVec 24) (s : State), ((portOf s.dev p.val).st = .align ∧ delay.toNat ≤ 250) → Runs (.alignDone p delay peer) s (fun t => (portOf t.dev p.val).st = .intro ∧ (portOf t.dev p.val).intro = none ∧ t.dev.rd (lnkReg p.val 0x0A8) = delay.toNat ∧ (portOf t.dev p.val).width = chooseWidth (portOf s.dev p.val).slow ((portOf s.dev p.val).good &&& peer.toNat) ∧ t.dev.rd (lnkReg p.val 0x080) = ((portOf s.dev p.val).good &&& peer.toNat) % 2 ^ 32 ∧ t.dev.out = s.dev.out ++ [.intro p.val (ownIntro s.dev p.val) (codeword (clearFrame (hdrWord 0 3 0 false 31 16) (introBytes (ownIntro s.dev p.val))))])) ∧
  (∀ (p : Fin 6) (s : State), ((portOf s.dev p.val).st = .intro) → Runs (.introResend p) s (fun t => t.dev.out = s.dev.out ++ [.intro p.val (ownIntro s.dev p.val) (codeword (clearFrame (hdrWord 0 3 0 false 31 16) (introBytes (ownIntro s.dev p.val))))] ∧ t.dev.lnk = s.dev.lnk)) ∧
  (∀ (p : Fin 6) (f : RxFrame) (i : Intro) (s : State), ((portOf s.dev p.val).st = .intro ∧ portRuns s.dev p.val = true ∧ s.dev.rxCheck p.val f = (0, s.dev) ∧ ((portOf s.dev p.val).intro = none ∨ (portOf s.dev p.val).intro = some i)) → Runs (.introFrame p f i) s (fun t => (portOf t.dev p.val).st = .intro ∧ (portOf t.dev p.val).intro = some i ∧ (portOf t.dev p.val).echoed = ((i.lanes &&& s.dev.rd (lnkReg p.val 0x084)) == s.dev.rd (lnkReg p.val 0x084)))) ∧
  (∀ (p : Fin 6) (i : Intro) (s : State), ((portOf s.dev p.val).st = .intro ∧ (portOf s.dev p.val).intro = some i ∧ (portOf s.dev p.val).echoed = true ∧ i.serial ≠ Config.serial) → Runs (.introDone p) s (fun t => (portOf t.dev p.val).st = .keying ∧ (¬ Config.serial < i.serial → t.dev.out = s.dev.out) ∧ (Config.serial < i.serial → ∃ code, t.dev.out = s.dev.out ++ [.keyMsg p.val 1 (Config.kemKey s.dev.fresh ++ attChain s.dev ++ Config.linkSign (transcript1 (ownIntro s.dev p.val) i (Config.kemKey s.dev.fresh ++ attChain s.dev))) code]))) ∧
  (∀ (p : Fin 6) (i : Intro) (s : State), ((portOf s.dev p.val).st = .intro ∧ (portOf s.dev p.val).intro = some i ∧ (portOf s.dev p.val).echoed = true ∧ i.serial = Config.serial ∧ s.dev.domainOn (lnkPage p.val) = true) → Runs (.introDone p) s (fun t => (portOf t.dev p.val).st = .miswired ∧ (portOf t.dev p.val).miswire = 1 ∧ (portOf t.dev p.val).carries = false ∧ t.dev.err (lnkPage p.val) 7 = true ∧ .report 7 p.val 10 ∈ t.dev.out)) ∧
  (∀ (p : Fin 6) (m : KeyMsg) (i : Intro) (s : State), ((portOf s.dev p.val).st = .keying ∧ (portOf s.dev p.val).intro = some i ∧ ¬ Config.serial < i.serial ∧ m.valid = true ∧ peerAccepted s.dev i.serial (keyChain m) = true ∧ keyingAllowed s.dev = true ∧ portRuns s.dev p.val = true ∧ s.dev.keyFrames p.val m.frames = (0, s.dev)) → Runs (.kx1 p m) s (fun t => (portOf t.dev p.val).st = .keying ∧ (portOf t.dev p.val).secret = some m.secret ∧ (portOf t.dev p.val).trans = transcript2 (transcript1 i (ownIntro s.dev p.val) m.body) (Config.kemText s.dev.fresh ++ attChain s.dev) ∧ ∃ code, t.dev.out = s.dev.out ++ [.keyMsg p.val 2 (Config.kemText s.dev.fresh ++ attChain s.dev ++ Config.linkSign (portOf t.dev p.val).trans) code])) ∧
  (∀ (p : Fin 6) (m : KeyMsg) (i : Intro) (s : State), ((portOf s.dev p.val).st = .keying ∧ (portOf s.dev p.val).intro = some i ∧ Config.serial < i.serial ∧ m.valid = true ∧ peerAccepted s.dev i.serial (keyChain m) = true ∧ keyingAllowed s.dev = true ∧ portRuns s.dev p.val = true ∧ s.dev.keyFrames p.val m.frames = (0, s.dev)) → Runs (.kx2 p m) s (fun t => (portOf t.dev p.val).st.carries = true ∧ (portOf t.dev p.val).tx.gen = 0 ∧ (portOf t.dev p.val).tx.slot0 = some (linkKeyOf (Config.kmac256 m.secret (leBytes 64 (transcript2 (portOf s.dev p.val).trans m.body) ++ leBytes 8 Config.serial) "LN link key")) ∧ (portOf t.dev p.val).tx.slot1 = none ∧ (portOf t.dev p.val).rx = ⟨0, some (linkKeyOf (Config.kmac256 m.secret (leBytes 64 (transcript2 (portOf s.dev p.val).trans m.body) ++ leBytes 8 i.serial) "LN link key")), none, 0, 0⟩ ∧ ∃ code, .keyMsg p.val 3 (Config.kxTag m.secret (transcript2 (portOf s.dev p.val).trans m.body)) code ∈ t.dev.out)) ∧
  (∀ (p : Fin 6) (m : KeyMsg) (i : Intro) (k : Nat) (s : State), ((portOf s.dev p.val).st = .keying ∧ (portOf s.dev p.val).intro = some i ∧ (portOf s.dev p.val).secret = some k ∧ m.valid = true ∧ keyingAllowed s.dev = true ∧ portRuns s.dev p.val = true ∧ s.dev.keyFrames p.val m.frames = (0, s.dev)) → Runs (.kx3 p m) s (fun t => (portOf t.dev p.val).st.carries = true ∧ (portOf t.dev p.val).tx.gen = 0 ∧ (portOf t.dev p.val).tx.slot0 = some (linkKeyOf (Config.kmac256 k (leBytes 64 ((portOf s.dev p.val).trans) ++ leBytes 8 Config.serial) "LN link key")) ∧ (portOf t.dev p.val).tx.slot1 = none ∧ (portOf t.dev p.val).rx = ⟨0, some (linkKeyOf (Config.kmac256 k (leBytes 64 ((portOf s.dev p.val).trans) ++ leBytes 8 i.serial) "LN link key")), none, 0, 0⟩)) ∧
  (∀ (p : Fin 6) (s : State), ((portOf s.dev p.val).st.training = true) → Runs (.lnkTrainTimeout p) s (fun t => (portOf t.dev p.val).st = .down ∧ (portOf t.dev p.val).reason = rsTrainTimeout ∧ t.dev.rd (lnkReg p.val 0x084) = 0)) ∧
  (∀ (master : Byte) (p : Fin 6) (s : State), (writeTaken s.dev master.toNat (mAddr (lnkReg p.val 0x0BC)) 32 1 ∧ ((portOf s.dev p.val).st = .held ∨ (portOf s.dev p.val).st = .miswired)) → Runs (.admitPort master p) s (fun t => (portOf t.dev p.val).st = .up ∧ (portOf t.dev p.val).reason = (portOf s.dev p.val).reason ∧ (portOf t.dev p.val).miswire = (portOf s.dev p.val).miswire ∧ .access master.toNat (mAddr (lnkReg p.val 0x0BC)) OK 0 ∈ t.dev.out)) ∧
  (∀ (master : Byte) (p : Fin 6) (s : State), (writeTaken s.dev master.toNat (mAddr (lnkReg p.val 0x0BC)) 32 2 ∧ (portOf s.dev p.val).st = .held) → Runs (.markMiswired master p) s (fun t => (portOf t.dev p.val).st = .miswired ∧ (portOf t.dev p.val).miswire = 5 ∧ t.dev.err (lnkPage p.val) 7 = true ∧ .report 7 p.val 10 ∈ t.dev.out ∧ .access master.toNat (mAddr (lnkReg p.val 0x0BC)) OK 0 ∈ t.dev.out)) ∧
  (∀ (master : Byte) (p : Fin 6) (s : State), (writeTaken s.dev master.toNat (mAddr (lnkReg p.val 0x010)) 32 (lnkCtrlKept s.dev p.val + 2) ∧ lnkEnabled s.dev p.val = true ∧ portsBarred s.dev = false) → Runs (.linkRetrain master p) s (fun t => (portOf t.dev p.val).st = .detect ∧ (portOf t.dev p.val).attempts = ((portOf s.dev p.val).attempts + 1) % 2 ^ 32 ∧ .rateWord p.val (if compatAllow s.dev p.val then 3 else 2) ∈ t.dev.out ∧ .access master.toNat (mAddr (lnkReg p.val 0x010)) OK 0 ∈ t.dev.out)) ∧
  (∀ (master : Byte) (p : Fin 6) (enable compat : Bool) (s : State), (writeTaken s.dev master.toNat (mAddr (lnkReg p.val 0x010)) 32 (b2n enable + 16 * b2n compat)) → Runs (.enablePort master p enable compat) s (fun t => lnkEnabled t.dev p.val = enable ∧ compatAllow t.dev p.val = compat ∧ (enable = true → portOf t.dev p.val = portOf s.dev p.val) ∧ (enable = false → (portOf t.dev p.val).st = .down ∧ (portOf t.dev p.val).reason = rsDisabled) ∧ .access master.toNat (mAddr (lnkReg p.val 0x010)) OK 0 ∈ t.dev.out))

/-- Commands of link frames, retry and rotation run and have their effect. A DATA frame in order is accepted and its packets go to the router; a CTRL frame gives its credits; a NAK has the stored frames replayed; ROT and ROTACK lead to the next keys; repeats send again; a port whose key is worn out or whose peer is silent goes DOWN. -/
def Obligations.LinkFramesRun : Prop :=
  (∀ (p : Fin 6) (f : RxFrame) (s : State), (framesPass s.dev p.val ∧ s.dev.rxCheck p.val f = (0, s.dev) ∧ frameTagged f = true ∧ s.dev.armed (lnkPage p.val) 3 = false ∧ keyHeld (portOf s.dev p.val) f = true ∧ f.seq = (portOf s.dev p.val).expect) → Runs (.dataFrame p f) s (fun t => (portOf t.dev p.val).expect = (f.seq + 1) % 2 ^ 40 ∧ (portOf t.dev p.val).nak = false ∧ (portOf t.dev p.val).rxFrames = ((portOf s.dev p.val).rxFrames + 1) % 2 ^ 64 ∧ t.dev.rtr.inbox = s.dev.rtr.inbox ++ (takePackets 10 (SMap.get (fun _ => []) (portOf s.dev p.val).stream f.vc ++ padTo (16 * f.count) f.payload)).1.map (fun k => ⟨p.val, f.vc, k.1, k.2⟩) ∧ t.dev.out = s.dev.out)) ∧
  (∀ (p : Fin 6) (f : RxFrame) (c : CtrlFields) (s : State), ((portOf s.dev p.val).carries = true ∧ portRuns s.dev p.val = true ∧ (s.dev.acceptCtrl p.val f c).1 = true) → Runs (.ctrlFrame p f c) s (fun t => (portOf t.dev p.val).ctrlRx = some f.seq ∧ ∀ v : Fin 16, v.val < c.credits.length → SMap.get (fun _ => 0) (portOf t.dev p.val).credIn v.val = listAt 0 c.credits v.val % 2 ^ 16)) ∧
  (∀ (p : Fin 6) (f : RxFrame) (c : CtrlFields) (s : State), ((portOf s.dev p.val).carries = true ∧ portRuns s.dev p.val = true ∧ (s.dev.acceptCtrl p.val f c).1 = true ∧ (portOf s.dev p.val).replaying = none) → Runs (.nakFrame p f c) s (fun t => (portOf t.dev p.val).ctrlRx = some f.seq ∧ ∀ g ∈ (ackRetry (portOf s.dev p.val) c.ack).retry, .dataFrame p.val g.seq g.vc g.gen g.start g.count g.bytes true (codeword g.wire) ∈ t.dev.out)) ∧
  (∀ (p : Fin 6) (f : RxFrame) (c : CtrlFields) (k : LinkKey) (s : State), ((portOf s.dev p.val).carries = true ∧ portRuns s.dev p.val = true ∧ (s.dev.acceptCtrl p.val f c).1 = true ∧ (portOf s.dev p.val).rx.slot ((portOf s.dev p.val).rx.gen + 1) = none ∧ (portOf s.dev p.val).rx.cur = some k ∧ c.gen = (portOf s.dev p.val).rx.gen + 1) → Runs (.rot p f c) s (fun t => ∃ n, (portOf t.dev p.val).rx.slot c.gen = some (rotatedKey k c.gen c.nonce n) ∧ (portOf t.dev p.val).rx.gen = (portOf s.dev p.val).rx.gen ∧ (portOf t.dev p.val).rotSeen = some (c.gen, n) ∧ ∃ q a cr code, .ctrlFrame p.val q a false false true cr c.gen n code ∈ t.dev.out)) ∧
  (∀ (p : Fin 6) (f : RxFrame) (c : CtrlFields) (k : LinkKey) (nt : Nat) (s : State), ((portOf s.dev p.val).carries = true ∧ portRuns s.dev p.val = true ∧ (s.dev.acceptCtrl p.val f c).1 = true ∧ (portOf s.dev p.val).rot = some (c.gen, nt) ∧ (portOf s.dev p.val).tx.cur = some k) → Runs (.rotack p f c) s (fun t => (portOf t.dev p.val).tx.gen = c.gen ∧ (portOf t.dev p.val).tx.slot c.gen = some (rotatedKey k c.gen nt c.nonce) ∧ (portOf t.dev p.val).tx.slot (c.gen + 1) = (portOf s.dev p.val).tx.slot (c.gen + 1) ∧ (portOf t.dev p.val).rot = none ∧ t.dev.rd (lnkReg p.val 0x124) = min (s.dev.rd (lnkReg p.val 0x124) + 1) 0xFFFFFFFF)) ∧
  (∀ (p : Fin 6) (s : State), ((portOf s.dev p.val).carries = true ∧ (portOf s.dev p.val).nak = true ∧ (portOf s.dev p.val).events + 1 ≤ s.dev.rd (lnkReg p.val 0x094)) → Runs (.nakRepeat p) s (fun t => (portOf t.dev p.val).events = (portOf s.dev p.val).events + 1 ∧ (portOf t.dev p.val).nak = true ∧ t.dev.rd (lnkReg p.val 0x110) = min (s.dev.rd (lnkReg p.val 0x110) + 1) 0xFFFFFFFF ∧ ∃ cr code, t.dev.out = s.dev.out ++ [.ctrlFrame p.val (portOf s.dev p.val).ctrlSeq (((portOf s.dev p.val).expect + 2 ^ 40 - 1) % 2 ^ 40) true false false cr 0 0 code])) ∧
  (∀ (p : Fin 6) (s : State), ((portOf s.dev p.val).carries = true ∧ portRuns s.dev p.val = true) → Runs (.ctrlFrameDue p) s (fun t => (portOf t.dev p.val).ctrlSeq = ((portOf s.dev p.val).ctrlSeq + 1) % 2 ^ 40 ∧ ∃ cr code, t.dev.out = s.dev.out ++ [.ctrlFrame p.val (portOf s.dev p.val).ctrlSeq (((portOf s.dev p.val).expect + 2 ^ 40 - 1) % 2 ^ 40) false false false cr 0 0 code])) ∧
  (∀ (master : Byte) (p : Fin 6) (s : State), (writeTaken s.dev master.toNat (mAddr (lnkReg p.val 0x010)) 32 (lnkCtrlKept s.dev p.val + 8) ∧ lnkEnabled s.dev p.val = true ∧ (portOf s.dev p.val).rot = none ∧ (portOf s.dev p.val).tx.cur.isSome = true ∧ (portOf s.dev p.val).carries = true) → Runs (.rotate master p) s (fun t => ∃ n, (portOf t.dev p.val).rot = some ((portOf s.dev p.val).tx.gen + 1, n) ∧ ∃ q a cr code, .ctrlFrame p.val q a false true false cr ((portOf s.dev p.val).tx.gen + 1) n code ∈ t.dev.out)) ∧
  (∀ (p : Fin 6) (s : State), ((portOf s.dev p.val).keyFrames (2 ^ keyLimit s.dev p.val) = true ∧ (portOf s.dev p.val).rot = none ∧ (portOf s.dev p.val).tx.cur.isSome = true ∧ (portOf s.dev p.val).carries = true) → Runs (.keyCountLimit p) s (fun t => ∃ n, (portOf t.dev p.val).rot = some ((portOf s.dev p.val).tx.gen + 1, n) ∧ ∃ q a cr code, .ctrlFrame p.val q a false true false cr ((portOf s.dev p.val).tx.gen + 1) n code ∈ t.dev.out)) ∧
  (∀ (p : Fin 6) (g n : Nat) (s : State), ((portOf s.dev p.val).rot = some (g, n) ∧ (portOf s.dev p.val).carries = true) → Runs (.rotResend p) s (fun t => (portOf t.dev p.val).rot = some (g, n) ∧ ∃ q a cr code, t.dev.out = s.dev.out ++ [.ctrlFrame p.val q a false true false cr g n code])) ∧
  (∀ (p : Fin 6) (s : State), ((portOf s.dev p.val).carries = true ∧ (portOf s.dev p.val).keyFrames (2 ^ 39) = true) → Runs (.keyLimit p) s (fun t => (portOf t.dev p.val).st = .down ∧ (portOf t.dev p.val).reason = rsKeyLimit ∧ (portOf t.dev p.val).tx = LinkKeys.none ∧ (portOf t.dev p.val).retry = [])) ∧
  (∀ (p : Fin 6) (s : State), ((portOf s.dev p.val).carries = true) → Runs (.silence p) s (fun t => (portOf t.dev p.val).st = .down ∧ (portOf t.dev p.val).reason = rsSilence ∧ (portOf t.dev p.val).tx = LinkKeys.none ∧ (portOf t.dev p.val).retry = []))

/-- Commands of lane changes run and have their effect. A bad lane takes the port to HOLD; the peer's mask chooses the new lanes; deskew and lane-ready lead back to the state held before; a hold too long or a lost lock takes the port DOWN; a widen adds lanes. -/
def Obligations.LaneChangesRun : Prop :=
  (∀ (p : Fin 6) (lane : Fin 24) (s : State), (((portOf s.dev p.val).st.carries = true ∨ (portOf s.dev p.val).st = .hold) ∧ (s.dev.rd (lnkReg p.val 0x084)).testBit lane.val = true ∧ (portOf s.dev p.val).bad.testBit lane.val = false ∧ s.dev.domainOn (lnkPage p.val) = true) → Runs (.laneBad p lane) s (fun t => (portOf t.dev p.val).st = .hold ∧ (portOf t.dev p.val).bad = setBit (portOf s.dev p.val).bad lane.val ∧ t.dev.err (lnkPage p.val) 4 = true ∧ t.dev.out = s.dev.out ++ [.laneSets p.val (setBit (portOf s.dev p.val).bad lane.val) false])) ∧
  (∀ (p : Fin 6) (mask : BitVec 24) (both : Nat) (s : State), (((portOf s.dev p.val).st.carries = true ∨ (portOf s.dev p.val).st = .hold) ∧ both = (portOf s.dev p.val).lanes &&& (0xFFFFFF ^^^ (((portOf s.dev p.val).bad ||| mask.toNat) % 2 ^ 24)) ∧ s.dev.rd (lnkReg p.val 0x088) ≤ chooseWidth (portOf s.dev p.val).slow both) → Runs (.laneChangeSet p mask) s (fun t => (portOf t.dev p.val).st = .hold ∧ (portOf t.dev p.val).change = .chosen ∧ (portOf t.dev p.val).width = chooseWidth (portOf s.dev p.val).slow both ∧ t.dev.rd (lnkReg p.val 0x084) = lowestLanes both (chooseWidth (portOf s.dev p.val).slow both) (upFrom 0 24) % 2 ^ 32)) ∧
  (∀ (p : Fin 6) (s : State), ((portOf s.dev p.val).st = .hold ∧ (portOf s.dev p.val).change = .chosen) → Runs (.laneDeskewDone p) s (fun t => (portOf t.dev p.val).change = .ready ∧ (portOf t.dev p.val).st = .hold ∧ t.dev.out = s.dev.out ++ [.laneSets p.val (portOf s.dev p.val).bad true])) ∧
  (∀ (p : Fin 6) (ack : BitVec 40) (s : State), ((portOf s.dev p.val).st = .hold ∧ (portOf s.dev p.val).change = .ready) → Runs (.laneReady p ack) s (fun t => (portOf t.dev p.val).st = (portOf s.dev p.val).saved ∧ (portOf t.dev p.val).change = .none ∧ t.dev.rd (lnkReg p.val 0x120) = min (s.dev.rd (lnkReg p.val 0x120) + 1) 0xFFFFFFFF ∧ ((portOf t.dev p.val).looped = false → ∀ g ∈ (ackRetry (portOf s.dev p.val) ack.toNat).retry, .dataFrame p.val g.seq g.vc g.gen g.start g.count g.bytes true (codeword g.wire) ∈ t.dev.out))) ∧
  (∀ (p : Fin 6) (s : State), ((portOf s.dev p.val).st = .hold) → Runs (.holdTimeout p) s (fun t => (portOf t.dev p.val).st = .down ∧ (portOf t.dev p.val).reason = rsHold)) ∧
  (∀ (p : Fin 6) (s : State), ((portOf s.dev p.val).st.carries = true ∨ (portOf s.dev p.val).st = .hold) → Runs (.lockLost p) s (fun t => (portOf t.dev p.val).st = .down ∧ (portOf t.dev p.val).reason = rsNoSignal)) ∧
  (∀ (master : Byte) (p : Fin 6) (s : State), (writeTaken s.dev master.toNat (mAddr (lnkReg p.val 0x010)) 32 (lnkCtrlKept s.dev p.val + 4) ∧ lnkEnabled s.dev p.val = true ∧ (portOf s.dev p.val).st.carries = true) → Runs (.widen master p) s (fun t => (portOf t.dev p.val).widening = true ∧ (portOf t.dev p.val).st = (portOf s.dev p.val).st ∧ written s t master.toNat (mAddr (lnkReg p.val 0x010)))) ∧
  (∀ (p : Fin 6) (lanes : BitVec 24) (m : Nat) (s : State), ((portOf s.dev p.val).widening = true ∧ (portOf s.dev p.val).st.carries = true ∧ m = (if (portOf s.dev p.val).slow then lanes.toNat % 2 ^ 16 else lanes.toNat)) → Runs (.widenEqualizeDone p lanes) s (fun t => (portOf t.dev p.val).widening = false ∧ t.dev.rd (lnkReg p.val 0x080) = (s.dev.rd (lnkReg p.val 0x080) ||| m) % 2 ^ 32 ∧ (portOf t.dev p.val).st = (if (portOf s.dev p.val).width < chooseWidth (portOf s.dev p.val).slow (s.dev.rd (lnkReg p.val 0x080) ||| m) then .hold else (portOf s.dev p.val).st)))

/-- Commands of the router run and have their effect. A packet for this module is consumed here, one for a port joins its queue; an arrival for this module is consumed; tokens return; an old packet is discarded; route entries, bank parameters and windows take their values; a bank is sealed, unsealed and flipped. -/
def Obligations.RouterRuns : Prop :=
  (∀ (p : Packet) (s : State), (s.dev.stopped.contains .router = false ∧ p.ptype = ptMgmt ∧ p.phase = true ∧ p.allowed = true ∧ anyLive s.dev = true ∧ s.dev.lookup (b2n (liveBit s.dev)) p.dest = (.here, s.dev)) → Runs (.packetInject (some p)) s (fun t => t.dev.rtr.sink = s.dev.rtr.sink ++ [⟨{ p with src := myMa s.dev, epoch := liveBit s.dev, via := p.dest, phase := true, dateline := false }, none⟩] ∧ t.mem = s.mem)) ∧
  (∀ (p : Packet) (q : Packet) (i : Fin 6) (s : State), (s.dev.stopped.contains .router = false ∧ p.portAddressed = some i.val ∧ p.allowed = true ∧ q = { p with src := myMa s.dev, epoch := liveBit s.dev, dateline := (s.dev.rd Reg.RTR_DATELINE).testBit i.val } ∧ portTakes s.dev i.val q = true ∧ tokensLeft s.dev i.val ≠ 0 ∧ c0Wait s.dev i.val = [] ∧ c0Queued s.dev i.val < 35 ∧ SMap.get (fun _ => []) s.dev.rtr.c0in i.val = [] ∧ hasCredit (portOf s.dev i.val) q.vc = false) → Runs (.packetInject (some p)) s (fun t => outQ t.dev i.val q.vc = outQ s.dev i.val q.vc ++ [⟨q, none, q.bytes, false⟩] ∧ t.mem = s.mem)) ∧
  (∀ (p : Fin 6) (v : Fin 16) (pkt : Packet) (s : State), (s.dev.stopped.contains .router = false ∧ pkt.length ≤ 4096 ∧ 1 ≤ pkt.ptype ∧ pkt.ptype ≤ 10 ∧ s.dev.armedFirst 0x028 [1, 2] = none ∧ pkt.phase = true ∧ pkt.passAlong = false ∧ bankState s.dev (b2n pkt.epoch) ≠ 0 ∧ s.dev.lookup (b2n pkt.epoch) pkt.dest = (.here, s.dev) ∧ (pkt.ptype = ptContrib ∨ pkt.ptype = ptResult → badKind pkt = false)) → Runs (.packetArrival (some (p, v, pkt))) s (fun t => t.dev.rtr.sink = s.dev.rtr.sink ++ [⟨pkt, some (p.val, v.val)⟩] ∧ t.mem = s.mem)) ∧
  (∀ (p : Fin 6) (s : State), (c0Wait s.dev p.val = []) → Runs (.c0TokenRefill p) s (fun t => SMap.get (fun _ => 0) t.dev.rtr.tokens p.val = SMap.get (fun _ => 0) s.dev.rtr.tokens p.val - 1 ∧ t.mem = s.mem)) ∧
  (∀ (p : Fin 6) (pkt : Packet) (rest : List Packet) (s : State), (c0Wait s.dev p.val = pkt :: rest ∧ portTakes s.dev p.val pkt = true ∧ c0Queued s.dev p.val < 35 ∧ SMap.get (fun _ => []) s.dev.rtr.c0in p.val = [] ∧ hasCredit (portOf s.dev p.val) pkt.vc = false) → Runs (.c0TokenRefill p) s (fun t => c0Wait t.dev p.val = rest ∧ outQ t.dev p.val pkt.vc = outQ s.dev p.val pkt.vc ++ [⟨pkt, none, pkt.bytes, false⟩])) ∧
  (∀ (p : Fin 6) (vc : Fin 16) (x : QPkt) (s : State), ((outQ s.dev p.val vc.val).find? (fun x => !x.started) = some x ∧ s.dev.powered.core = true) → Runs (.hopAge p vc) s (fun t => t.dev.rd Reg.RTR_AGED_COUNT = min (s.dev.rd Reg.RTR_AGED_COUNT + 1) 0xFFFFFFFF ∧ t.dev.err 0x028 3 = true ∧ (x.pkt.acked = false → outQ t.dev p.val vc.val = (outQ s.dev p.val vc.val).takeWhile (fun y => y.started) ++ (outQ s.dev p.val vc.val).drop (((outQ s.dev p.val vc.val).takeWhile (fun y => y.started)).length + 1)) ∧ t.mem = s.mem)) ∧
  (∀ (master : Byte) (value : Word) (s : State), (writeTaken s.dev master.toNat (mAddr Reg.RTB_SEAL) 32 value.toNat ∧ bankState s.dev (value.toNat % 2) = 0 ∧ ((anyLive s.dev = true ∧ value.toNat = s.dev.rd Reg.RTB_LIVE_EPOCH + 1) ∨ (anyLive s.dev = false ∧ 1 ≤ value.toNat))) → Runs (.rtbSeal master value) s (fun t => bankState t.dev (value.toNat % 2) = 1 ∧ bankEpoch t.dev (value.toNat % 2) = value.toNat ∧ bankState t.dev (1 - value.toNat % 2) = bankState s.dev (1 - value.toNat % 2) ∧ written s t master.toNat (mAddr Reg.RTB_SEAL))) ∧
  (∀ (master : Byte) (value : Word) (s : State), (writeTaken s.dev master.toNat (mAddr Reg.RTB_UNSEAL) 32 value.toNat ∧ bankState s.dev (value.toNat % 2) = 1 ∧ bankEpoch s.dev (value.toNat % 2) = value.toNat ∧ bankPending s.dev = false) → Runs (.rtbUnseal master value) s (fun t => bankState t.dev (value.toNat % 2) = 0 ∧ bankState t.dev (1 - value.toNat % 2) = bankState s.dev (1 - value.toNat % 2) ∧ written s t master.toNat (mAddr Reg.RTB_UNSEAL))) ∧
  (∀ (master : Byte) (value : Word) (s : State), (writeTaken s.dev master.toNat (mAddr Reg.RTB_FLIP) 32 value.toNat ∧ bankState s.dev (value.toNat % 2) = 1 ∧ bankEpoch s.dev (value.toNat % 2) = value.toNat) → Runs (.rtbFlip master value) s (fun t => (anyLive s.dev = true → bankPending t.dev = true ∧ bankState t.dev (value.toNat % 2) = 1) ∧ (anyLive s.dev = false → bankState t.dev (value.toNat % 2) = 2 ∧ t.dev.rd Reg.RTB_LIVE_EPOCH = value.toNat ∧ t.dev.rd Reg.RTB_FLIP_COUNT = min (s.dev.rd Reg.RTB_FLIP_COUNT + 1) 0xFFFFFFFF) ∧ written s t master.toNat (mAddr Reg.RTB_FLIP))) ∧
  (∀ (master : Byte) (hops : Bool) (bank : Fin 2) (value : Word) (s : State), (writeTaken s.dev master.toNat (mAddr ((if hops then Reg.RTB_MAX_HOPS0 else Reg.RTB_SALT0) + 4 * bank.val)) 32 value.toNat ∧ bankState s.dev bank.val = 0 ∧ (hops = true → 1 ≤ value.toNat % 256)) → Runs (.rtbParamWrite master hops bank value) s (fun t => (t.dev.rd ((if hops then Reg.RTB_MAX_HOPS0 else Reg.RTB_SALT0) + 4 * bank.val)) % 256 = value.toNat % 256 ∧ (hops = false → t.dev.rd (Reg.RTB_SALT0 + 4 * bank.val) = value.toNat) ∧ written s t master.toNat (mAddr ((if hops then Reg.RTB_MAX_HOPS0 else Reg.RTB_SALT0) + 4 * bank.val)))) ∧
  (∀ (master : Byte) (bank : Fin 2) (m : BitVec 15) (value : Word) (s : State), (writeTaken s.dev master.toNat (0x0200000000 + bank.val * 0x10000000 + 4 * m.toNat) 32 value.toNat ∧ bankState s.dev bank.val = 0 ∧ bits value.toNat 30 28 ≠ 7 ∧ (bits value.toNat 30 28 = 6 ↔ (maValid s.dev = true ∧ m.toNat = myMa s.dev))) → Runs (.routeEntryWrite master bank m value) s (fun t => routeEntry t.dev bank.val m.toNat = bits value.toNat 31 27 * 2 ^ 27 ∧ (∀ k, k ≠ bank.val * 2 ^ 15 + m.toNat → SMap.get (fun _ => 0) t.dev.rtr.routes k = SMap.get (fun _ => 0) s.dev.rtr.routes k) ∧ written s t master.toNat (0x0200000000 + bank.val * 0x10000000 + 4 * m.toNat))) ∧
  (∀ (master : Byte) (w : BitVec 12) (wide : Bool) (value : BitVec 64) (o n m new : Nat) (st : Nat × Nat) (s : State), (o = (if wide then 8 else 12) ∧ n = (if wide then 8 else 4) ∧ writeTaken s.dev master.toNat (0x0230000000 + 16 * w.toNat + o) (8 * n) value.toNat ∧ st = SMap.get (fun _ => (0, 0)) s.dev.rtr.staged w.toNat ∧ m = (2 ^ (8 * n) - 1) * 2 ^ (8 * o) ∧ new = (windowEntry s.dev w.toNat - (windowEntry s.dev w.toNat &&& (st.1 ||| m)) + (st.2 - (st.2 &&& m) + value.toNat % 2 ^ (8 * n) * 2 ^ (8 * o))) &&& windowMask ∧ windowOk new = true) → Runs (.windowEntryWrite master w wide value) s (fun t => windowEntry t.dev w.toNat = new ∧ SMap.get (fun _ => (0, 0)) t.dev.rtr.staged w.toNat = (0, 0) ∧ written s t master.toNat (0x0230000000 + 16 * w.toNat + o)))

/-- Commands of remote accesses run and have their effect. A WRITE stores its bytes through its window and is counted for its ACK; a READ_REQ is answered with the bytes of memory; a READ_RESP stores them; an ACK counts and a NACK ends its operation; a descriptor is queued, sent and ended with its status. -/
def Obligations.RemoteAccessRuns : Prop :=
  (∀ (p : Packet) (s : State), (windowCheck s.dev p.window p.tenant p.system 117 p.offset p.length = OK ∧ p.payload ≠ [] ∧ gdSound s.dev (windowUser s.dev 8 p.window) (windowAddr s.dev p.window p.offset) p.length) → Runs (.writePkt (some p)) s (fun t => t.mem = s.mem.store (windowAddr s.dev p.window p.offset) p.payload ∧ t.dev.rtr.stored = s.dev.rtr.stored ++ [{ p with ptype := ptWrite }])) ∧
  (∀ (p : Packet) (rest : List Packet) (s : State), (s.dev.rtr.stored = p :: rest ∧ s.dev.rtr.pairs.find? (fun a => a.src == p.src && a.opid == p.opid) = none ∧ 1 < bits (s.dev.rd Reg.RTR_ACK) 7 0 ∧ s.dev.rtr.pairs.length < 1024) → Runs .writeStored s (fun t => t.dev.rtr.stored = rest ∧ t.dev.rtr.pairs = s.dev.rtr.pairs ++ [⟨p.src, p.opid, 1, p.seq, p.ptype, p.channel, p.tenant, p.system⟩] ∧ t.mem = s.mem)) ∧
  (∀ (p : Packet) (n : Nat) (s : State), (n = bits (field p.payload 8 2) 12 0 ∧ n ≤ 4096 ∧ windowCheck s.dev p.window p.tenant p.system 118 p.offset n = OK ∧ gdSound s.dev (windowUser s.dev 8 p.window) (windowAddr s.dev p.window p.offset) n) → Runs (.readReq (some p)) s (fun t => t.dev.rtr.reads = s.dev.rtr.reads ++ [(readAnswer p (s.mem.bytes (windowAddr s.dev p.window p.offset) n), [])] ∧ t.mem = s.mem)) ∧
  (∀ (p : Packet) (x : List Byte) (rest : List (Packet × List Byte)) (s : State), (s.dev.rtr.reads = (p, x) :: rest) → Runs .readDataReady s (fun t => t.dev.rtr.reads = rest ∧ t.dev = (({ s.dev with rtr := { s.dev.rtr with reads := rest } } : Dev).inject p).2 ∧ t.mem = s.mem)) ∧
  (∀ (p : Packet) (i : Nat) (s : State), (windowCheck s.dev p.window p.tenant p.system 117 p.offset p.length = OK ∧ p.payload ≠ [] ∧ gdSound s.dev (windowUser s.dev 8 p.window) (windowAddr s.dev p.window p.offset) p.length ∧ liveEntry s.dev p.opid = some i ∧ (optEntry s.dev i).bad = false ∧ s.dev.armedFirst 0x038 [0, 1] = none ∧ (optEntry s.dev i).owner ≠ 1 ∧ (optEntry s.dev i).done + 1 ≤ (optEntry s.dev i).sent ∧ (optEntry s.dev i).done + 1 < (optEntry s.dev i).total) → Runs (.readResp (some p)) s (fun t => t.mem = s.mem.store (windowAddr s.dev p.window p.offset) p.payload ∧ (optEntry t.dev i).done = (optEntry s.dev i).done + 1 ∧ (optEntry t.dev i).kind = (optEntry s.dev i).kind)) ∧
  (∀ (p : Packet) (s : State), (windowCheck s.dev p.window p.tenant p.system 119 p.offset p.length = OK ∧ p.payload ≠ [] ∧ gdSound s.dev (windowUser s.dev 8 p.window) (windowAddr s.dev p.window p.offset) p.length) → Runs (.mcastPkt (some p)) s (fun t => t.mem = s.mem.store (windowAddr s.dev p.window p.offset) p.payload ∧ t.dev.rtr.mcastFailed = s.dev.rtr.mcastFailed)) ∧
  (∀ (p : Packet) (i n : Nat) (s : State), (liveEntry s.dev p.opid = some i ∧ (optEntry s.dev i).bad = false ∧ s.dev.armedFirst 0x038 [0, 1] = none ∧ field p.payload 0 1 = OK ∧ p.src = (optEntry s.dev i).dest ∧ (optEntry s.dev i).owner ≠ 1 ∧ (optEntry s.dev i).done < n ∧ n < (optEntry s.dev i).done + 2 ^ 16 ∧ n ≤ (optEntry s.dev i).sent ∧ n < (optEntry s.dev i).total ∧ p.seq % 2 ^ 16 = (n - 1) % 2 ^ 16) → Runs (.ackPkt (some p)) s (fun t => (optEntry t.dev i).done = n ∧ (optEntry t.dev i).kind = (optEntry s.dev i).kind ∧ t.mem = s.mem)) ∧
  (∀ (p : Packet) (i st : Nat) (s : State), (liveEntry s.dev p.opid = some i ∧ (optEntry s.dev i).bad = false ∧ s.dev.armedFirst 0x038 [0, 1] = none ∧ field p.payload 0 1 = st ∧ st ≠ OK ∧ (optEntry s.dev i).owner = 0) → Runs (.ackPkt (some p)) s (fun t => optEntry t.dev i = OptEntry.free ∧ t.dev.rtr.ra = mapFirst (fun j => j.entry == some i) (fun j => { j with entry := none, ended := some st }) s.dev.rtr.ra ∧ t.mem = s.mem)) ∧
  (∀ (src opid : Nat) (a : AckPair) (rest : List AckPair) (s : State), (takeFirst (fun a => a.src == src && a.opid == opid) s.dev.rtr.pairs = some (a, rest)) → Runs (.ackDelay src opid) s (fun t => t.dev.rtr.pairs = rest ∧ t.dev = ({ s.dev with rtr := { s.dev.rtr with pairs := rest } } : Dev).ackPair a ∧ t.mem = s.mem)) ∧
  (∀ (i : BitVec 12) (s : State), ((optEntry s.dev i.toNat).kind ≠ 0 ∧ (optEntry s.dev i.toNat).owner = 0) → Runs (.rtrOpTimeout i) s (fun t => optEntry t.dev i.toNat = OptEntry.free ∧ t.dev.rtr.ra = mapFirst (fun j => j.entry == some i.toNat) (fun j => { j with entry := none, ended := some TIMEOUT }) s.dev.rtr.ra ∧ t.mem = s.mem)) ∧
  (∀ (i : BitVec 12) (e : ArrExec) (s : State), ((optEntry s.dev i.toNat).kind ≠ 0 ∧ (optEntry s.dev i.toNat).owner = 1 ∧ s.dev.arr.exec = some e ∧ e.failed = none) → Runs (.rtrOpTimeout i) s (fun t => t.mem = s.mem ∧ ∃ f, t.dev.arr.exec = some f ∧ f.failed = some TIMEOUT ∧ f.unacked = e.unacked.filter (fun w => !(match w.what with | .window _ _ => true | _ => false)))) ∧
  (∀ (master : Byte) (value : Word) (s : State), (writeTaken s.dev master.toNat (mAddr Reg.RTR_RA_SUBMIT) 32 value.toNat ∧ s.dev.rtr.ra.length < 64 ∧ gdSound s.dev (raUser s.dev) (value.toNat * 64) 64) → Runs (.rtrRaSubmit master value) s (fun t => t.dev.rtr.ra = s.dev.rtr.ra ++ [⟨wordsOf (s.mem.bytes (value.toNat * 64) 64) 16, value.toNat * 64, none, false, none⟩] ∧ t.mem = s.mem ∧ written s t master.toNat (mAddr Reg.RTR_RA_SUBMIT))) ∧
  (∀ (j : RaJob) (i : Nat) (d : Dev) (s : State), (s.dev.rtr.ra.find? (fun j => j.fresh) = some j ∧ raSent s.dev = true ∧ raWaits s.dev j = false ∧ j.invalid = false ∧ s.dev.optTake j.op 0 (bits (j.word 4) 31 17) (bits (j.word 5) 19 12) j.packets 0 2 = some (i, d) ∧ (j.op = 2 ∨ ∀ k, k < j.packets → gdSound s.dev (raUser s.dev) (j.localAt + 4096 * k) (min 4096 (j.len - 4096 * k)))) → Runs .raStart s (fun t => t.dev.rtr.ra = mapFirst (fun j => j.fresh) (fun j => { j with entry := some i, waiting := false }) s.dev.rtr.ra ∧ (optEntry t.dev i).kind = j.op ∧ t.dev.rtr.offers.length = s.dev.rtr.offers.length + j.packets ∧ t.mem = s.mem)) ∧
  (∀ (j : RaJob) (i : Nat) (d : Dev) (s : State), (s.dev.rtr.ra.find? (fun j => j.waiting) = some j ∧ raWaits s.dev j = false ∧ s.dev.optTake j.op 0 (bits (j.word 4) 31 17) (bits (j.word 5) 19 12) j.packets 0 2 = some (i, d) ∧ (j.op ≠ 1 ∨ ∀ k, k < j.packets → gdSound s.dev (raUser s.dev) (j.localAt + 4096 * k) (min 4096 (j.len - 4096 * k)))) → Runs .raEntryTaken s (fun t => t.dev.rtr.ra = mapFirst (fun j => j.waiting) (fun j => { j with entry := some i, waiting := false }) s.dev.rtr.ra ∧ t.dev.rtr.offers.length = s.dev.rtr.offers.length + j.packets ∧ t.mem = s.mem)) ∧
  (∀ (j : RaJob) (rest : List RaJob) (st : Nat) (s : State), (s.dev.rtr.ra = j :: rest ∧ j.ended = some st ∧ gdSound s.dev (raUser s.dev) (j.addr + 60) 4) → Runs .raComplete s (fun t => t.dev.rtr.ra = rest ∧ t.mem = s.mem.store (j.addr + 60) (leBytes 4 (2 ^ 31 + bits (j.word 0) 7 0 * 2 ^ 8 + st)) ∧ t.dev.rd Reg.RTR_RA_DONE = (s.dev.rd Reg.RTR_RA_DONE + 1) % 2 ^ 32))

/-- Collectives are set up and launched. A valid group entry is taken and a refused one is not; pool entries are written; a group is disabled; a descriptor is queued, checked, given its entry and launched under its group's next CSEQ; a flush ends everything; HOLD and COL_TENANT are written. -/
def Obligations.CollectiveSetupRuns : Prop :=
  (∀ (master : Byte) (value : Word) (s : State), (writeTaken s.dev master.toNat (mAddr Reg.COL_SUBMIT) 32 value.toNat ∧ s.dev.col.queue.length < 64 ∧ gdSound s.dev (colUser s.dev) (value.toNat * 64) 64) → Runs (.colSubmit master value) s (fun t => t.dev.col.queue = s.dev.col.queue ++ [⟨wordsOf (s.mem.bytes (value.toNat * 64) 64) 16, value.toNat * 64⟩] ∧ t.mem = s.mem ∧ written s t master.toNat (mAddr Reg.COL_SUBMIT))) ∧
  (∀ (j : ColJob) (rest : List ColJob) (s : State), (s.dev.col.queue = j :: rest ∧ s.dev.col.checked = false ∧ (s.dev.rd (rkey 0x030 0x010)).testBit 1 = false ∧ s.dev.armedFirst 0x032 [0, 1] = none ∧ (grp s.dev j.group).valid = true ∧ (grp s.dev j.group).system = (colUser s.dev).system ∧ (grp s.dev j.group).tenant = (colUser s.dev).tenant) → Runs .colHeadCheck s (fun t => t.dev.col.checked = true ∧ t.dev.col.detail = colDetail s.dev j (grp s.dev j.group) ∧ t.dev.col.queue = j :: rest ∧ t.mem = s.mem)) ∧
  (∀ (j : ColJob) (rest : List ColJob) (s : State), (s.dev.col.queue = j :: rest ∧ s.dev.col.checked = false ∧ (s.dev.rd (rkey 0x030 0x010)).testBit 1 = false ∧ s.dev.armedFirst 0x032 [0, 1] = none ∧ (grp s.dev j.group).valid = false ∧ gdSound s.dev (colUser s.dev) (j.addr + 56) 8 ∧ s.dev.col.ends = []) → Runs .colHeadCheck s (fun t => t.dev.col.queue = rest ∧ t.mem = s.mem.store (j.addr + 56) (leBytes 4 0 ++ leBytes 4 (2 ^ 31 + bits (j.word 0) 7 0 * 2 ^ 8 + GROUP_INVALID)))) ∧
  (∀ (j : ColJob) (rest : List ColJob) (i : Nat) (d : Dev) (s : State), (s.dev.col.queue = j :: rest ∧ s.dev.col.checked = true ∧ s.dev.col.entry = none ∧ s.dev.optTake 4 1000 0 0 (if s.dev.col.detail.isSome then 0 else j.nch * j.trees (grp s.dev j.group).count) j.group 0 = some (i, d)) → Runs .colEntryTaken s (fun t => t.dev.col.entry = some i ∧ (optEntry t.dev i).kind = 4 ∧ t.dev.col.queue = j :: rest ∧ t.mem = s.mem)) ∧
  (∀ (j : ColJob) (rest : List ColJob) (i e : Nat) (s : State), (s.dev.col.queue = j :: rest ∧ s.dev.col.entry = some i ∧ s.dev.col.detail = some e ∧ gdHeld s.dev (j.addr + 52) 4 = false) → Runs .colQuotaReserved s (fun t => t.dev.col.queue = rest ∧ (grp t.dev j.group).nextSeq = ((grp s.dev j.group).nextSeq + 1) % 2 ^ 16)) ∧
  (∀ (j : ColJob) (rest : List ColJob) (i : Nat) (s : State), (s.dev.col.queue = j :: rest ∧ s.dev.col.entry = some i ∧ s.dev.col.detail = none ∧ colQuota s.dev j * j.bufSlots ≤ panFree s.dev ∧ gdHeld s.dev (j.addr + 52) 4 = false) → Runs .colQuotaReserved s (fun t => t.dev.col.queue = rest ∧ (grp t.dev j.group).nextSeq = ((grp s.dev j.group).nextSeq + 1) % 2 ^ 16)) ∧
  (∀ (master : Byte) (g : BitVec 12) (value : BitVec 64) (x : Grp) (s : State), (writeTaken s.dev master.toNat (0x0220000000 + 32 * g.toNat) 64 value.toNat ∧ groupCheck s.dev g.toNat value.toNat = (OK, x) ∧ s.dev.armedFirst 0x032 [0, 1] = none) → Runs (.groupEntryWrite master g true value) s (fun t => grp t.dev g.toNat = x ∧ t.dev.rd Reg.GRP_WRITE_STATUS = 2 ^ 31 + g.toNat * 2 ^ 12 ∧ t.mem = s.mem ∧ written s t master.toNat (0x0220000000 + 32 * g.toNat))) ∧
  (∀ (master : Byte) (g : BitVec 12) (value : BitVec 64) (x : Grp) (s : State), (writeTaken s.dev master.toNat (0x0220000000 + 32 * g.toNat + 4) 32 value.toNat ∧ SMap.get (fun _ => 0) s.dev.col.staged g.toNat ≠ 0 ∧ groupCheck s.dev g.toNat (value.toNat % 2 ^ 32 * 2 ^ 32 + (SMap.get (fun _ => 0) s.dev.col.staged g.toNat - 1)) = (OK, x) ∧ s.dev.armedFirst 0x032 [0, 1] = none) → Runs (.groupEntryWrite master g false value) s (fun t => grp t.dev g.toNat = x ∧ t.dev.rd Reg.GRP_WRITE_STATUS = 2 ^ 31 + g.toNat * 2 ^ 12 ∧ t.mem = s.mem ∧ written s t master.toNat (0x0220000000 + 32 * g.toNat + 4))) ∧
  (∀ (master : Byte) (i : BitVec 17) (value : Word) (s : State), (writeTaken s.dev master.toNat (0x0220020000 + 4 * i.toNat) 32 value.toNat ∧ poolBusy s.dev (2 * i.toNat) = false ∧ poolBusy s.dev (2 * i.toNat + 1) = false) → Runs (.memberPoolWrite master i value) s (fun t => poolEntry t.dev (2 * i.toNat) = bits value.toNat 14 0 ∧ poolEntry t.dev (2 * i.toNat + 1) = bits value.toNat 30 16 ∧ t.dev.col.groups = s.dev.col.groups ∧ written s t master.toNat (0x0220020000 + 4 * i.toNat))) ∧
  (∀ (master : Byte) (value : Word) (s : State), (writeTaken s.dev master.toNat (mAddr Reg.GRP_DISABLE) 32 value.toNat ∧ groupUsed s.dev (value.toNat % 4096) = false) → Runs (.grpDisable master value) s (fun t => (grp t.dev (value.toNat % 4096)).valid = false ∧ (grp t.dev (value.toNat % 4096)).nextSeq = (grp s.dev (value.toNat % 4096)).nextSeq ∧ t.dev.col.queue = s.dev.col.queue ∧ written s t master.toNat (mAddr Reg.GRP_DISABLE))) ∧
  (∀ (master : Byte) (hold : Bool) (s : State), (writeTaken s.dev master.toNat (mAddr (rkey 0x030 0x010)) 32 (1 + 2 * b2n hold)) → Runs (.colFlush master hold) s (fun t => t.dev.col.queue = [] ∧ t.dev.col.parts = [] ∧ (t.dev.rd (rkey 0x030 0x010)).testBit 1 = hold)) ∧
  (∀ (master : Byte) (hold : Bool) (s : State), (writeTaken s.dev master.toNat (mAddr (rkey 0x030 0x010)) 32 (2 * b2n hold)) → Runs (.colHold master hold) s (fun t => (t.dev.rd (rkey 0x030 0x010)).testBit 1 = hold ∧ t.dev.col = s.dev.col ∧ t.mem = s.mem ∧ written s t master.toNat (mAddr (rkey 0x030 0x010)))) ∧
  (∀ (master : Byte) (value : Word) (s : State), (writeTaken s.dev master.toNat (mAddr Reg.COL_TENANT) 32 value.toNat ∧ s.dev.col.queue = [] ∧ s.dev.col.parts = []) → Runs (.colTenantWrite master value) s (fun t => colUser t.dev = ⟨bits value.toNat 8 0, value.toNat.testBit 9, false, 9⟩ ∧ t.dev.col = s.dev.col ∧ t.mem = s.mem ∧ written s t master.toNat (mAddr Reg.COL_TENANT)))

/-- Chunks, credits, verdicts and aborts that arrive are taken. Each answers a next state: the one in which the participation it names has taken it (what it then holds is said) and has done all it can (colRun), other participations as before. An OPEN before the launch is held; an ABORT or a MISMATCH ends the participation and frees its entry; one that names no live participation is counted. -/
def Obligations.CollectiveChunksRun : Prop :=
  (∀ (p : Packet) (s : State), (s.dev.col.parts.any (fun x => x.job.group == colGroupOf p && x.cseq == colCseqOf p) = false ∧ (colCseqOf p + 2 ^ 16 - (grp s.dev (colGroupOf p)).nextSeq) % 2 ^ 16 < 2 ^ 15 ∧ badKind p = false ∧ p.tenant = (colUser s.dev).tenant ∧ p.system = (colUser s.dev).system ∧ (s.dev.col.held.filter (fun q => !(colGroupOf q == colGroupOf p && colCseqOf q == colCseqOf p && q.src == p.src))).length < 1024) → Runs (.openChunk (some p)) s (fun t => t.dev.col.held = s.dev.col.held.filter (fun q => !(colGroupOf q == colGroupOf p && colCseqOf q == colCseqOf p && q.src == p.src)) ++ [p] ∧ t.dev.col.parts = s.dev.col.parts ∧ t.mem = s.mem)) ∧
  (∀ (p : Packet) (x : ColPart) (a : Adv) (s : State), (colMatch s.dev p = some x ∧ badKind p = false ∧ readable s.dev x.entry ∧ a = (⟨s.dev, x, none⟩ : Adv).takeOpens (grp s.dev x.job.group) [p]) → Runs (.openChunk (some p)) s (fun t => a.x.opens.contains (field p.payload 8 2) = true ∧ (∃ c : Packet, a.d.rtr.offers = s.dev.rtr.offers ++ [c] ∧ colKindOf c = 4 ∧ c.dest = memberMa s.dev (grp s.dev x.job.group) (x.ctlMember (grp s.dev x.job.group) (field p.payload 8 2))) ∧ t = colRun { s with dev := a.d.setPart a.x } x.entry ∧ othersKept s t x.entry)) ∧
  (∀ (p : Packet) (s : State), (s.dev.col.parts.any (fun x => x.job.group == colGroupOf p && x.cseq == colCseqOf p) = false ∧ badKind p = false ∧ ¬ (colCseqOf p + 2 ^ 16 - (grp s.dev (colGroupOf p)).nextSeq) % 2 ^ 16 < 2 ^ 15 ∧ (SMap.get (fun _ => []) s.dev.col.opened (colGroupOf p * 2 ^ 16 + colCseqOf p)).contains (field p.payload 8 2) = true) → Runs (.openChunk (some p)) s (fun t => t.dev.rd Reg.COL_STALE_COUNT = min (s.dev.rd Reg.COL_STALE_COUNT + 1) 0xFFFFFFFF ∧ t.dev.col = s.dev.col ∧ t.mem = s.mem)) ∧
  (∀ (p : Packet) (x : ColPart) (a : Adv) (s : State), (colMatch s.dev p = some x ∧ badKind p = false ∧ readable s.dev x.entry ∧ bits (field p.payload 24 4) 31 24 = OK ∧ a = (⟨s.dev, x, none⟩ : Adv).verdict (grp s.dev x.job.group) OK (bits (field p.payload 24 4) 14 0)) → Runs (.verdictChunk (some p)) s (fun t => a.x.go = true ∧ (x.passed = false → a.x.passed = true) ∧ a.x.chunks = x.chunks ∧ t = colRun { s with dev := a.d.setPart a.x } x.entry ∧ othersKept s t x.entry)) ∧
  (∀ (p : Packet) (x : ColPart) (s : State), (colMatch s.dev p = some x ∧ badKind p = false ∧ readable s.dev x.entry ∧ bits (field p.payload 24 4) 31 24 = MISMATCH ∧ x.detail = none) → Runs (.verdictChunk (some p)) s (fun t => t.dev.col.parts = s.dev.col.parts.filter (fun y => y.entry != x.entry) ∧ optEntry t.dev x.entry = OptEntry.free ∧ t.dev.rd Reg.COL_MISMATCH_COUNT = satAdd 32 (s.dev.rd Reg.COL_MISMATCH_COUNT) 1)) ∧
  (∀ (p : Packet) (s : State), (colMatch s.dev p = none) → Runs (.verdictChunk (some p)) s (fun t => t.dev.rd Reg.COL_STALE_COUNT = min (s.dev.rd Reg.COL_STALE_COUNT + 1) 0xFFFFFFFF ∧ t.dev.col = s.dev.col ∧ t.mem = s.mem)) ∧
  (∀ (p : Packet) (x : ColPart) (s : State), (colMatch s.dev p = some x ∧ badKind p = false ∧ readable s.dev x.entry ∧ bits (field p.payload 24 4) 31 24 = TIMEOUT) → Runs (.abortChunk (some p)) s (fun t => t.dev.col.parts = s.dev.col.parts.filter (fun y => y.entry != x.entry) ∧ optEntry t.dev x.entry = OptEntry.free ∧ t.dev.rd Reg.COL_LAST_ABORT = TIMEOUT * 2 ^ 24 + x.job.group * 2 ^ 12)) ∧
  (∀ (p : Packet) (rot : Nat) (s : State), (colMatch s.dev p = none ∧ badKind p = false ∧ SMap.get (fun _ => 0) s.dev.col.ended (colGroupOf p * 2 ^ 16 + colCseqOf p) = rot + 1) → Runs (.abortChunk (some p)) s (fun t => t.dev.rtr.offers = s.dev.rtr.offers ++ (ctlNeighbours (grp s.dev (colGroupOf p)) rot (senderOf s.dev (grp s.dev (colGroupOf p)) p)).map (fun m => { p with dest := memberMa s.dev (grp s.dev (colGroupOf p)) m }) ∧ t.dev.rd Reg.COL_STALE_COUNT = min (s.dev.rd Reg.COL_STALE_COUNT + 1) 0xFFFFFFFF ∧ t.dev.col = s.dev.col ∧ t.mem = s.mem)) ∧
  (∀ (p : Packet) (x : ColPart) (s : State), (colMatch s.dev p = some x ∧ badKind p = false ∧ readable s.dev x.entry ∧ field p.payload 4 4 = 0xFFFFFFFF) → Runs (.creditChunk (some p)) s (fun t => t.dev = (s.dev.acknowledged (x.cseq % 256) x.openOut).setPart { x with answered := true, openOut := 0 } ∧ t.mem = s.mem)) ∧
  (∀ (p : Packet) (x : ColPart) (m : Nat) (s : State), (colMatch s.dev p = some x ∧ badKind p = false ∧ readable s.dev x.entry ∧ field p.payload 4 4 ≠ 0xFFFFFFFF ∧ senderOf s.dev (grp s.dev x.job.group) p = some m) → Runs (.creditChunk (some p)) s (fun t => t = colRun { s with dev := s.dev.setPart (x.takeCredit (grp s.dev x.job.group) m (field p.payload 24 4) (field p.payload 28 4) (field p.payload 8 2 == field p.payload 10 2 && x.job.up)) } x.entry ∧ othersKept s t x.entry)) ∧
  (∀ (p : Packet) (x : ColPart) (m lo q : Nat) (r : ColRx) (s : State), (colMatch s.dev p = some x ∧ badKind p = false ∧ readable s.dev x.entry ∧ senderOf s.dev (grp s.dev x.job.group) p = some m ∧ lo = field p.payload 8 2 ∧ x.job.up = true ∧ field p.payload 4 4 < x.job.nch ∧ (x.chunk q).ended = false ∧ field p.payload 10 2 ≠ lo ∧ q = field p.payload 4 4 * x.job.trees (grp s.dev x.job.group).count + treeOf x (grp s.dev x.job.group) m lo ∧ (x.chunk q).granted.contains lo = true ∧ ((x.chunk q).granted.take (x.chunk q).got).contains lo = false ∧ SMap.get (fun _ => none) (x.chunk q).parts lo = none ∧ r = (SMap.get (fun _ => (⟨[], 0, 0⟩ : ColRx)) (x.chunk q).rx lo).take p ∧ r.pkts.length < r.need) → Runs (.dataChunk (some p)) s (fun t => t.dev = s.dev.setPart (x.setChunk q { x.chunk q with rx := SMap.put (fun _ => ⟨[], 0, 0⟩) (x.chunk q).rx lo r }) ∧ t.mem = s.mem)) ∧
  (∀ (p : Packet) (x z : ColPart) (m lo q : Nat) (r : ColRx) (s : State), (colMatch s.dev p = some x ∧ badKind p = false ∧ readable s.dev x.entry ∧ senderOf s.dev (grp s.dev x.job.group) p = some m ∧ lo = field p.payload 8 2 ∧ x.job.up = true ∧ field p.payload 4 4 < x.job.nch ∧ (x.chunk q).ended = false ∧ field p.payload 10 2 ≠ lo ∧ q = field p.payload 4 4 * x.job.trees (grp s.dev x.job.group).count + treeOf x (grp s.dev x.job.group) m lo ∧ (x.chunk q).granted.contains lo = true ∧ ((x.chunk q).granted.take (x.chunk q).got).contains lo = false ∧ SMap.get (fun _ => none) (x.chunk q).parts lo = none ∧ r = (SMap.get (fun _ => (⟨[], 0, 0⟩ : ColRx)) (x.chunk q).rx lo).take p ∧ r.need ≤ r.pkts.length ∧ crc64 (r.pkts.map (·.2)).flatten = r.crc ∧ s.dev.armed 0x030 2 = false ∧ z = x.setChunk q { x.chunk q with rx := SMap.put (fun _ => ⟨[], 0, 0⟩) (x.chunk q).rx lo ⟨[], 0, 0⟩ }) → Runs (.dataChunk (some p)) s (fun t => t = colRun { s with dev := s.dev.setPart (z.setChunk q { z.chunk q with parts := SMap.put (fun _ => none) (z.chunk q).parts lo (some (r.pkts.map (·.2)).flatten) }) } x.entry ∧ othersKept s t x.entry)) ∧
  (∀ (p : Packet) (x z : ColPart) (m lo q : Nat) (r : ColRx) (s : State), (colMatch s.dev p = some x ∧ badKind p = false ∧ readable s.dev x.entry ∧ senderOf s.dev (grp s.dev x.job.group) p = some m ∧ lo = field p.payload 8 2 ∧ x.job.up = true ∧ field p.payload 4 4 < x.job.nch ∧ (x.chunk q).ended = false ∧ field p.payload 10 2 = lo ∧ q = field p.payload 4 4 * x.job.trees (grp s.dev x.job.group).count + lentTree x (grp s.dev x.job.group) (grp s.dev x.job.group).self lo ∧ x.lends (grp s.dev x.job.group) q = true ∧ (x.chunk q).inAsked = true ∧ (x.chunk q).data = none ∧ (x.chunk q).sent = false ∧ (x.chunk q).closed = false ∧ m = lo ∧ lo = logicalOf (grp s.dev x.job.group) (x.rotOf (grp s.dev x.job.group) q) (grp s.dev x.job.group).self ∧ r = (SMap.get (fun _ => (⟨[], 0, 0⟩ : ColRx)) (x.chunk q).rx lo).take p ∧ r.need ≤ r.pkts.length ∧ crc64 (r.pkts.map (·.2)).flatten = r.crc ∧ s.dev.armed 0x030 2 = false ∧ z = x.setChunk q { x.chunk q with rx := SMap.put (fun _ => ⟨[], 0, 0⟩) (x.chunk q).rx lo ⟨[], 0, 0⟩ }) → Runs (.dataChunk (some p)) s (fun t => t = colRun { s with dev := s.dev.setPart (z.setChunk q { z.chunk q with data := some (r.pkts.map (·.2)).flatten }) } x.entry ∧ othersKept s t x.entry)) ∧
  (∀ (p : Packet) (x z : ColPart) (a : Adv) (q : Nat) (r : ColRx) (s : State), (colMatch s.dev p = some x ∧ badKind p = false ∧ readable s.dev x.entry ∧ windowCheck s.dev p.window p.tenant p.system 117 p.offset p.length = OK ∧ a = (if x.go then ⟨s.dev, x, none⟩ else (⟨s.dev, x, none⟩ : Adv).verdict (grp s.dev x.job.group) OK 0) ∧ q = (if x.job.coll = 6 then x.total (grp s.dev x.job.group) + field p.payload 4 4 * (grp s.dev x.job.group).count + field p.payload 8 2 % (grp s.dev x.job.group).count else field p.payload 4 4 * x.job.trees (grp s.dev x.job.group).count + treeOf x (grp s.dev x.job.group) (grp s.dev x.job.group).self (field p.payload 8 2)) ∧ field p.payload 4 4 < x.job.nch ∧ (x.chunk q).ended = false ∧ (x.chunk q).final = false ∧ (x.chunk q).asked = true ∧ r = (SMap.get (fun _ => (⟨[], 0, 0⟩ : ColRx)) (x.chunk q).rx 0xFFFF).take p ∧ r.need ≤ r.pkts.length ∧ crc64 (r.pkts.map (·.2)).flatten = r.crc ∧ s.dev.armed 0x030 2 = false ∧ z = a.x.setChunk q { x.chunk q with rx := SMap.put (fun _ => ⟨[], 0, 0⟩) (x.chunk q).rx 0xFFFF ⟨[], 0, 0⟩ }) → Runs (.resultChunk (some p)) s (fun t => a.x.go = true ∧ t = colRun { s with dev := (a.d.setPart a.x).setPart (z.setChunk q { z.chunk q with data := some (r.pkts.map (·.2)).flatten, final := true }) } x.entry ∧ othersKept s t x.entry)) ∧
  (∀ (p : Packet) (x : ColPart) (st : Nat) (s : State), (colMatch s.dev p = some x ∧ badKind p = false ∧ readable s.dev x.entry ∧ windowCheck s.dev p.window p.tenant p.system 117 p.offset p.length = st ∧ st ≠ OK) → Runs (.resultChunk (some p)) s (fun t => t.dev.col.parts = s.dev.col.parts.filter (fun y => y.entry != x.entry) ∧ optEntry t.dev x.entry = OptEntry.free ∧ t.dev.rd Reg.COL_LAST_ABORT = st * 2 ^ 24 + x.job.group * 2 ^ 12))

/-- Memory, the array and the timers act on a participation. Each answers a next state. An OPEN is sent again; an input read, a result written and a block of the array go to the participation, which has then done all it can (colRun), other participations as before; a timeout and a notice of the array end the participation, free its entry and leave their cause. -/
def Obligations.CollectiveEventsRun : Prop :=
  (∀ (i : BitVec 12) (x : ColPart) (s : State), (partAt s.dev i.toNat = some x ∧ x.opened = true ∧ x.answered = false ∧ x.ctl (grp s.dev x.job.group) ≠ 0) → Runs (.colOpenResend i) s (fun t => t.mem = s.mem ∧ ∃ p : Packet, t.dev.rtr.offers = s.dev.rtr.offers ++ [p] ∧ p.ptype = ptContrib ∧ colKindOf p = 1 ∧ colGroupOf p = x.job.group ∧ p.dest = memberMa s.dev (grp s.dev x.job.group) (x.ctlMember (grp s.dev x.job.group) (treeParent (x.ctl (grp s.dev x.job.group)))))) ∧
  (∀ (i : BitVec 12) (x : ColPart) (q a n : Nat) (s : State), (partAt s.dev i.toNat = some x ∧ x.job.array = false ∧ ((x.job.coll ≠ 2 ∧ x.job.coll ≠ 6) ∨ x.job.count * colBits x.job.ty % 8 = 0) ∧ x.lowest (x.awaitsInput (grp s.dev x.job.group)) = some q ∧ a = x.inputAt (grp s.dev x.job.group) q ∧ n = x.job.chunkLen (x.cno (grp s.dev x.job.group) q) ∧ gdSound s.dev (colUser s.dev) a n) → Runs (.colInputReadDone i) s (fun t => t = colRun (s.onDev (fun d => d.setPart (x.putInput (grp s.dev x.job.group) q (s.mem.bytes a n)))) i.toNat ∧ othersKept s t i.toNat)) ∧
  (∀ (i : BitVec 12) (x : ColPart) (q off : Nat) (data : List Byte) (s : State), (partAt s.dev i.toNat = some x ∧ x.lowest (fun _ c => c.wrote == 1) = some q ∧ (x.chunk q).data = some data ∧ data ≠ [] ∧ off = x.job.resOff (x.tree (grp s.dev x.job.group) q) (x.cno (grp s.dev x.job.group) q) ∧ s.dev.armedFirst 0x031 [0, 1] = none ∧ windowCheck s.dev x.job.rwin (colUser s.dev).tenant (colUser s.dev).system 117 off data.length = OK ∧ gdSound s.dev (windowUser s.dev 9 x.job.rwin) (windowAddr s.dev x.job.rwin off) data.length) → Runs (.colResultWriteAck i) s (fun t => t = colRun { s with mem := s.mem.store (windowAddr s.dev x.job.rwin off) data, dev := s.dev.setPart (x.setChunk q { x.chunk q with wrote := 2 }) } i.toNat ∧ othersKept s t i.toNat)) ∧
  (∀ (i : BitVec 12) (x : ColPart) (s : State), (partAt s.dev i.toNat = some x ∧ x.go = false) → Runs (.colJoinTimeout i) s (fun t => t.dev.col.parts = s.dev.col.parts.filter (fun y => y.entry != x.entry) ∧ optEntry t.dev x.entry = OptEntry.free ∧ t.dev.rd Reg.COL_LAST_ABORT = TIMEOUT * 2 ^ 24 + x.job.group * 2 ^ 12)) ∧
  (∀ (i : BitVec 12) (x : ColPart) (m : Nat) (s : State), (partAt s.dev i.toNat = some x ∧ x.go = true ∧ (if (optEntry s.dev i.toNat).bad then some (grp s.dev x.job.group).self else x.chunks.findSome? (fun e => x.awaited (grp s.dev x.job.group) e.1)) = some m) → Runs (.colProgressTimeout i) s (fun t => t.dev.col.parts = s.dev.col.parts.filter (fun y => y.entry != x.entry) ∧ optEntry t.dev x.entry = OptEntry.free ∧ t.dev.rd Reg.COL_LAST_ABORT = TIMEOUT * 2 ^ 24 + x.job.group * 2 ^ 12)) ∧
  (∀ (e : ArrExec) (w : ArrOut) (rs : List (Nat × List Nat)) (x y : ColPart) (s : State), (s.dev.arr.exec = some e ∧ e.unacked.find? (fun w => match w.what with | .collective _ => true | _ => false) = some w ∧ w.what = .collective rs ∧ (liveEntry s.dev (bits (dw e.op.words 9) 15 0)).bind (partAt s.dev) = some x ∧ e.op.d.oscaled = false ∧ (runElems rs).any (fun p => decide (x.arrayElems (grp s.dev x.job.group) ≤ p.1)) = false ∧ y = { x with asm := (runElems rs).foldl (fun m (p : Nat × Nat) => SMap.put (fun _ => 0) m p.1 (p.2 + 1)) x.asm, handed := x.handed + ((runElems rs).filter (fun p => SMap.get (fun _ => 0) x.asm p.1 == 0)).length }) → Runs .arrayHandover s (fun t => t = colRun (s.onDev (fun d => (d.setPart (y.assemble (grp s.dev x.job.group) (upFrom 0 (y.total (grp s.dev x.job.group))))).arrAck w.n OK)) x.entry ∧ othersKept s t x.entry)) ∧
  (∀ (opid st : Nat) (rest : List (Nat × Nat)) (x : ColPart) (s : State), (s.dev.arr.notices = (opid, st) :: rest ∧ (liveEntry s.dev opid).bind (partAt s.dev) = some x ∧ st ≠ OK ∧ st ≠ MISMATCH ∧ st ≠ COL_INVALID ∧ st < 256) → Runs .abandonmentNotice s (fun t => t.dev.arr.notices = rest ∧ t.dev.col.parts = s.dev.col.parts.filter (fun y => y.entry != x.entry) ∧ t.dev.rd Reg.COL_LAST_ABORT = st * 2 ^ 24 + x.job.group * 2 ^ 12))

/-- Mailboxes take posts, give messages, and latch. A post enters the FIFO; a read of RX takes the oldest message and DATA reads its words; the latch goes to one reader; RELEASE and the timeout free it; RESET empties the mailbox. -/
def Obligations.MailboxRuns : Prop :=
  (∀ (p : Packet) (s : State), (p.system = true ∧ bits p.offset 47 14 = 0 ∧ p.window < 64 ∧ (mbxCfg s.dev p.window).testBit 31 = true ∧ (mbxCfg s.dev p.window).testBit 30 = true ∧ (mbxCfg s.dev p.window).testBit 9 = true ∧ p.payload ≠ [] ∧ (s.dev.mbox p.window).fifo.length < 16) → Runs (.mbxPostPacket (some p)) s (fun t => (t.dev.mbox p.window).fifo = (s.dev.mbox p.window).fifo ++ [⟨p.payload, true, true, p.src, true, p.tenant, bits p.offset 7 0⟩] ∧ (p.offset.testBit 13 = true → (t.dev.rd (mbxKey Reg.MBXM_DB p.window)).testBit (bits p.offset 12 8) = true) ∧ t.mem = s.mem)) ∧
  (∀ (master : Byte) (value : Word) (s : State), (writeTaken s.dev master.toNat (mAddr Reg.MBX_TX_POST) 32 value.toNat ∧ quiet s.dev ∧ mbxSender master.toNat = true ∧ 0 < bits value.toNat 8 0 ∧ bits value.toNat 8 0 ≤ 256 ∧ (s.dev.rd (bankKey master.toNat Reg.MBX_TX_REMOTE)).testBit 31 = false ∧ (s.dev.rd (bankKey master.toNat Reg.MBX_TX_STATUS)).testBit 30 = false ∧ (mbxCfg s.dev (bits value.toNat 29 24)).testBit 31 = true ∧ (s.dev.mbox (bits value.toNat 29 24)).fifo.length < 16) → Runs (.mbxTxPost master value) s (fun t => (t.dev.mbox (bits value.toNat 29 24)).fifo = (s.dev.mbox (bits value.toNat 29 24)).fifo ++ [⟨mbxCompose s.dev master.toNat (bits value.toNat 8 0), false, true, master.toNat, true, 0, mbxEpoch s.dev master.toNat⟩] ∧ bits (t.dev.rd (bankKey master.toNat Reg.MBX_TX_STATUS)) 7 0 = OK ∧ t.mem = s.mem)) ∧
  (∀ (master : Byte) (value : Word) (s : State), (writeTaken s.dev master.toNat (mAddr Reg.MBX_TX_POST) 32 value.toNat ∧ quiet s.dev ∧ mbxSender master.toNat = true ∧ bits value.toNat 8 0 ≤ 224 ∧ (s.dev.rd (bankKey master.toNat Reg.MBX_TX_REMOTE)).testBit 31 = true ∧ (s.dev.rd (bankKey master.toNat Reg.MBX_TX_STATUS)).testBit 30 = false) → Runs (.mbxTxPost master value) s (fun t => (t.dev.rd (bankKey master.toNat Reg.MBX_TX_STATUS)).testBit 30 = true ∧ t.dev.mbx.box = s.dev.mbx.box ∧ t.mem = s.mem ∧ ∃ o, SMap.get (fun _ => none) t.dev.mbx.remote master.toNat = some o ∧ o.pkt.payload = mbxCompose s.dev master.toNat (bits value.toNat 8 0) ∧ o.pkt.dest = bits (s.dev.rd (bankKey master.toNat Reg.MBX_TX_REMOTE)) 14 0 ∧ o.pkt.window = bits value.toNat 29 24)) ∧
  (∀ (master : Byte) (o : MbxOut) (i : Nat) (d : Dev) (s : State), (SMap.get (fun _ => none) s.dev.mbx.remote master.toNat = some o ∧ o.entry = none ∧ s.dev.optTake 3 (2 + master.toNat) o.pkt.dest o.pkt.channel 1 0 2 = some (i, d)) → Runs (.mbxPostEntryTaken master) s (fun t => SMap.get (fun _ => none) t.dev.mbx.remote master.toNat = some { o with entry := some i } ∧ t.dev.rtr.offers = s.dev.rtr.offers ++ [{ o.pkt with opid := opidOf d i }] ∧ t.mem = s.mem)) ∧
  (∀ (master : Byte) (m : Fin 64) (x : MbxMsg) (rest : List MbxMsg) (s : State), (readTaken s.dev master.toNat (mAddr (mbxKey Reg.MBXM_RX m.val)) 32 ∧ quiet s.dev ∧ mbxReader master.toNat = true ∧ mbxLatched s.dev master.toNat m.val = false ∧ latchMasked s.dev m.val master.toNat = none ∧ (s.dev.mbox m.val).fifo = x :: rest ∧ (s.dev.mbox m.val).waits = []) → Runs (.mbxRx master m) s (fun t => (t.dev.mbox m.val).fifo = rest ∧ (t.dev.mbox m.val).cur = some x ∧ (t.dev.mbox m.val).cursor = 0 ∧ t.dev.out = s.dev.out ++ [.access master.toNat (mAddr (mbxKey Reg.MBXM_RX m.val)) OK x.rx] ∧ t.mem = s.mem)) ∧
  (∀ (master : Byte) (m : Fin 64) (s : State), (readTaken s.dev master.toNat (mAddr (mbxKey Reg.MBXM_RX m.val)) 32 ∧ quiet s.dev ∧ mbxReader master.toNat = true ∧ mbxLatched s.dev master.toNat m.val = false ∧ latchMasked s.dev m.val master.toNat = none ∧ (s.dev.mbox m.val).fifo = []) → Runs (.mbxRx master m) s (fun t => (t.dev.mbox m.val).cur = none ∧ t.dev.out = s.dev.out ++ [.access master.toNat (mAddr (mbxKey Reg.MBXM_RX m.val)) OK 0] ∧ t.mem = s.mem)) ∧
  (∀ (master : Byte) (m : Fin 64) (x : MbxMsg) (s : State), (readTaken s.dev master.toNat (mAddr (mbxKey Reg.MBXM_DATA m.val)) 32 ∧ quiet s.dev ∧ mbxReader master.toNat = true ∧ mbxLatched s.dev master.toNat m.val = false ∧ latchMasked s.dev m.val master.toNat = none ∧ (s.dev.mbox m.val).cur = some x ∧ (s.dev.mbox m.val).cursor < 64 ∧ (s.dev.mbox m.val).bad = false ∧ s.dev.armedFirst 0x050 [0, 1] = none) → Runs (.mbxData master ⟨m, .clean⟩) s (fun t => (t.dev.mbox m.val).cursor = (s.dev.mbox m.val).cursor + 1 ∧ (t.dev.mbox m.val).cur = some x ∧ t.dev.out = s.dev.out ++ [.access master.toNat (mAddr (mbxKey Reg.MBXM_DATA m.val)) OK (field x.data (4 * (s.dev.mbox m.val).cursor) 4)] ∧ t.mem = s.mem)) ∧
  (∀ (m : Fin 64) (readers : List Byte) (w : Nat) (s : State), ((s.dev.mbox m.val).holder = 0 ∧ (∀ r ∈ readers, readTaken s.dev r.toNat (mAddr (mbxKey Reg.MBXM_LATCH m.val)) 32) ∧ latchOrder (s.dev.mbox m.val).ptr ((readers.map (·.toNat)).filter (fun r => mbxReader r && r != 1 && (latchMasked s.dev m.val r).isNone)) = some w) → Runs (.mbxLatch m readers) s (fun t => (t.dev.mbox m.val).holder = w ∧ (t.dev.mbox m.val).fifo = (s.dev.mbox m.val).fifo ∧ t.mem = s.mem)) ∧
  (∀ (master : Byte) (m : Fin 64) (s : State), (writeTaken s.dev master.toNat (mAddr (mbxKey Reg.MBXM_CFG m.val)) 32 (setBit (mbxCfg s.dev m.val) 28) ∧ quiet s.dev ∧ (mbxCfg s.dev m.val).testBit 29 = false ∧ (mbxLatched s.dev master.toNat m.val = false ∧ latchMasked s.dev m.val master.toNat = none ∨ master = 1)) → Runs (.latchRelease master m) s (fun t => (t.dev.mbox m.val).holder = 0 ∧ (t.dev.mbox m.val).fifo = (s.dev.mbox m.val).fifo ∧ (∀ k, k ≠ m.val → t.dev.mbox k = s.dev.mbox k) ∧ t.mem = s.mem)) ∧
  (∀ (master : Byte) (m : Fin 64) (s : State), (writeTaken s.dev master.toNat (mAddr (mbxKey Reg.MBXM_CFG m.val)) 32 (setBit (mbxCfg s.dev m.val) 29) ∧ quiet s.dev ∧ (mbxLatched s.dev master.toNat m.val = false ∧ latchMasked s.dev m.val master.toNat = none ∨ master = 1)) → Runs (.receiverReset master m) s (fun t => (t.dev.mbox m.val).fifo = [] ∧ (t.dev.mbox m.val).cur = none ∧ (t.dev.mbox m.val).holder = 0 ∧ (t.dev.mbox m.val).waits = [] ∧ t.dev.rd (mbxKey Reg.MBXM_DB m.val) = 0 ∧ (mbxCfg t.dev m.val).testBit 31 = false ∧ t.mem = s.mem)) ∧
  (∀ (m : Fin 64) (s : State), ((s.dev.mbox m.val).holder ≠ 0 ∧ s.dev.domainOn 0x050 = true) → Runs (.mbxLatchTimeout m) s (fun t => (t.dev.mbox m.val).holder = 0 ∧ (t.dev.mbox m.val).fifo = (s.dev.mbox m.val).fifo ∧ t.dev.rd Reg.MBX_LATCH_EXPIRED_COUNT = satAdd 32 (s.dev.rd Reg.MBX_LATCH_EXPIRED_COUNT) 1 ∧ t.dev.err 0x050 2 = true ∧ t.mem = s.mem))

/-- The collector takes events and drives ERR_N. A masked event counts and reacts to nothing; an unmasked one with reaction INTERRUPT sets the source's TOC_PENDING bit; equal rails put a source into the rail state; configuration bytes are written; the holds of ERR_N end. -/
def Obligations.TocsinRuns : Prop :=
  (∀ (b : BitVec 12) (n : Fin 32) (src p : Nat) (s : State), (sourceOf b.toNat n.val = some src ∧ SMap.get (fun _ => 0) s.dev.toc.pend (b.toNat * 32 + n.val) = p + 1 ∧ s.dev.domainOn b.toNat = true ∧ (tocSrc s.dev src).st ≠ .rail ∧ (s.dev.rd (rkey b.toNat 0x024)).testBit n.val = true) → Runs (.tocsinEvent b n) s (fun t => SMap.get (fun _ => 0) t.dev.toc.pend (b.toNat * 32 + n.val) = p ∧ (tocSrc t.dev src).count = min 255 ((tocSrc s.dev src).count + 1) ∧ (tocSrc t.dev src).st = (tocSrc s.dev src).st ∧ t.dev.recd = s.dev.recd ∧ t.mem = s.mem)) ∧
  (∀ (b : BitVec 12) (n : Fin 32) (src p : Nat) (s : State), (sourceOf b.toNat n.val = some src ∧ SMap.get (fun _ => 0) s.dev.toc.pend (b.toNat * 32 + n.val) = p + 1 ∧ s.dev.domainOn b.toNat = true ∧ (tocSrc s.dev src).st ≠ .rail ∧ (tocSrc s.dev src).st ≠ .severe ∧ (s.dev.rd (rkey b.toNat 0x024)).testBit n.val = false ∧ clearingRuns s.dev src = false ∧ s.dev.toc.cfgBad.contains src = false ∧ s.dev.armed 0x060 1 = false ∧ bits (cfgByte s.dev src) 2 0 = 1 ∧ (windowNext s.dev src (tocSrc s.dev src).win).1 < (windowNext s.dev src (tocSrc s.dev src).win).2.1) → Runs (.tocsinEvent b n) s (fun t => SMap.get (fun _ => 0) t.dev.toc.pend (b.toNat * 32 + n.val) = p ∧ (t.dev.rd (Reg.TOC_PENDING + 4 * (src / 32))).testBit (src % 32) = true ∧ (tocSrc t.dev src).st = (tocSrc s.dev src).st ∧ (tocSrc t.dev src).win = some (windowNext s.dev src (tocSrc s.dev src).win) ∧ t.mem = s.mem)) ∧
  (∀ (src : Fin 1024) (s : State), (sourceKnown src.val = true ∧ (tocSrc s.dev src.val).st ≠ .rail ∧ s.dev.domainOn (sourcePage src.val).1 = true ∧ s.dev.domainOn 0x060 = true ∧ s.dev.toc.cfgBad.contains src.val = false ∧ s.dev.armed 0x060 1 = false ∧ bits (cfgByte s.dev src.val) 6 4 = 1) → Runs (.railEqual src) s (fun t => (tocSrc t.dev src.val).st = .rail ∧ (t.dev.rd (Reg.TOC_PENDING + 4 * (src.val / 32))).testBit (src.val % 32) = true ∧ t.dev.err 0x060 0 = true ∧ t.mem = s.mem)) ∧
  (∀ (src : Fin 1024) (s : State), Runs (.severityWindowEnd src) s (fun t => (tocSrc t.dev src.val).win = none ∧ (tocSrc t.dev src.val).st = (tocSrc s.dev src.val).st ∧ (tocSrc t.dev src.val).count = (tocSrc s.dev src.val).count ∧ t.mem = s.mem)) ∧
  (∀ (master i : Byte) (value : Word) (s : State), (writeTaken s.dev master.toNat (mAddr (Reg.TOC_SRC_CFG + 4 * i.toNat)) 32 value.toNat ∧ (∀ k, k < 4 → cfgOk (4 * i.toNat + k) (bits value.toNat (8 * k + 7) (8 * k)) = true)) → Runs (.tocSrcCfgWrite master i value) s (fun t => (∀ k, k < 4 → sourceKnown (4 * i.toNat + k) = true → cfgByte t.dev (4 * i.toNat + k) = bits value.toNat (8 * k + 7) (8 * k) &&& 0x77) ∧ t.mem = s.mem ∧ written s t master.toNat (mAddr (Reg.TOC_SRC_CFG + 4 * i.toNat)))) ∧
  (∀ (master : Byte) (hold : Bool) (s : State), (writeTaken s.dev master.toNat (mAddr Reg.TOC_ERRN) 32 (1 + b2n hold * 2 ^ 16)) → Runs (.tocErrnRelease master hold) s (fun t => (t.dev.rd Reg.TOC_ERRN).testBit 29 = false ∧ (t.dev.rd Reg.TOC_ERRN).testBit 16 = hold ∧ t.dev.toc = s.dev.toc ∧ t.mem = s.mem ∧ written s t master.toNat (mAddr Reg.TOC_ERRN))) ∧
  (∀ (hold : Bool) (s : State), (s.dev.toc.pulse = some hold) → Runs .errnPulseEnd s (fun t => t.dev.toc.pulse = none ∧ errnDriving t.dev = (hold || (s.dev.rd Reg.TOC_ERRN).testBit 29) ∧ t.mem = s.mem)) ∧
  (∀ (master : Byte) (value : Word) (s : State), (writeTaken s.dev master.toNat (mAddr Reg.TOC_RAILTEST) 32 value.toNat ∧ value.toNat.testBit 31 = true ∧ sourceKnown (bits value.toNat 9 0) = true ∧ (tocSrc s.dev (bits value.toNat 9 0)).st ≠ .rail ∧ s.dev.domainOn (sourcePage (bits value.toNat 9 0)).1 = true ∧ s.dev.domainOn 0x060 = true ∧ s.dev.toc.cfgBad.contains (bits value.toNat 9 0) = false ∧ s.dev.armed 0x060 1 = false ∧ bits (cfgByte s.dev (bits value.toNat 9 0)) 6 4 = 1) → Runs (.tocRailtest master value) s (fun t => (tocSrc t.dev (bits value.toNat 9 0)).st = .rail ∧ (t.dev.rd (Reg.TOC_PENDING + 4 * (bits value.toNat 9 0 / 32))).testBit (bits value.toNat 9 0 % 32) = true ∧ t.dev.err 0x060 0 = true ∧ t.mem = s.mem)) ∧
  (∀ (master : Byte) (value : Word) (s : State), (writeTaken s.dev master.toNat (mAddr Reg.BEL_ALIVE) 32 value.toNat ∧ s.dev.bel.active.map coreMaster = some master.toNat) → Runs (.belAlive master value) s (fun t => t.dev.bel.silent = 0 ∧ switching t.dev = false ∧ (switching s.dev = true → t.dev.toc.traps = []) ∧ t.mem = s.mem))

/-- The recorder seals, freezes, reads and clears. The record at the queue's head is written and sealed; software appends; a freeze takes effect once its record is sealed, and ends by command or by its limit; READ, TAIL and STATE answer; a clear empties the permanent area. -/
def Obligations.RecorderRuns : Prop :=
  (∀ (b : RecBody) (rest : List RecBody) (s : State), (s.dev.recd.queue = b :: rest ∧ s.dev.recd.held = [] ∧ s.dev.recd.frozen = false ∧ s.dev.recd.ready = true ∧ clearAtHead s.dev = false ∧ (rest ≠ [] ∨ s.dev.rd Reg.REC_LOST_PENDING = 0)) → Runs .recordSealed s (fun t => t.dev.recd.queue = rest ∧ (recSlot t.dev 1 s.dev.recd.head).body = { b with perm := (permFree s.dev).isSome } ∧ (recSlot t.dev 1 s.dev.recd.head).sealWord = RecBody.sealOf { b with perm := (permFree s.dev).isSome } ∧ (recSlot t.dev 1 s.dev.recd.head).ue = false ∧ t.dev.recd.head = (s.dev.recd.head + 1) % 8192 ∧ (∀ n, permFree s.dev = some n → recSlot t.dev 0 n = recSlot t.dev 1 s.dev.recd.head) ∧ t.mem = s.mem)) ∧
  (∀ (master : Byte) (value : Word) (s : State), (writeTaken s.dev master.toNat (mAddr Reg.REC_SW_APPEND) 32 value.toNat ∧ ((master = 2 ∨ master = 3) ∧ 0x80 ≤ bits value.toNat 7 0 ∨ master = 1 ∧ 0x10 ≤ bits value.toNat 7 0 ∧ bits value.toNat 7 0 ≤ 0x16) ∧ s.dev.recd.queue.length < 48 ∧ s.dev.recd.held = [] ∧ s.dev.recd.stopped = false ∧ s.dev.recd.flushing = false) → Runs (.recSwAppend master value) s (fun t => t.dev.recd.queue = s.dev.recd.queue ++ [s.dev.recordBody (bits value.toNat 7 0) (if master = 1 then 1 else 2) (field (swData s.dev master.toNat) 0 2) ((swData s.dev master.toNat).drop 2)] ∧ t.dev.recd.nextNum = s.dev.recd.nextNum + 1 ∧ t.mem = s.mem ∧ written s t master.toNat (mAddr Reg.REC_SW_APPEND))) ∧
  (∀ (master : Byte) (s : State), (writeTaken s.dev master.toNat (mAddr (rkey 0x061 0x010)) 32 1 ∧ s.dev.recd.frozen = false ∧ s.dev.recd.freezeAt = none ∧ s.dev.recd.stopped = false ∧ s.dev.recd.flushing = false) → Runs (.recFreezeWrite master true) s (fun t => t.dev.recd.freezeAt = some s.dev.recd.nextNum ∧ t.dev.recd.nextNum = s.dev.recd.nextNum + 1 ∧ t.dev.rd (rkey 0x061 0x010) = 1 ∧ t.mem = s.mem ∧ written s t master.toNat (mAddr (rkey 0x061 0x010)))) ∧
  (∀ (master : Byte) (s : State), (writeTaken s.dev master.toNat (mAddr (rkey 0x061 0x010)) 32 0 ∧ (s.dev.recd.frozen = true ∨ s.dev.recd.freezeAt.isSome = true)) → Runs (.recFreezeWrite master false) s (fun t => t.dev.recd.frozen = false ∧ t.dev.recd.freezeAt = none ∧ t.dev.rd (rkey 0x061 0x010) = 0 ∧ t.mem = s.mem ∧ written s t master.toNat (mAddr (rkey 0x061 0x010)))) ∧
  (∀ (m : TMsg) (s : State), (served s.dev m famRec 3 ∧ recCheck s.dev (reqOf m famRec 3) true = OK ∧ m.body.length = 4 ∧ field m.body 0 1 = 1 ∧ field m.body 1 3 = 0 ∧ s.dev.recd.frozen = false ∧ s.dev.recd.freezeAt = none ∧ s.dev.recd.stopped = false ∧ s.dev.recd.flushing = false) → Runs (.tostoRecFreeze (some m)) s (fun t => t.dev = (s.dev.recFreeze (reqMaster s.dev (reqOf m famRec 3))).reply (reqOf m famRec 3) OK [] ∧ t.dev.recd.freezeAt = some s.dev.recd.nextNum ∧ t.mem = s.mem)) ∧
  (∀ (s : State), (s.dev.recd.frozen = true) → Runs .recFreezeLimit s (fun t => t.dev.recd.frozen = false ∧ t.dev.recd.freezeAt = none ∧ t.dev.rd (rkey 0x061 0x010) = 0 ∧ t.mem = s.mem)) ∧
  (∀ (m : TMsg) (area slot n : Nat) (s : State), (served s.dev m famRec 1 ∧ recCheck s.dev (reqOf m famRec 1) false = OK ∧ m.body.length = 8 ∧ field m.body 0 1 = area ∧ field m.body 2 2 = slot ∧ field m.body 4 1 = n ∧ field m.body 1 1 = 0 ∧ field m.body 5 3 = 0 ∧ area ≤ 1 ∧ slot < (if area = 0 then permSlots else circSlots) ∧ (area = 0 → slot + n ≤ permSlots) ∧ n ≤ recLimit (reqOf m famRec 1)) → Runs (.recRead (some m)) s (fun t => t.dev = (s.dev.readSlots area (readRange area slot n)).2.reply (reqOf m famRec 1) OK (recReply (readRange area slot n).length slot (s.dev.readSlots area (readRange area slot n)).1) ∧ t.dev.recd = s.dev.recd ∧ t.mem = s.mem)) ∧
  (∀ (m : TMsg) (s : State), (served s.dev m famRec 1 ∧ recCheck s.dev (reqOf m famRec 1) false = OK ∧ field m.body 0 1 = 0 ∧ permSlots < field m.body 2 2 + field m.body 4 1) → Runs (.recRead (some m)) s (fun t => t.dev = s.dev.reply (reqOf m famRec 1) BAD_MESSAGE [] ∧ t.mem = s.mem)) ∧
  (∀ (m : TMsg) (n : Nat) (s : State), (served s.dev m famRec 2 ∧ recCheck s.dev (reqOf m famRec 2) false = OK ∧ m.body.length = 4 ∧ field m.body 0 1 = n ∧ field m.body 1 3 = 0 ∧ n ≤ recLimit (reqOf m famRec 2)) → Runs (.recTailRead (some m)) s (fun t => t.dev = (s.dev.readSlots 1 (tailSlots s.dev n (2 ^ 48) [])).2.reply (reqOf m famRec 2) OK (recReply (tailSlots s.dev n (2 ^ 48) []).length ((tailSlots s.dev n (2 ^ 48) []).head?.getD 0) (s.dev.readSlots 1 (tailSlots s.dev n (2 ^ 48) [])).1) ∧ t.mem = s.mem)) ∧
  (∀ (m : TMsg) (area gone : Nat) (s : State), (served s.dev m famRec 4 ∧ ownerSession s.dev (reqOf m famRec 4) = true ∧ m.body.length = 4 ∧ field m.body 0 1 = area ∧ (area = 1 ∨ area = 2) ∧ field m.body 1 3 = 0 ∧ s.dev.recd.frozen = false ∧ s.dev.recd.clear = none ∧ s.dev.recd.stopped = false ∧ s.dev.recd.flushing = false ∧ gone = min permSlots (permFill s.dev + s.dev.recd.queue.length + s.dev.recd.held.length)) → Runs (.recClear (some m)) s (fun t => t.dev.recd.clear = some ⟨area, some s.dev.recd.nextNum, gone⟩ ∧ t.dev.recd.nextNum = s.dev.recd.nextNum + 1 ∧ t.mem = s.mem ∧ t.dev.out = s.dev.out ++ [.tosto { reqOf m famRec 4 with reply := true, status := OK, body := leBytes 2 gone ++ [0, 0] }])) ∧
  (∀ (c : RecClear) (s : State), (s.dev.recd.clear = some c ∧ clearAtHead s.dev = true ∧ s.dev.recd.ready = true ∧ s.dev.recd.frozen = false) → Runs .recClearDone s (fun t => t.dev.recd.clear = none ∧ t.dev.recd.numFloor = s.dev.recd.nextNum - 1 ∧ t.dev.recd.clears = (s.dev.recd.clears + 1) % 2 ^ 32 ∧ (∀ n, n ≠ 0 → (recSlot t.dev 0 n).state = 2) ∧ t.mem = s.mem)) ∧
  (∀ (m : TMsg) (s : State), (served s.dev m famRec 5 ∧ recCheck s.dev (reqOf m famRec 5) false = OK ∧ m.body = []) → Runs (.recState (some m)) s (fun t => t.dev = s.dev.reply (reqOf m famRec 5) OK (leBytes 4 (recStatus s.dev) ++ leBytes 4 (permFill s.dev) ++ leBytes 4 (recHead s.dev) ++ leBytes 4 (s.dev.rd Reg.REC_LOST_COUNT)) ∧ t.mem = s.mem)) ∧
  (∀ (m : TMsg) (s : State), (served s.dev m famRec 5 ∧ recCheck s.dev (reqOf m famRec 5) false = OK ∧ m.body ≠ []) → Runs (.recState (some m)) s (fun t => t.dev = s.dev.reply (reqOf m famRec 5) BAD_MESSAGE [] ∧ t.mem = s.mem)) ∧
  (∀ (master : Byte) (value : Word) (s : State), (writeTaken s.dev master.toNat (mAddr Reg.REC_READ_SEL) 32 value.toNat ∧ (value.toNat.testBit 31 = true ∨ bits value.toNat 12 0 < permSlots) ∧ s.dev.armedFirst 0x061 [0, 1] = none ∧ (recSlot s.dev (b2n (value.toNat.testBit 31)) (bits value.toNat 12 0)).ue = false) → Runs (.recReadSel master value) s (fun t => (∀ i, i < 16 → t.dev.rd (Reg.REC_READ_DATA + 4 * i) = field (readForm (b2n (value.toNat.testBit 31)) (bits value.toNat 12 0) (recSlot s.dev (b2n (value.toNat.testBit 31)) (bits value.toNat 12 0))) (4 * i) 4) ∧ t.dev.recd = s.dev.recd ∧ t.mem = s.mem ∧ written s t master.toNat (mAddr Reg.REC_READ_SEL)))

/-- Register writes take effect, and waiting accesses end. A write of any address that passes the checks has its effect and is answered; ERR_MASK keeps the page's error bits; a forced error is raised; an inverted check is armed; a lock bit is set; a policy entry is written; a stopped island's accesses end. -/
def Obligations.RegistersRun : Prop :=
  (∀ (master : Byte) (addr : BitVec 40) (width : Nat) (value : BitVec 64) (s : State), (writeTaken s.dev master.toNat addr.toNat width (value.toNat % 2 ^ width) ∧ mbxAddr addr.toNat width = none ∧ (writeEffect master.toNat addr.toNat width (value.toNat % 2 ^ width) s).1 ≠ WAITS) → Runs (.registerWrite master addr width value) s (fun t => t = ((writeEffect master.toNat addr.toNat width (value.toNat % 2 ^ width) s).2.onDev (fun d => d.complete master.toNat addr.toNat (writeEffect master.toNat addr.toNat width (value.toNat % 2 ^ width) s).1 0)).settle)) ∧
  (∀ (master : Byte) (addr : BitVec 40) (value : BitVec 64) (b : Nat) (p : Page) (s : State), (addr.toNat = mAddr (rkey b 0x024) ∧ pageOf b = some p ∧ writeTaken s.dev master.toNat addr.toNat 32 (value.toNat % 2 ^ 32) ∧ quiet s.dev) → Runs (.registerWrite master addr 32 value) s (fun t => t.dev.rd (rkey b 0x024) = (value.toNat % 2 ^ 32) &&& (forceBits p ||| checkBits p) ∧ t.mem = s.mem ∧ written s t master.toNat addr.toNat)) ∧
  (∀ (master : Byte) (block : BitVec 12) (value : Word) (p : Page) (n : Nat) (s : State), (writeTaken s.dev master.toNat (mAddr (rkey block.toNat 0x028)) 32 value.toNat ∧ pageOf block.toNat = some p ∧ n < 32 ∧ (forceBits p).testBit n = true ∧ value.toNat.testBit n = true ∧ s.dev.domainOn block.toNat = true) → Runs (.errForce master block value) s (fun t => t.dev.err block.toNat n = true ∧ t.mem = s.mem ∧ written s t master.toNat (mAddr (rkey block.toNat 0x028)))) ∧
  (∀ (master : Byte) (block : BitVec 12) (value : Word) (p : Page) (s : State), (writeTaken s.dev master.toNat (mAddr (rkey block.toNat 0x02C)) 32 value.toNat ∧ pageOf block.toNat = some p) → Runs (.errInvchk master block value) s (fun t => (∀ n, n < 32 → t.dev.armed block.toNat n = (s.dev.armed block.toNat n || ((checkBits p).testBit n && value.toNat.testBit n))) ∧ t.mem = s.mem ∧ written s t master.toNat (mAddr (rkey block.toNat 0x02C)))) ∧
  (∀ (master : Byte) (block : BitVec 12) (value : Word) (s : State), (writeTaken s.dev master.toNat (mAddr (rkey block.toNat 0x018)) 32 value.toNat) → Runs (.wlock master block ⟨value, []⟩) s (fun t => t.dev.rd (rkey block.toNat 0x018) = s.dev.rd (rkey block.toNat 0x018) ||| (value.toNat &&& 0xC0000000) ∧ t.mem = s.mem ∧ written s t master.toNat (mAddr (rkey block.toNat 0x018)))) ∧
  (∀ (master : Byte) (block : BitVec 12) (value : Word) (same : List PageAccess) (u s : State), (exec (.wlock master block ⟨value, []⟩) s = .next u) → Runs (.wlock master block ⟨value, same⟩) s (fun t => t = pageAccesses same u)) ∧
  (∀ (master entry : Byte) (high : Bool) (value : Word) (e : Nat) (s : State), (writeTaken s.dev master.toNat (0x0260000000 + (8 * entry.toNat + 4 * b2n high)) 32 value.toNat ∧ e = (if high then setBits (tableByte s.dev.acc.policy entry.toNat) 63 32 value.toNat else setBits (tableByte s.dev.acc.policy entry.toNat) 31 0 value.toNat) &&& 0xFFFFFFFFFF00F000 ∧ (e.testBit 15 = false ∨ (bits e 55 48 ≤ bits e 63 56 ∧ bits e 35 24 ≤ bits e 47 36))) → Runs (.policyEntryWrite master entry high value) s (fun t => tableByte t.dev.acc.policy entry.toNat = e ∧ t.mem = s.mem ∧ written s t master.toNat (0x0260000000 + (8 * entry.toNat + 4 * b2n high)))) ∧
  (∀ (master : Byte) (addr : BitVec 40) (a : Access1) (rest : List Access1) (s : State), (takeHeld (fun a => a.master == master.toNat && a.addr == addr.toNat) [] s.dev.acc.waiting = some (a, rest) ∧ a.entry = false ∧ rest = [] ∧ mbxWaiting s.dev master.toNat = false ∧ asleep s.dev) → Runs (.accessTimeout master addr) s (fun t => t.dev.acc.waiting = [] ∧ t.dev.acc.late = s.dev.acc.late ++ [a] ∧ t.dev.rd (bankKey master.toNat Reg.MOD_ACCESS_STATUS) = TIMEOUT ∧ t.dev.rd Reg.MOD_ACCESS_FAULT_COUNT = satAdd 32 (s.dev.rd Reg.MOD_ACCESS_FAULT_COUNT) 1 ∧ t.dev.out.getLast? = some (.access master.toNat addr.toNat TIMEOUT 0) ∧ t.mem = s.mem)) ∧
  (∀ (master : Byte) (addr : BitVec 40) (a : Access1) (rest : List Access1) (s : State), (takeFirst (fun a => a.master == master.toNat && a.addr == addr.toNat) s.dev.acc.late = some (a, rest)) → Runs (.pageAnswerLate master addr) s (fun t => t.dev.acc.late = rest ∧ t.dev.regs = s.dev.regs ∧ t.dev.out = s.dev.out ∧ t.mem = s.mem)) ∧
  (∀ (i : Island) (s : State), (s.dev.stopped.contains i = false) → Runs (.islandStop i) s (fun t => t.dev.stopped = s.dev.stopped ++ [i] ∧ t.dev.regs = s.dev.regs ∧ t.dev.out = s.dev.out ∧ t.mem = s.mem)) ∧
  (∀ (i : Island) (s : State), (s.dev.stopped.contains i = true ∧ quiet s.dev) → Runs (.islandRestart i) s (fun t => t.dev.stopped = s.dev.stopped.filter (fun x => x != i)))

/-- Bring-up and the power states go on. The stages of bring-up follow each other; waves power half-wings on and off; GDDR7 holds zeros after the memory test; PWR_TARGET is taken; Standby turns the switch core off. -/
def Obligations.BootRuns : Prop :=
  (∀ (a b : Bool) (s : State), (a = true ∨ b = true) → Runs (.powerOn a b) s (fun t => t.mem.gd = [] ∧ t.mem.cel = s.mem.cel ∧ t.dev.powered = ⟨true, false, 0, 0⟩ ∧ t.dev.rd Reg.PWR_FEED_STATE = b2n a + 2 * b2n b ∧ t.dev.recd.perm = s.dev.recFlush.recd.perm ∧ t.dev.recd.circ = s.dev.recFlush.recd.circ ∧ t.dev.sec.lc = s.dev.sec.lc)) ∧
  (∀ (s : State), (s.dev.recd.ready = false ∧ bootStage s.dev = sgPor) → Runs .recScanDone s (fun t => t.dev.recd.ready = true ∧ bootStage t.dev = sgFeedCheck ∧ (t.dev.rd Reg.MOD_BOOT).testBit 27 = shortTest s.dev ∧ t.dev.recd.perm = s.dev.recd.perm ∧ t.mem = s.mem)) ∧
  (∀ (a b : Bool) (s : State), (bootStage s.dev = sgFeedCheck ∧ (a = true ∨ b = true)) → Runs (.feedCheckDone a b) s (fun t => bootStage t.dev = sgRom ∧ (t.dev.rd Reg.MOD_BOOT).testBit 24 = (a != b) ∧ t.mem = s.mem)) ∧
  (∀ (store : Bool) (s : State), (bootStage s.dev = sgRom ∧ s.dev.powered.core = false ∧ bits (s.dev.rd Reg.PWR_STATE) 2 0 ≠ 3 ∧ s.dev.sec.lc ≠ 4 ∧ (s.dev.rd Reg.PWR_FEED_STATE).testBit 7 = true ∧ s.dev.rd Reg.PWR_TARGET ≤ 2) → Runs (.romDone store) s (fun t => t.dev.powered.core = true ∧ bootStage t.dev = sgSramInit ∧ bits (t.dev.rd Reg.PWR_STATE) 2 0 = 2 ∧ t.mem = s.mem)) ∧
  (∀ (k : Nat) (s : State), (moduleResets s.dev = false ∧ s.dev.pwr.wave = some (true, k) ∧ k < 15 ∧ (k % 2 = 0 ∨ s.dev.powered.wings.testBit (k / 2) = true)) → Runs (.powerWave true) s (fun t => t.dev.pwr.wave = some (true, k + 1) ∧ t.dev.powered.halves.testBit k = true ∧ t.dev.powered.wings.testBit (k / 2) = true ∧ t.mem = s.mem)) ∧
  (∀ (ok : Bool) (k : Nat) (s : State), (moduleResets s.dev = false ∧ s.dev.pwr.wave = some (false, k + 1)) → Runs (.powerWave ok) s (fun t => t.dev.pwr.wave = some (false, k) ∧ t.dev.powered.halves.testBit (k + 1) = false ∧ t.mem.cel = s.mem.cel)) ∧
  (∀ (w : Fin 8) (dev : Fin 3) (s : State), (s.dev.domainOn (0x090 + w.val) = true ∧ gdState s.dev w.val dev.val = 0) → Runs (.gdTrainDone w dev) s (fun t => gdState t.dev w.val dev.val = 1 ∧ t.mem = s.mem)) ∧
  (∀ (w : Fin 8) (dev : Fin 3) (s : State), (s.dev.domainOn (0x090 + w.val) = true ∧ gdState s.dev w.val dev.val = 0) → Runs (.gdTrainTimeout w dev) s (fun t => gdState t.dev w.val dev.val = 3 ∧ t.dev.err (0x090 + w.val) 2 = true ∧ t.mem = s.mem)) ∧
  (∀ (w : Fin 8) (m : Fin 2) (s : State), (s.dev.powered.wings.testBit w.val = true) → Runs (.ucieTrained w m) s (fun t => t.dev.pwr.ucie.testBit (2 * w.val + m.val) = true ∧ t.mem = s.mem)) ∧
  (∀ (status : Byte) (ms : Word) (s : State), (bootStage s.dev = sgMemtest ∧ moduleResets s.dev = false) → Runs (.memtestDone status ms) s (fun t => bootStage t.dev = sgTileTest ∧ t.mem.gd = [] ∧ t.dev.gddr.bad = [] ∧ (t.dev.rd Reg.MOD_BOOT).testBit 25 = (status.toNat == OK && (upFrom 0 8).all (fun w => gdReady s.dev w)))) ∧
  (∀ (ts : List TileFind) (s : State), (bootStage s.dev = sgTileTest ∧ moduleResets s.dev = false) → Runs (.tileTestDone ts) s (fun t => bootStage t.dev = sgLinks ∧ t.dev.pwr.tested = true ∧ t.dev.pwr.phase = 0 ∧ t.mem = s.mem)) ∧
  (∀ (s : State), (s.dev.pwr.phase = 3 ∧ moduleResets s.dev = false) → Runs .gddr7ZeroFillDone s (fun t => t.mem.gd = [] ∧ t.mem.cel = s.mem.cel ∧ t.dev.pwr.phase = 4 ∧ t.dev.gddr.bad = [] ∧ t.dev.regs = s.dev.regs)) ∧
  (∀ (s : State), (bootStage s.dev = sgLinks ∧ bits (s.dev.rd Reg.PWR_STATE) 2 0 = 0 ∧ s.dev.rd Reg.PWR_TARGET = 0) → Runs .linksDone s (fun t => bootStage t.dev = sgDiscovery ∧ t.mem = s.mem)) ∧
  (∀ (master : Byte) (s : State), (writeTaken s.dev master.toNat (mAddr Reg.PWR_TARGET) 32 0 ∧ changing s.dev = false ∧ scrubbing s.dev = false ∧ bootStage s.dev < sgFetch ∧ bits (s.dev.rd Reg.PWR_STATE) 2 0 ≠ 3) → Runs (.targetFull master) s (fun t => t.dev.rd Reg.PWR_TARGET = 0 ∧ t.dev.powered = s.dev.powered ∧ t.mem = s.mem ∧ written s t master.toNat (mAddr Reg.PWR_TARGET))) ∧
  (∀ (master : Byte) (s : State), (writeTaken s.dev master.toNat (mAddr Reg.PWR_TARGET) 32 0 ∧ changing s.dev = false ∧ scrubbing s.dev = false ∧ moduleResets s.dev = false ∧ bootStage s.dev = sgDiscovery ∧ bits (s.dev.rd Reg.PWR_STATE) 2 0 = 1) → Runs (.targetFull master) s (fun t => t.dev.rd Reg.PWR_TARGET = 0 ∧ bits (t.dev.rd Reg.PWR_STATE) 2 0 = 0 ∧ (t.dev.rd (rkey 0x080 0x010)).testBit 1 = false)) ∧
  (∀ (master : Byte) (s : State), (writeTaken s.dev master.toNat (mAddr Reg.PWR_TARGET) 32 1 ∧ changing s.dev = false ∧ scrubbing s.dev = false ∧ bootStage s.dev < sgFetch ∧ bits (s.dev.rd Reg.PWR_STATE) 2 0 ≠ 3) → Runs (.targetQuiet master) s (fun t => t.dev.rd Reg.PWR_TARGET = 1 ∧ t.dev.powered = s.dev.powered ∧ t.mem = s.mem ∧ written s t master.toNat (mAddr Reg.PWR_TARGET))) ∧
  (∀ (master : Byte) (s : State), (writeTaken s.dev master.toNat (mAddr Reg.PWR_TARGET) 32 1 ∧ changing s.dev = false ∧ scrubbing s.dev = false ∧ moduleResets s.dev = false ∧ bootStage s.dev = sgDiscovery ∧ bits (s.dev.rd Reg.PWR_STATE) 2 0 = 0 ∧ s.dev.arr.exec = none) → Runs (.targetQuiet master) s (fun t => t.dev.rd Reg.PWR_TARGET = 1 ∧ bits (t.dev.rd Reg.PWR_STATE) 2 0 = 1 ∧ (t.dev.rd (rkey 0x080 0x010)).testBit 1 = true)) ∧
  (∀ (master : Byte) (s : State), (writeTaken s.dev master.toNat (mAddr Reg.PWR_TARGET) 32 2 ∧ changing s.dev = false ∧ scrubbing s.dev = false ∧ bootStage s.dev < sgFetch ∧ bits (s.dev.rd Reg.PWR_STATE) 2 0 ≠ 3) → Runs (.targetTransit master) s (fun t => t.dev.rd Reg.PWR_TARGET = 2 ∧ t.dev.powered = s.dev.powered ∧ t.mem = s.mem ∧ written s t master.toNat (mAddr Reg.PWR_TARGET))) ∧
  (∀ (master : Byte) (s : State), (writeTaken s.dev master.toNat (mAddr Reg.PWR_TARGET) 32 3 ∧ changing s.dev = false ∧ scrubbing s.dev = false ∧ bootStage s.dev < sgFetch ∧ bits (s.dev.rd Reg.PWR_STATE) 2 0 ≠ 3) → Runs (.targetStandby master) s (fun t => t.dev.rd Reg.PWR_TARGET = 3 ∧ t.dev.powered = s.dev.powered ∧ t.mem = s.mem ∧ written s t master.toNat (mAddr Reg.PWR_TARGET))) ∧
  (∀ (master : Byte) (s : State), (writeTaken s.dev master.toNat (mAddr Reg.PWR_TARGET) 32 3 ∧ changing s.dev = false ∧ scrubbing s.dev = false ∧ moduleResets s.dev = false ∧ bootStage s.dev = sgDiscovery ∧ bits (s.dev.rd Reg.PWR_STATE) 2 0 = 2) → Runs (.targetStandby master) s (fun t => t.dev.powered.core = false ∧ bits (t.dev.rd Reg.PWR_STATE) 2 0 = 3 ∧ t.dev.lnk = [] ∧ t.dev.opt = [])) ∧
  (∀ (master : Byte) (s : State), (writeTaken s.dev master.toNat (mAddr Reg.PWR_TARGET) 32 4 ∧ changing s.dev = false ∧ scrubbing s.dev = false ∧ bootStage s.dev < sgFetch ∧ bits (s.dev.rd Reg.PWR_STATE) 2 0 ≠ 3) → Runs (.targetOff master) s (fun t => t.dev.rd Reg.PWR_TARGET = 4 ∧ t.dev.powered = s.dev.powered ∧ t.mem = s.mem ∧ written s t master.toNat (mAddr Reg.PWR_TARGET)))

/-- Resets begin and end, and Belfry switches over. A requested reset runs and RST_LAST shows it; a reset of kind M begins and clears the switch core; a completed one is gone; a switch-over makes the other core active. -/
def Obligations.ResetsRun : Prop :=
  (∀ (master : Byte) (i : Fin 512) (r : ResetRun) (s : State), (r = ⟨rkTile, i.val, rcRequest⟩ ∧ writeTaken s.dev master.toNat (mAddr Reg.RST_REQUEST) 32 (rkTile * 2 ^ 28 + i.val) ∧ targetOn s.dev rkTile i.val = true ∧ (s.dev.pwr.running ++ s.dev.pwr.held).any (fun x => x.covers r) = false) → Runs (.resetTile master i) s (fun t => t.dev.pwr.running = s.dev.pwr.running.filter (fun x => !r.covers x) ++ [r] ∧ t.dev.rd Reg.RST_LAST = 2 ^ 31 + i.val ∧ ((tile s.dev i.val).st ≠ .off → (tile s.dev i.val).st ≠ .disabled → (tile t.dev i.val).st = .clearing) ∧ t.mem = s.mem)) ∧
  (∀ (master : Byte) (c : Fin 64) (r : ResetRun) (s : State), (r = ⟨rkCluster, c.val, rcRequest⟩ ∧ writeTaken s.dev master.toNat (mAddr Reg.RST_REQUEST) 32 (rkCluster * 2 ^ 28 + c.val) ∧ targetOn s.dev rkCluster c.val = true ∧ (s.dev.pwr.running ++ s.dev.pwr.held).any (fun x => x.covers r) = false) → Runs (.resetCluster master c) s (fun t => t.dev.pwr.running = s.dev.pwr.running.filter (fun x => !r.covers x) ++ [r] ∧ t.dev.rd Reg.RST_LAST = 2 ^ 31 + 2 ^ 28 + c.val ∧ t.mem = s.mem)) ∧
  (∀ (master : Byte) (w : Fin 8) (r : ResetRun) (s : State), (r = ⟨rkWing, w.val, rcRequest⟩ ∧ writeTaken s.dev master.toNat (mAddr Reg.RST_REQUEST) 32 (rkWing * 2 ^ 28 + w.val) ∧ targetOn s.dev rkWing w.val = true ∧ (s.dev.pwr.running ++ s.dev.pwr.held).any (fun x => x.covers r) = false) → Runs (.resetWing master w) s (fun t => t.dev.pwr.running = s.dev.pwr.running.filter (fun x => !r.covers x) ++ [r] ∧ t.dev.rd Reg.RST_LAST = 2 ^ 31 + 2 * 2 ^ 28 + w.val ∧ t.dev.pwr.ucie.testBit (2 * w.val) = false ∧ t.dev.pwr.ucie.testBit (2 * w.val + 1) = false ∧ t.mem = s.mem)) ∧
  (∀ (master : Byte) (p : Fin 6) (r : ResetRun) (s : State), (r = ⟨rkPort, p.val, rcRequest⟩ ∧ writeTaken s.dev master.toNat (mAddr Reg.RST_REQUEST) 32 (rkPort * 2 ^ 28 + p.val) ∧ targetOn s.dev rkPort p.val = true ∧ (s.dev.pwr.running ++ s.dev.pwr.held).any (fun x => x.covers r) = false) → Runs (.resetPort master p) s (fun t => t.dev.rd Reg.RST_LAST = 2 ^ 31 + 3 * 2 ^ 28 + p.val ∧ (portOf t.dev p.val).txFrames = 0 ∧ (portOf t.dev p.val).rxFrames = 0 ∧ t.mem = s.mem)) ∧
  (∀ (master : Byte) (b : Bool) (r : ResetRun) (s : State), (r = ⟨rkCore, b2n b, rcRequest⟩ ∧ writeTaken s.dev master.toNat (mAddr Reg.RST_REQUEST) 32 (rkCore * 2 ^ 28 + b2n b) ∧ targetOn s.dev rkCore (b2n b) = true ∧ s.dev.bel.active ≠ some b ∧ (s.dev.pwr.running ++ s.dev.pwr.held).any (fun x => x.covers r) = false) → Runs (.resetCore master b) s (fun t => t.dev.pwr.running = s.dev.pwr.running.filter (fun x => !r.covers x) ++ [r] ∧ t.dev.bel = s.dev.bel ∧ t.mem = s.mem)) ∧
  (∀ (master : Byte) (s : State), (writeTaken s.dev master.toNat (mAddr Reg.RST_REQUEST) 32 (rkModule * 2 ^ 28) ∧ s.dev.pwr.due = [] ∧ moduleResets s.dev = false) → Runs (.resetModule master) s (fun t => t.dev.pwr.due = [⟨rkModule, 0, rcRequest⟩] ∧ t.dev.pwr.running = s.dev.pwr.running ∧ t.mem = s.mem ∧ written s t master.toNat (mAddr Reg.RST_REQUEST))) ∧
  (∀ (r : ResetRun) (rest : List ResetRun) (s : State), (s.dev.pwr.due = r :: rest ∧ moduleResets s.dev = false) → Runs .moduleResetBegin s (fun t => t.dev.pwr.due = [] ∧ t.dev.pwr.running = [r] ∧ t.dev.pwr.held = [] ∧ t.dev.opt = [] ∧ t.dev.col = Dev.reset.col ∧ t.dev.bel = Belfry.reset ∧ t.mem = s.mem)) ∧
  (∀ (kind : Fin 6) (target : Fin 512) (store : Bool) (r : ResetRun) (s : State), (kind.val ≠ rkModule ∧ r = ⟨kind.val, target.val, 0⟩ ∧ s.dev.pwr.running.any (fun x => x.kind == r.kind && x.target == r.target) = true ∧ scopeDone s.dev r = true) → Runs (.resetComplete kind target store) s (fun t => t.dev.pwr.running = s.dev.pwr.running.filter (fun x => x.kind != r.kind || x.target != r.target) ∧ (kind.val = rkTile → (tile s.dev target.val).st = .clearing → (tile t.dev target.val).st = .idle) ∧ t.mem.cel = s.mem.cel)) ∧
  (∀ (target : Fin 512) (store : Bool) (s : State), (s.dev.pwr.running.any (fun x => x.kind == rkModule && x.target == 0) = true ∧ s.dev.pwr.resetN = false) → Runs (.resetComplete 5 target store) s (fun t => t.dev.pwr.running = [] ∧ t.dev.pwr.held = [] ∧ t.dev.toc.src = [] ∧ t.mem.cel = s.mem.cel)) ∧
  (∀ (kind : Fin 6) (target : Fin 512) (s : State), (kind.val ≠ rkModule ∧ s.dev.pwr.running.any (fun x => x.kind == kind.val && x.target == target.val) = true ∧ s.dev.domainOn 0x004 = true) → Runs (.resetTimeout kind target) s (fun t => t.dev.pwr.running = s.dev.pwr.running.filter (fun x => !(x.kind == kind.val && x.target == target.val)) ∧ t.dev.pwr.held = s.dev.pwr.held ++ s.dev.pwr.running.filter (fun x => x.kind == kind.val && x.target == target.val) ∧ t.dev.err 0x004 0 = true ∧ t.mem = s.mem)) ∧
  (∀ (s : State), (s.dev.pwr.resetN = false ∧ s.dev.powered.aon = true) → Runs .resetN s (fun t => t.dev.pwr.resetN = true ∧ t.dev.rd Reg.RST_RESETN_COUNT = satAdd 32 (s.dev.rd Reg.RST_RESETN_COUNT) 1 ∧ t.dev.err 0x004 1 = true ∧ (moduleResets s.dev = false → s.dev.pwr.due = [] → t.dev.pwr.due = [⟨rkModule, 0, rcPin⟩]) ∧ t.mem = s.mem)) ∧
  (∀ (store : Bool) (s : State), (s.dev.pwr.resetN = true) → Runs (.resetNRelease store) s (fun t => t.dev.pwr.resetN = false ∧ (s.dev.pwr.mDone = true → t.dev.pwr.running = []) ∧ t.mem.cel = s.mem.cel)) ∧
  (∀ (b : Bool) (s : State), (s.dev.domainOn 0x068 = true) → Runs (.coreFault b) s (fun t => t.dev.err 0x068 (5 + b2n b) = true ∧ t.dev.bel = s.dev.bel ∧ t.mem = s.mem)) ∧
  (∀ (master : Byte) (old : Bool) (s : State), (writeTaken s.dev master.toNat (mAddr Reg.BEL_SWITCH) 32 1 ∧ s.dev.bel.active = some old ∧ coreMaster old = master.toNat ∧ switching s.dev = false ∧ standbyHealthy s.dev = true) → Runs (.giveUp master) s (fun t => t.dev.bel.active = some (!old) ∧ t.dev.bel.silent = 0 ∧ t.mem = s.mem)) ∧
  (∀ (old : Bool) (s : State), (writeTaken s.dev 1 (mAddr Reg.BEL_SWITCH) 32 2 ∧ s.dev.bel.active = some old ∧ switching s.dev = false ∧ standbyHealthy s.dev = true) → Runs (.switchRequest 1) s (fun t => t.dev.bel.active = some (!old) ∧ t.dev.bel.silent = 0 ∧ t.mem = s.mem)) ∧
  (∀ (old : Bool) (s : State), (s.dev.powered.core = true ∧ s.dev.rd Reg.BEL_WATCHDOG ≠ 0 ∧ s.dev.bel.active = some old ∧ switching s.dev = false ∧ standbyHealthy s.dev = true) → Runs .belWatchdog s (fun t => t.dev.bel.active = some (!old) ∧ t.dev.bel.silent = 0 ∧ t.mem = s.mem)) ∧
  (∀ (master : Byte) (value : Word) (a : Bool) (s : State), (writeTaken s.dev master.toNat (mAddr Reg.BEL_HEALTH) 32 value.toNat ∧ (master = 2 ∨ master = 3) ∧ s.dev.bel.active = some a ∧ coreMaster a ≠ master.toNat) → Runs (.belHealth master value) s (fun t => t.dev.rd Reg.BEL_HEALTH = value.toNat &&& 0xC0FFFFFF ∧ healthAge t.dev = 0 ∧ t.dev.bel.active = some a ∧ t.mem = s.mem ∧ written s t master.toNat (mAddr Reg.BEL_HEALTH))) ∧
  (∀ (s : State), (s.dev.powered.core = true) → Runs .healthStale s (fun t => t.dev.err 0x068 9 = true ∧ (s.dev.rd Reg.BEL_HEALTH_LIMIT ≤ 65535 → 1000 * s.dev.rd Reg.BEL_HEALTH_LIMIT ≤ healthAge t.dev) ∧ t.mem = s.mem))

/-- Feeds, power and thermal events have their effect. A feed's bits of PWR_FEED_STATE follow its events and PWR raises its sources; a die's reading is shown and THM_STATE follows it; a thermal trip turns the switch core and the wings off. -/
def Obligations.FeedsRun : Prop :=
  (∀ (b : Bool) (s : State), (s.dev.powered.aon = true ∧ feedBit s.dev (b2n b) = true ∧ s.dev.domainOn 0x002 = true) → Runs (.feedLost b) s (fun t => feedBit t.dev (b2n b) = false ∧ feedBit t.dev (2 + b2n b) = false ∧ t.dev.rd Reg.PWR_FEED_LOSS_COUNT = satAdd 32 (s.dev.rd Reg.PWR_FEED_LOSS_COUNT) 1 ∧ t.dev.err 0x002 (b2n b) = true ∧ t.mem = s.mem)) ∧
  (∀ (b : Bool) (s : State), (s.dev.powered.aon = true ∧ s.dev.domainOn 0x002 = true) → Runs (.overvolt b) s (fun t => feedBit t.dev (b2n b) = false ∧ t.dev.err 0x002 4 = true ∧ t.mem = s.mem)) ∧
  (∀ (b : Bool) (s : State), (s.dev.powered.aon = true ∧ feedBit s.dev (b2n b) = false) → Runs (.feedQualifyStart b) s (fun t => feedBit t.dev (2 + b2n b) = true ∧ feedBit t.dev (b2n b) = false ∧ t.mem = s.mem)) ∧
  (∀ (b : Bool) (s : State), (feedBit s.dev (2 + b2n b) = true ∧ s.dev.domainOn 0x002 = true) → Runs (.feedReturn b) s (fun t => feedBit t.dev (b2n b) = true ∧ feedBit t.dev (2 + b2n b) = false ∧ feedBit t.dev 4 = false ∧ t.dev.err 0x002 2 = true ∧ t.mem = s.mem)) ∧
  (∀ (b : Bool) (s : State), (s.dev.powered.aon = true ∧ s.dev.domainOn 0x002 = true) → Runs (.oring b) s (fun t => feedBit t.dev (5 + b2n b) = true ∧ t.dev.err 0x002 5 = true ∧ t.mem = s.mem)) ∧
  (∀ (s : State), (s.dev.powered.aon = true ∧ s.dev.domainOn 0x002 = true ∧ feedBit s.dev 0 = false ∧ feedBit s.dev 1 = false ∧ feedBit s.dev 4 = false) → Runs .undervolt s (fun t => feedBit t.dev 4 = true ∧ t.dev.err 0x002 3 = true ∧ (t.dev.recd.flushing = true ∨ t.dev.recd.stopped = true) ∧ t.mem = s.mem)) ∧
  (∀ (s : State), Runs .entryToOff s (fun t => t.dev.powered = ⟨false, false, 0, 0⟩ ∧ t.mem.gd = [] ∧ t.mem.cel = s.mem.cel ∧ t.dev.recd.perm = s.dev.recd.perm ∧ t.dev.recd.circ = s.dev.recd.circ)) ∧
  (∀ (s : State), (s.dev.powered.aon = true) → Runs .prechargeDone s (fun t => feedBit t.dev 7 = true ∧ (∀ n, n < 7 → feedBit t.dev n = feedBit s.dev n) ∧ t.mem = s.mem)) ∧
  (∀ (s : State), (s.dev.domainOn 0x002 = true) → Runs .converter s (fun t => t.dev.err 0x002 6 = true ∧ t.dev.powered = s.dev.powered ∧ t.mem = s.mem)) ∧
  (∀ (s : State), (s.dev.domainOn 0x002 = true) → Runs .overcurrent s (fun t => t.dev.err 0x002 7 = true ∧ t.dev.powered = s.dev.powered ∧ t.mem = s.mem)) ∧
  (∀ (die : Fin 9) (x : Int) (s : State), (s.dev.domainOn 0x003 = true ∧ dieAbove (s.dev.dieRead die.val x) (s.dev.rd Reg.THM_WARN) = true) → Runs (.warn die x) s (fun t => t.dev.rd (Reg.THM_DIE + 4 * die.val) = 2 ^ 31 + unsigned 16 x ∧ thmState t.dev ≠ 0 ∧ t.dev.err 0x003 0 = true ∧ t.mem = s.mem)) ∧
  (∀ (die : Fin 9) (x : Int) (s : State), (s.dev.domainOn 0x003 = true ∧ dieHot (s.dev.dieRead die.val x) = true) → Runs (.critical die x) s (fun t => t.dev.rd (Reg.THM_DIE + 4 * die.val) = 2 ^ 31 + unsigned 16 x ∧ thmState t.dev = 2 ∧ t.dev.err 0x003 1 = true ∧ t.mem = s.mem)) ∧
  (∀ (die : Fin 9) (x : Int) (s : State), (1150 ≤ x ∧ s.dev.powered.aon = true ∧ s.dev.powered.core = true) → Runs (.thermalTrip die x) s (fun t => t.dev.powered = ⟨true, false, 0, 0⟩ ∧ t.dev.rd Reg.PWR_TARGET = 3 ∧ bits (t.dev.rd Reg.PWR_STATE) 2 0 = 3 ∧ t.mem.gd = [] ∧ t.mem.cel = s.mem.cel)) ∧
  (∀ (reads : List Int) (s : State), (thmState s.dev ≠ 0 ∧ dieBelow (s.dev.dieReads 0 reads) (s.dev.rd Reg.THM_WARN) = true ∧ s.dev.pwr.thermN = false) → Runs (.thermalCooled reads) s (fun t => thmState t.dev = 0 ∧ t.dev.powered = s.dev.powered ∧ t.mem = s.mem)) ∧
  (∀ (s : State), (s.dev.powered.aon = true ∧ s.dev.pwr.thermN = false ∧ s.dev.domainOn 0x003 = true) → Runs .thermN s (fun t => t.dev.pwr.thermN = true ∧ thmState t.dev ≠ 0 ∧ t.dev.err 0x003 2 = true ∧ t.mem = s.mem)) ∧
  (∀ (cool : Bool) (s : State), (s.dev.pwr.thermN = true) → Runs (.thermNRelease cool) s (fun t => t.dev.pwr.thermN = false ∧ (cool = true → thmState s.dev = 1 → dieBelow s.dev (s.dev.rd Reg.THM_WARN) = true → thmState t.dev = 0) ∧ t.mem = s.mem)) ∧
  (∀ (die : Fin 9) (x : Int) (s : State), (s.dev.domainOn 0x003 = true) → Runs (.sensor die x) s (fun t => t.dev.rd (Reg.THM_DIE + 4 * die.val) = 2 ^ 31 + unsigned 16 x ∧ t.dev.err 0x003 3 = true ∧ t.mem = s.mem))

/-- Oscillators, links, SYNC_IN and the telemetry bus have their effect. A failed check raises its source; ETH_LINK follows the link; a SYNC_IN pulse near a boundary moves the next one and another is refused; each PMBus command is answered. -/
def Obligations.BoardRuns : Prop :=
  (∀ (s : State), (s.dev.domainOn 0x001 = true) → Runs .refLost s (fun t => t.dev.err 0x001 0 = true ∧ t.dev.powered = s.dev.powered ∧ t.mem = s.mem)) ∧
  (∀ (s : State), (s.dev.domainOn 0x001 = true) → Runs .aonDrift s (fun t => t.dev.err 0x001 1 = true ∧ t.dev.powered = s.dev.powered ∧ t.mem = s.mem)) ∧
  (∀ (s : State), (s.dev.powered.aon = true) → Runs .hostLinkUp s (fun t => t.dev.rd Reg.ETH_LINK = 2 ^ 31 + bits (s.dev.rd Reg.ETH_MODE) 1 0 ∧ t.dev.host = s.dev.host ∧ t.mem = s.mem)) ∧
  (∀ (s : State), ((s.dev.rd Reg.ETH_LINK).testBit 31 = true ∧ s.dev.domainOn 0x040 = true) → Runs .linkDown s (fun t => (t.dev.rd Reg.ETH_LINK).testBit 31 = false ∧ t.dev.err 0x040 0 = true ∧ t.dev.host = s.dev.host ∧ t.mem = s.mem)) ∧
  (∀ (p : Fin 4) (s : State), (s.dev.powered.core = true ∧ celPort s.dev p.val ≠ 4) → Runs (.celTrainFail p) s (fun t => celPort t.dev p.val = 4 ∧ t.dev.err 0x04C 2 = true ∧ t.dev.cel = s.dev.cel ∧ t.mem = s.mem)) ∧
  (∀ (phase : Nat) (s : State), (s.dev.powered.aon = true ∧ 3 * (1000 * s.dev.msr.period) ≤ 4 * phase) → Runs (.syncIn phase) s (fun t => t.dev.msr = { s.dev.msr with shift := some phase } ∧ t.dev.rd Reg.MSR_SYNC_ACCEPT_COUNT = satAdd 32 (s.dev.rd Reg.MSR_SYNC_ACCEPT_COUNT) 1 ∧ t.mem = s.mem)) ∧
  (∀ (phase : Nat) (s : State), (s.dev.powered.aon = true ∧ 4 * phase ≤ 1000 * s.dev.msr.period ∧ 4 * phase < 3 * (1000 * s.dev.msr.period)) → Runs (.syncIn phase) s (fun t => t.dev.msr = { s.dev.msr with shift := some (phase + 1000 * s.dev.msr.period) } ∧ t.dev.rd Reg.MSR_SYNC_ACCEPT_COUNT = satAdd 32 (s.dev.rd Reg.MSR_SYNC_ACCEPT_COUNT) 1 ∧ t.mem = s.mem)) ∧
  (∀ (phase : Nat) (s : State), (s.dev.powered.aon = true ∧ 1000 * s.dev.msr.period < 4 * phase ∧ 4 * phase < 3 * (1000 * s.dev.msr.period) ∧ s.dev.domainOn 0x06A = true) → Runs (.syncIn phase) s (fun t => t.dev.msr = s.dev.msr ∧ t.dev.rd Reg.MSR_SYNC_REJECT_COUNT = satAdd 32 (s.dev.rd Reg.MSR_SYNC_REJECT_COUNT) 1 ∧ t.dev.err 0x06A 0 = true ∧ t.mem = s.mem)) ∧
  (∀ (s : State), (s.dev.powered.aon = true) → Runs .statusWord s (fun t => t.dev.out = s.dev.out ++ [.pmbus 0x79 (leBytes 2 (statusPmbus s.dev))] ∧ t.dev.regs = s.dev.regs ∧ t.mem = s.mem)) ∧
  (∀ (s : State), (s.dev.powered.aon = true) → Runs .pmbusRevision s (fun t => t.dev.out = s.dev.out ++ [.pmbus 0x98 [0x33]] ∧ t.dev.regs = s.dev.regs ∧ t.mem = s.mem)) ∧
  (∀ (s : State), (s.dev.powered.aon = true) → Runs .mfrSerial s (fun t => t.dev.out = s.dev.out ++ [.pmbus 0x9E (8 :: leBytes 8 Config.serial)] ∧ t.dev.regs = s.dev.regs ∧ t.mem = s.mem)) ∧
  (∀ (a b : Word) (s : State), (s.dev.powered.aon = true) → Runs (.readVin a b) s (fun t => t.dev.rd Reg.PWR_FEED_A = a.toNat ∧ t.dev.rd Reg.PWR_FEED_B = b.toNat ∧ t.dev.out = s.dev.out ++ [.pmbus 0x88 (leBytes 2 (linear11 (max (bits a.toNat 31 16) (bits b.toNat 31 16)) 100))] ∧ t.mem = s.mem)) ∧
  (∀ (a b : Word) (s : State), (s.dev.powered.aon = true) → Runs (.readIin a b) s (fun t => t.dev.rd Reg.PWR_FEED_A = a.toNat ∧ t.dev.rd Reg.PWR_FEED_B = b.toNat ∧ t.dev.out = s.dev.out ++ [.pmbus 0x89 (leBytes 2 (linear11 (bits a.toNat 15 0 + bits b.toNat 15 0) 100))] ∧ t.mem = s.mem)) ∧
  (∀ (w : BitVec 16) (s : State), (s.dev.powered.aon = true) → Runs (.readPin w) s (fun t => t.dev.rd Reg.PWR_INPUT = w.toNat ∧ t.dev.rd Reg.PWR_PEAK = max w.toNat (s.dev.rd Reg.PWR_PEAK) ∧ t.dev.out = s.dev.out ++ [.pmbus 0x97 (leBytes 2 (linear11 w.toNat 1))] ∧ t.mem = s.mem)) ∧
  (∀ (x : Int) (s : State), (s.dev.powered.aon = true ∧ s.dev.powered.wings = 0) → Runs (.readTemperature1 [x]) s (fun t => t.dev.rd Reg.THM_DIE = 2 ^ 31 + unsigned 16 x ∧ t.dev.out = s.dev.out ++ [.pmbus 0x8D (leBytes 2 (linear11Int (signed 16 (2 ^ 31 + unsigned 16 x)) 10))] ∧ t.mem = s.mem)) ∧
  (∀ (reads : List Int) (s : State), (s.dev.powered.aon = true ∧ reads.length = 9) → Runs (.readTemperature1 reads) s (fun t => (∀ i, i < 9 → t.dev.rd (Reg.THM_DIE + 4 * i) = 2 ^ 31 + unsigned 16 (listAt 0 reads i)) ∧ t.dev.out.length = s.dev.out.length + 1 ∧ t.mem = s.mem)) ∧
  (∀ (s : State), Runs .smbusClockTimeout s (fun t => t.dev.out = s.dev.out ++ [.pmbusRelease] ∧ t.dev.regs = s.dev.regs ∧ t.mem = s.mem))

/-- The host port takes frames, and sessions open and close. A frame for the port is answered or its message waits in its session's queue; OPEN reserves a slot, PROVE opens it, CLOSE and its timers free it; a write of ETH_SLOT closes the slot and is kept. -/
def Obligations.SessionsRun : Prop :=
  (∀ (f : EthFrame) (m : TMsg) (slot : Fin 16) (seq : Nat) (s : State), (f.bytes ≤ 9216 ∧ vlanOk s.dev f = true ∧ f.secured = none ∧ msecRequired s.dev = false ∧ s.dev.powered.core = true ∧ f.kind = .tosto (s.dev.rd Reg.ETH_TOSTO_PORT) m (0x10 + slot.val) seq true true ∧ (sessOf s.dev slot.val).st = 2 ∧ (sessOf s.dev slot.val).cache.find? (fun r => r.seq == seq) = none ∧ seqNew (sessOf s.dev slot.val) seq = true ∧ m.body.length ≤ 1408 ∧ hostFamily m = true ∧ codeKnown m.family m.code = true ∧ m.status = 0 ∧ m.reply = false ∧ (sessOf s.dev slot.val).queue.length < 8 ∧ s.dev.stopped.contains .host = false) → Runs (.ethFrame f) s (fun t => sessOf t.dev slot.val = { seqTake (sessOf s.dev slot.val) seq with queue := (sessOf s.dev slot.val).queue ++ [{ m with src := .host slot, seq := seq }] } ∧ t.dev.out = s.dev.out ∧ t.mem = s.mem)) ∧
  (∀ (f : EthFrame) (s : State), (f.bytes ≤ 9216 ∧ vlanOk s.dev f = true ∧ f.secured = none ∧ msecRequired s.dev = false ∧ s.dev.powered.core = true ∧ f.kind = .arp true ∧ s.dev.stopped.contains .host = false) → Runs (.ethFrame f) s (fun t => t.dev.out = s.dev.out ++ [.ethAnswer 0] ∧ t.dev.host = s.dev.host ∧ t.mem = s.mem)) ∧
  (∀ (f : EthFrame) (s : State), ((9216 < f.bytes ∨ (f.kind ≠ .knock ∧ vlanOk s.dev f = false)) ∧ s.dev.stopped.contains .host = false) → Runs (.ethFrame f) s (fun t => t.dev.rd Reg.ETH_DROP_COUNT = satAdd 32 (s.dev.rd Reg.ETH_DROP_COUNT) 1 ∧ t.dev.host = s.dev.host ∧ t.dev.out = s.dev.out ∧ t.mem = s.mem)) ∧
  (∀ (f : EthFrame) (s : State), (f.bytes ≤ 9216 ∧ vlanOk s.dev f = true ∧ f.secured = none ∧ msecRequired s.dev = true ∧ f.kind ≠ .knock ∧ f.kind ≠ .eapol ∧ s.dev.stopped.contains .host = false) → Runs (.ethFrame f) s (fun t => t.dev.rd Reg.MSEC_UNPROTECTED_COUNT = satAdd 32 (s.dev.rd Reg.MSEC_UNPROTECTED_COUNT) 1 ∧ t.dev.host = s.dev.host ∧ t.dev.out = s.dev.out ∧ t.mem = s.mem)) ∧
  (∀ (m : TMsg) (nonce i : Nat) (s : State), (served s.dev m famSession 1 ∧ m.body.length = 36 ∧ field m.body 0 1 = 0 ∧ field m.body 1 1 = 0 ∧ (upFrom 0 16).find? (fun i => slotServes s.dev i none) = some i) → Runs (.openSession (some m) nonce) s (fun t => t.dev = (s.dev.setSess i { Session.empty with st := 1, tenant := none, nonceH := field m.body 4 32, nonceM := nonce % 2 ^ 256 }).reply (reqOf m famSession 1) OK (leBytes 4 i ++ leBytes 32 nonce) ∧ t.mem = s.mem)) ∧
  (∀ (m : TMsg) (nonce i : Nat) (s : State), (served s.dev m famSession 1 ∧ m.body.length = 36 ∧ field m.body 0 1 = 1 ∧ field m.body 1 1 = 0 ∧ field m.body 2 2 ≤ 511 ∧ (upFrom 0 16).find? (fun i => slotServes s.dev i (some (field m.body 2 2))) = some i) → Runs (.openSession (some m) nonce) s (fun t => t.dev = (s.dev.setSess i { Session.empty with st := 1, tenant := some (field m.body 2 2), nonceH := field m.body 4 32, nonceM := nonce % 2 ^ 256 }).reply (reqOf m famSession 1) OK (leBytes 4 i ++ leBytes 32 nonce) ∧ t.mem = s.mem)) ∧
  (∀ (m : TMsg) (slot : Nat) (s : State), (served s.dev m famSession 2 ∧ m.body.length = 36 ∧ slot = field m.body 0 1 ∧ slot ≤ 15 ∧ field m.body 1 3 = 0 ∧ (sessOf s.dev slot).st = 1 ∧ (s.dev.principalKey (sessOf s.dev slot).tenant).1.isSome = true) → Runs (.prove (some m) true) s (fun t => sessOpen t.dev slot = true ∧ (sessOf t.dev slot).tenant = (sessOf s.dev slot).tenant ∧ (sessOf t.dev slot).queue = [] ∧ (t.dev.rd Reg.ETH_SESSIONS).testBit slot = true ∧ t.mem = s.mem)) ∧
  (∀ (m : TMsg) (slot : Fin 16) (s : State), (served s.dev m famSession 3 ∧ m.src = .host slot ∧ m.body = []) → Runs (.closeSession (some m)) s (fun t => sessOf t.dev slot.val = Session.empty ∧ t.mem = s.mem)) ∧
  (∀ (m : TMsg) (slot : Fin 16) (s : State), (served s.dev m famSession 3 ∧ m.src = .host slot ∧ m.body ≠ []) → Runs (.closeSession (some m)) s (fun t => t.dev = s.dev.reply (reqOf m famSession 3) BAD_MESSAGE [] ∧ t.mem = s.mem)) ∧
  (∀ (slot : Fin 16) (s : State), ((sessOf s.dev slot.val).st = 1) → Runs (.proveTimeout slot) s (fun t => sessOf t.dev slot.val = Session.empty ∧ (∀ k, k ≠ slot.val → sessOf t.dev k = sessOf s.dev k) ∧ t.dev.regs = s.dev.regs ∧ t.mem = s.mem)) ∧
  (∀ (slot : Fin 16) (s : State), (sessOpen s.dev slot.val = true) → Runs (.sessionIdle slot) s (fun t => sessOf t.dev slot.val = Session.empty ∧ t.mem = s.mem)) ∧
  (∀ (master : Byte) (slot : Fin 16) (value : Word) (s : State), (writeTaken s.dev master.toNat (mAddr (slotKey slot.val)) 32 value.toNat ∧ sessOpen s.dev slot.val = false) → Runs (.ethSlotWrite master slot value) s (fun t => sessOf t.dev slot.val = Session.empty ∧ (t.dev.rd (slotKey slot.val)).testBit 31 = value.toNat.testBit 31 ∧ slotTenant t.dev slot.val = (if value.toNat.testBit 30 then some (bits value.toNat 8 0) else none) ∧ t.mem = s.mem)) ∧
  (∀ (master : Byte) (slot : Fin 16) (value : Word) (s : State), (writeTaken s.dev master.toNat (mAddr (slotKey slot.val)) 32 value.toNat ∧ sessOpen s.dev slot.val = true) → Runs (.ethSlotWrite master slot value) s (fun t => sessOf t.dev slot.val = Session.empty ∧ t.mem = s.mem))

/-- MACsec key agreement and PTP go on. The steps of key agreement set the live peer, the receive SA and the transmit SA; a lost peer takes them away; a Sync's offset corrects the clock; an Announce names the clock followed, and its timeout means HOLDOVER. -/
def Obligations.HostTimeRuns : Prop :=
  (∀ (s : State), (s.dev.host.cak ≠ none ∧ s.dev.powered.core = true) → Runs (.mkaFrame .peer) s (fun t => t.dev.host = { s.dev.host with mkaPeer := true } ∧ (s.dev.host.txSa = none → t.dev.rd Reg.MSEC_STATUS = 2) ∧ t.mem = s.mem)) ∧
  (∀ (an : Fin 4) (s : State), (s.dev.host.cak ≠ none ∧ s.dev.powered.core = true ∧ s.dev.host.mkaPeer = true) → Runs (.mkaFrame (.sak an)) s (fun t => t.dev.host.rxSa = ((an.val, 1) :: s.dev.host.rxSa.filter (fun x => x.1 != an.val)).take 2 ∧ t.dev.out = s.dev.out ++ [.mka 2] ∧ t.dev.regs = s.dev.regs ∧ t.mem = s.mem)) ∧
  (∀ (an next : Nat) (rest : List (Nat × Nat)) (s : State), (s.dev.host.cak ≠ none ∧ s.dev.powered.core = true ∧ s.dev.host.mkaPeer = true ∧ s.dev.host.rxSa = (an, next) :: rest) → Runs (.mkaFrame .transmit) s (fun t => t.dev.host = { s.dev.host with txSa := some an } ∧ t.dev.rd Reg.MSEC_SAK_COUNT = satAdd 32 (s.dev.rd Reg.MSEC_SAK_COUNT) 1 ∧ t.dev.rd Reg.MSEC_STATUS = 3 + 16 * (an % 4) ∧ t.mem = s.mem)) ∧
  (∀ (an : Fin 4) (s : State), (s.dev.host.txSa = some an.val) → Runs (.sakPnLimit an) s (fun t => t.dev.out = s.dev.out ++ [.mka 1] ∧ t.dev.host = s.dev.host ∧ t.mem = s.mem)) ∧
  (∀ (s : State), (s.dev.host.mkaPeer = true ∧ s.dev.domainOn 0x041 = true) → Runs .mkaLost s (fun t => t.dev.host = { s.dev.host with mkaPeer := false, rxSa := [], txSa := none } ∧ t.dev.rd Reg.MSEC_STATUS = (if s.dev.host.cak.isSome then 1 else 0) ∧ t.dev.err 0x041 1 = true ∧ t.mem = s.mem)) ∧
  (∀ (s : State), (s.dev.host.cak.isSome = true ∧ s.dev.powered.core = true) → Runs .mkaHello s (fun t => t.dev.out = s.dev.out ++ [.mka 0] ∧ t.dev.host = s.dev.host ∧ t.mem = s.mem)) ∧
  (∀ (h : PtpHdr) (origin receipt : Int) (s : State), (ptpFrom s.dev h = true) → Runs (.ptpSync h true origin receipt) s (fun t => t.dev.host = { s.dev.host with sync := some receipt } ∧ t.dev.clk = s.dev.clk ∧ t.mem = s.mem)) ∧
  (∀ (h : PtpHdr) (origin receipt : Int) (s : State), (ptpFrom s.dev h = true ∧ offsetSize (receipt - origin - s.dev.host.delay) ≤ 1000000) → Runs (.ptpSync h false origin receipt) s (fun t => t.dev.host.slew = receipt - origin - s.dev.host.delay ∧ t.dev.host.gap = receipt - origin ∧ t.dev.rd Reg.PTP_OFFSET = offsetWord (receipt - origin - s.dev.host.delay) ∧ t.dev.clk = s.dev.clk ∧ t.dev.out = s.dev.out ++ [.delayReq] ∧ t.mem = s.mem)) ∧
  (∀ (h : PtpHdr) (origin receipt : Int) (s : State), (ptpFrom s.dev h = true ∧ s.dev.host.sync = some receipt ∧ 1000000 < offsetSize (receipt - origin - s.dev.host.delay)) → Runs (.followUp h origin) s (fun t => t.dev.clk.cal = unsigned 64 ((s.dev.clk.cal : Int) - (receipt - origin - s.dev.host.delay)) ∧ t.dev.clk.aon = s.dev.clk.aon ∧ t.dev.host.slew = 0 ∧ t.dev.host.sync = none ∧ t.dev.rd Reg.PTP_STEP_COUNT = satAdd 32 (s.dev.rd Reg.PTP_STEP_COUNT) 1 ∧ t.mem = s.mem)) ∧
  (∀ (h : PtpHdr) (origin receipt : Int) (s : State), (ptpFrom s.dev h = true ∧ s.dev.host.sync = some receipt ∧ offsetSize (receipt - origin - s.dev.host.delay) ≤ 1000000) → Runs (.followUp h origin) s (fun t => t.dev.host.slew = receipt - origin - s.dev.host.delay ∧ t.dev.host.sync = none ∧ t.dev.rd Reg.PTP_OFFSET = offsetWord (receipt - origin - s.dev.host.delay) ∧ t.dev.clk = s.dev.clk ∧ t.dev.out = s.dev.out ++ [.delayReq] ∧ t.mem = s.mem)) ∧
  (∀ (h : PtpHdr) (sent receipt : Int) (s : State), (ptpFrom s.dev h = true) → Runs (.delayResp h sent receipt) s (fun t => t.dev.host = { s.dev.host with delay := (s.dev.host.gap + (receipt - sent)) / 2 } ∧ t.dev.clk = s.dev.clk ∧ t.mem = s.mem)) ∧
  (∀ (h : PtpHdr) (best : Bool) (s : State), (ptpTakes s.dev h = true ∧ s.dev.host.gm ≠ some h.clock ∧ (ptpNamed s.dev = some h.clock ∨ (ptpNamed s.dev = none ∧ (s.dev.host.gm = none ∨ best = true)))) → Runs (.announce h best) s (fun t => t.dev.host.gm = some h.clock ∧ t.dev.rd Reg.PTP_STATE = ptpAcquiring ∧ t.dev.clk = s.dev.clk ∧ t.mem = s.mem)) ∧
  (∀ (s : State), ((s.dev.rd Reg.PTP_STATE = ptpAcquiring ∨ s.dev.rd Reg.PTP_STATE = ptpLocked) ∧ s.dev.domainOn 0x043 = true) → Runs .announceTimeout s (fun t => t.dev.host.gm = none ∧ t.dev.rd Reg.PTP_STATE = ptpHoldover ∧ t.dev.err 0x043 0 = true ∧ t.dev.clk = s.dev.clk ∧ t.mem = s.mem))

/-- RoCEv2 requests are served. A QP is created at the lowest free number and destroyed; a WRITE stores and a READ answers what the window holds; a SEND enters its mailbox. -/
def Obligations.RoceRuns : Prop :=
  (∀ (m : TMsg) (n : Nat) (s : State), (served s.dev m famJob 8 ∧ servesJobs s.dev = true ∧ qpBodyOk (reqTenant s.dev (reqOf m famJob 8)) m.body = true ∧ (upFrom 0x100 256).find? (fun n => (qpOf s.dev n).isNone) = some n) → Runs (.qpCreate (some m)) s (fun t => t.dev = (s.dev.setQp n (some (qpFrom (reqTenant s.dev (reqOf m famJob 8)) m.body))).reply (reqOf m famJob 8) OK (leBytes 4 n) ∧ qpOf t.dev n = some (qpFrom (reqTenant s.dev (reqOf m famJob 8)) m.body) ∧ t.mem = s.mem)) ∧
  (∀ (m : TMsg) (q : Qp) (s : State), (served s.dev m famJob 9 ∧ servesJobs s.dev = true ∧ m.body.length = 4 ∧ qpOf s.dev (field m.body 0 4) = some q ∧ reqTenant s.dev (reqOf m famJob 9) = none) → Runs (.qpDestroy (some m)) s (fun t => t.dev = (s.dev.setQp (field m.body 0 4) none).reply (reqOf m famJob 9) OK [] ∧ qpOf t.dev (field m.body 0 4) = none ∧ t.mem = s.mem)) ∧
  (∀ (r : RoceReq) (rkey va : Nat) (data : List Byte) (q : Qp) (s : State), (qpOf s.dev r.qpn = some q ∧ hostRuns s.dev = true ∧ s.dev.host.rdma = [] ∧ r.icrc = true ∧ r.supported = true ∧ r.ce = false ∧ psnAhead r.psn q.psn = false ∧ psnBehind r.psn q.psn = false ∧ roceCheck s.dev q rkey va 117 data.length = OK ∧ data ≠ [] ∧ gdSound s.dev (windowUser s.dev 14 (keyWindow rkey)) (windowAddr s.dev (keyWindow rkey) va) data.length) → Runs (.rdmaWrite r rkey va data) s (fun t => t.mem = s.mem.store (windowAddr s.dev (keyWindow rkey) va) data ∧ qpOf t.dev r.qpn = some { q with psn := (r.psn + rocePackets q data.length) % 2 ^ 24 } ∧ t.dev.out = s.dev.out ++ [.roceAck r.qpn r.psn])) ∧
  (∀ (r : RoceReq) (rkey va len n : Nat) (q : Qp) (s : State), (qpOf s.dev r.qpn = some q ∧ hostRuns s.dev = true ∧ s.dev.host.rdma = [] ∧ r.icrc = true ∧ r.supported = true ∧ r.ce = false ∧ psnAhead r.psn q.psn = false ∧ psnBehind r.psn q.psn = false ∧ len ≤ 2 ^ 31 ∧ n < 16 ∧ roceCheck s.dev q rkey va 118 len = OK ∧ gdSound s.dev (windowUser s.dev 14 (keyWindow rkey)) (windowAddr s.dev (keyWindow rkey) va) len) → Runs (.rdmaRead r rkey va len n) s (fun t => t.mem = s.mem ∧ qpOf t.dev r.qpn = some { q with psn := (r.psn + rocePackets q len) % 2 ^ 24 } ∧ t.dev.out = (s.dev.roceSegments r 0 (roceSplit q (s.mem.bytes (windowAddr s.dev (keyWindow rkey) va) len))).out)) ∧
  (∀ (r : RoceReq) (data : List Byte) (q : Qp) (s : State), (qpOf s.dev r.qpn = some q ∧ hostRuns s.dev = true ∧ s.dev.host.rdma = [] ∧ r.icrc = true ∧ r.supported = true ∧ psnAhead r.psn q.psn = false ∧ psnBehind r.psn q.psn = false ∧ data.length ≤ 256 ∧ data ≠ [] ∧ q.mailbox < 64 ∧ (mbxCfg s.dev q.mailbox).testBit 31 = true ∧ (mbxCfg s.dev q.mailbox).testBit 30 = true ∧ q.system = true ∧ (mbxCfg s.dev q.mailbox).testBit 9 = true ∧ (s.dev.mbox q.mailbox).fifo.length < 16) → Runs (.rdmaSend r data) s (fun t => (t.dev.mbox q.mailbox).fifo = (s.dev.mbox q.mailbox).fifo ++ [⟨data, true, false, bits r.qpn 14 0, true, q.tenant, 0⟩] ∧ (qpOf t.dev r.qpn).map (·.psn) = some ((r.psn + rocePackets q data.length) % 2 ^ 24) ∧ t.mem = s.mem))

/-- Management packets, terms, heartbeats and takeover run. A MGMT packet enters the receive queue as a relay packet or as a message; a relay packet ends here or goes on; a CLAIM of a higher term is accepted; a candidate whose wait ends claims; heartbeats count misses, PROBE clears them or the standby claims; an unheard active manager fences itself. -/
def Obligations.BelfryRuns : Prop :=
  (∀ (p : Packet) (tag : Bool) (s : State), (s.dev.agt.rxq.length + s.dev.agt.msgs.length < 256 ∧ p.ptype = ptMgmt ∧ field p.payload 0 1 = 0xB1) → Runs (.mgmtPkt (some p) tag) s (fun t => t.dev = { s.dev with agt := { s.dev.agt with rxq := s.dev.agt.rxq ++ [(p, tag)] } } ∧ t.mem = s.mem)) ∧
  (∀ (p : Packet) (m : TMsg) (s : State), (s.dev.agt.rxq.length + s.dev.agt.msgs.length < 256 ∧ field p.payload 0 1 ≠ 0xB1 ∧ parseTosto (.fabric p.src) 192 p.payload = some m) → Runs (.mgmtPkt (some p) true) s (fun t => t.dev = { s.dev with agt := { s.dev.agt with msgs := s.dev.agt.msgs ++ [m] } } ∧ t.mem = s.mem)) ∧
  (∀ (p : Packet) (s : State), (s.dev.agt.rxq.length + s.dev.agt.msgs.length < 256 ∧ field p.payload 0 1 ≠ 0xB1) → Runs (.mgmtPkt (some p) false) s (fun t => t.dev.agt = s.dev.agt ∧ t.dev.rd Reg.ETH_AUTH_FAIL_COUNT = satAdd 32 (s.dev.rd Reg.ETH_AUTH_FAIL_COUNT) 1 ∧ t.dev.rtr = s.dev.rtr ∧ t.mem = s.mem)) ∧
  (∀ (p : Packet) (tag : Bool) (s : State), (256 ≤ s.dev.agt.rxq.length + s.dev.agt.msgs.length) → Runs (.mgmtPkt (some p) tag) s (fun t => t.dev.agt.rxq = s.dev.agt.rxq ∧ t.dev.agt.msgs = s.dev.agt.msgs ∧ t.dev.regs = s.dev.regs ∧ t.dev.rtr = s.dev.rtr ∧ t.mem = s.mem)) ∧
  (∀ (p : Packet) (tag : Bool) (port : Nat) (s : State), (field p.payload 2 1 < field p.payload 1 1 ∧ field p.payload 1 1 ≤ 64 ∧ port = listAt 0 (relayPath p.payload) (field p.payload 2 1) ∧ port ≤ 5 ∧ portTakes s.dev port (mgmtPacket false 0 (4 * port) (relayNext p.payload (bits p.via 4 2))) = true) → Runs (.relay (some p) tag) s (fun t => t.dev.rtr.offers = s.dev.rtr.offers ++ [mgmtPacket false 0 (4 * port) (relayNext p.payload (bits p.via 4 2))] ∧ t.dev.agt = s.dev.agt ∧ t.dev.regs = s.dev.regs ∧ t.mem = s.mem)) ∧
  (∀ (p : Packet) (m : TMsg) (s : State), (field p.payload 1 1 = field p.payload 2 1 ∧ 1 ≤ field p.payload 1 1 ∧ field p.payload 1 1 ≤ 64 ∧ parseTosto (.relay (if (field p.payload 4 2).testBit 15 then some (bits (field p.payload 4 2) 14 0) else none) (returnPath (bits p.via 4 2) (relayPath p.payload)) (field p.payload 6 2)) 160 (p.payload.drop 32) = some m) → Runs (.relay (some p) true) s (fun t => t.dev = { s.dev with agt := { s.dev.agt with msgs := s.dev.agt.msgs ++ [m] } } ∧ t.mem = s.mem)) ∧
  (∀ (p : Packet) (tag : Bool) (s : State), (field p.payload 1 1 = 0 ∨ 64 < field p.payload 1 1 ∨ field p.payload 1 1 < field p.payload 2 1) → Runs (.relay (some p) tag) s (fun t => t.dev.rd Reg.AGT_RELAY_DROP_COUNT = satAdd 32 (s.dev.rd Reg.AGT_RELAY_DROP_COUNT) 1 ∧ t.dev.agt = s.dev.agt ∧ t.dev.rtr = s.dev.rtr ∧ t.mem = s.mem)) ∧
  (∀ (m : TMsg) (s : State), (trioMode s.dev = false ∧ s.dev.rd Reg.AGT_TERM < field m.body 0 4 ∧ (∀ x, s.dev.agt.plan = some x → (field m.body 15 8 == x.id && x.cands.any (fun c => c.1 == field m.body 7 8 && c.2.2 == field m.body 6 1)) = true) ∧ belfryBody 4 m.body = true) → Runs (.claim (some m) true) s (fun t => t.dev.rd Reg.AGT_TERM = field m.body 0 4 ∧ t.dev.rd Reg.AGT_MANAGER = 0x8000 + bits (field m.body 4 2) 14 0 ∧ belRole t.dev = (if belRole s.dev = roActive ∨ belRole s.dev = roFenced then roCandidate else belRole s.dev) ∧ t.mem = s.mem)) ∧
  (∀ (m : TMsg) (s : State), (trioMode s.dev = false ∧ field m.body 0 4 ≤ s.dev.rd Reg.AGT_TERM ∧ belfryBody 4 m.body = true) → Runs (.claim (some m) true) s (fun t => t.dev = s.dev.answer m 6 (leBytes 4 (s.dev.rd Reg.AGT_TERM) ++ leBytes 2 (bits (s.dev.rd Reg.AGT_MANAGER) 15 0)) ∧ t.mem = s.mem)) ∧
  (∀ (m : TMsg) (s : State), (trioMode s.dev = false ∧ s.dev.rd Reg.AGT_TERM < field m.body 0 4 ∧ s.dev.domainOn 0x069 = true ∧ belfryBody 4 m.body = true) → Runs (.claim (some m) false) s (fun t => t.dev.rd Reg.AGT_TERM = s.dev.rd Reg.AGT_TERM ∧ t.dev.rd Reg.AGT_MANAGER = s.dev.rd Reg.AGT_MANAGER ∧ t.dev.rd Reg.AGT_CLAIM_INVALID_COUNT = satAdd 32 (s.dev.rd Reg.AGT_CLAIM_INVALID_COUNT) 1 ∧ t.dev.err 0x069 1 = true ∧ t.dev.rtr = s.dev.rtr ∧ t.mem = s.mem)) ∧
  (∀ (m : TMsg) (s : State), (s.dev.rd Reg.BEL_TERM < field m.body 0 4 ∧ belRole s.dev = roActive ∧ s.dev.domainOn 0x068 = true ∧ belfryBody 6 m.body = true) → Runs (.termNotice (some m)) s (fun t => belRole t.dev = roCandidate ∧ t.dev.bel.seenCount = max s.dev.bel.seenCount (field m.body 0 4 / 8) ∧ t.dev.mgr.scripts = [] ∧ t.dev.mgr.install = none ∧ t.dev.err 0x068 3 = true ∧ t.mem = s.mem)) ∧
  (∀ (x : Plan) (r : Nat) (s : State), (s.dev.bel.stagger = true ∧ belRole s.dev = roCandidate ∧ managerMa s.dev = none ∧ s.dev.agt.plan = some x ∧ myRank s.dev = some r) → Runs .claimStagger s (fun t => belRole t.dev = roActive ∧ t.dev.rd Reg.BEL_TERM = ((max (s.dev.rd Reg.AGT_TERM / 8) s.dev.bel.seenCount + 1) * 8 + (7 - r)) % 2 ^ 32 ∧ t.dev.rd Reg.AGT_TERM = t.dev.rd Reg.BEL_TERM ∧ t.dev.rd Reg.AGT_MANAGER = 0x8000 + myMa t.dev ∧ t.dev.bel.stagger = false ∧ t.mem = s.mem)) ∧
  (∀ (a : Nat) (s : State), (s.dev.bel.stagger = true ∧ belRole s.dev = roCandidate ∧ managerMa s.dev = some a ∧ originMa s.dev ≠ some a) → Runs .claimStagger s (fun t => t.dev = { s.dev with bel := { s.dev.bel with stagger := false } } ∧ t.mem = s.mem)) ∧
  (∀ (src : BitVec 15) (term : Word) (s : State), (s.dev.rd Reg.AGT_TERM = term.toNat ∧ managerMa s.dev = some src.toNat ∧ belRole s.dev = roCandidate) → Runs (.standby src term) s (fun t => belRole t.dev = roStandby ∧ t.dev.rd Reg.BEL_TERM = term.toNat ∧ t.dev.bel.mate = some src.toNat ∧ t.dev.rd Reg.AGT_TERM = term.toNat ∧ t.dev.out = s.dev.out ∧ t.mem = s.mem)) ∧
  (∀ (src : BitVec 15) (term : Word) (s : State), (s.dev.rd Reg.AGT_TERM ≠ term.toNat) → Runs (.standby src term) s (fun t => belRole t.dev = belRole s.dev ∧ t.dev.rd Reg.BEL_TERM = s.dev.rd Reg.BEL_TERM ∧ t.dev.rd Reg.AGT_TERM_STALE_COUNT = satAdd 32 (s.dev.rd Reg.AGT_TERM_STALE_COUNT) 1 ∧ t.dev.bel = s.dev.bel ∧ t.mem = s.mem)) ∧
  (∀ (m : TMsg) (s : State), (belfryBody 1 m.body = false) → Runs (.heartbeat (some m)) s (fun t => t = s)) ∧
  (∀ (m : TMsg) (a : Nat) (s : State), (msgMa m = some a ∧ (hbMates s.dev).contains a = true ∧ belRole s.dev ≠ roFenced ∧ belfryBody 1 m.body = true) → Runs (.heartbeat (some m)) s (fun t => (hbPeer t.dev a).seq = max (hbPeer s.dev a).seq (field m.body 4 4) ∧ (hbPeer t.dev a).ack = max (hbPeer s.dev a).ack (field m.body 8 4) ∧ (hbPeer t.dev a).got = ((hbPeer s.dev a).got || (!(field m.body 12 1).testBit 0 && decide (s.dev.rd Reg.BEL_TERM ≤ field m.body 0 4))) ∧ t.dev.bel.seenCount = max s.dev.bel.seenCount (field m.body 0 4 / 8) ∧ t.dev.regs = s.dev.regs ∧ t.dev.rtr = s.dev.rtr ∧ t.mem = s.mem)) ∧
  (∀ (m : TMsg) (a : Nat) (s : State), (msgMa m = some a ∧ (hbMates s.dev).contains a = true ∧ belRole s.dev = roFenced ∧ (hbPeer s.dev a).ack < field m.body 8 4 ∧ field m.body 0 4 = s.dev.rd Reg.BEL_TERM ∧ belfryBody 1 m.body = true) → Runs (.heartbeat (some m)) s (fun t => belRole t.dev = roActive ∧ (hbPeer t.dev a).ack = field m.body 8 4 ∧ (hbPeer t.dev a).acked = true ∧ t.mem = s.mem)) ∧
  (∀ (a : Nat) (s : State), (belRole s.dev = roStandby ∧ s.dev.bel.mate = some a ∧ s.dev.bel.silent < 2 ∧ originMa s.dev ≠ some a) → Runs .heartbeatPeriod s (fun t => (hbPeer t.dev a).misses = (if (hbPeer s.dev a).got then 0 else (hbPeer s.dev a).misses + 1) ∧ (hbPeer t.dev a).unacked = (if (hbPeer s.dev a).acked then 0 else (hbPeer s.dev a).unacked + 1) ∧ t.dev.bel.hbSeq = (s.dev.bel.hbSeq + 1) % 2 ^ 32 ∧ t.dev.bel.silent = min 2 (s.dev.bel.silent + 1) ∧ t.dev.rtr.offers.take s.dev.rtr.offers.length = s.dev.rtr.offers ∧ (t.dev.rtr.offers.drop s.dev.rtr.offers.length).map (fun p => (p.ptype, p.dest)) = [(ptMgmt, a)] ∧ t.mem = s.mem)) ∧
  (∀ (a : Nat) (s : State), (belRole s.dev = roStandby ∧ s.dev.bel.mate = some a ∧ 2 ≤ s.dev.bel.silent) → Runs .heartbeatPeriod s (fun t => t.dev.rtr = s.dev.rtr ∧ t.dev.bel.hbSeq = s.dev.bel.hbSeq ∧ t.dev.bel.silent = 2 ∧ t.mem = s.mem)) ∧
  (∀ (a : Nat) (s : State), (belRole s.dev = roStandby ∧ s.dev.bel.mate = some a ∧ s.dev.rd Reg.BEL_HB_MISS ≤ (hbPeer s.dev a).misses ∧ (hbPeer s.dev a).probe = none ∧ relayPathTo s.dev a = none ∧ originMa s.dev ≠ some a) → Runs .hbMiss s (fun t => (hbPeer t.dev a).probe = some (s.dev.fresh % 2 ^ 64) ∧ t.dev.rtr.offers = s.dev.rtr.offers ++ [mgmtPacket true a a (fabricBytes ⟨.fabric a, famBelfry, 2, false, 0, 0, OK, leBytes 4 (s.dev.rd Reg.BEL_TERM) ++ leBytes 8 (s.dev.fresh % 2 ^ 64)⟩)] ∧ t.dev.regs = s.dev.regs ∧ t.mem = s.mem)) ∧
  (∀ (a : Nat) (path : List Nat) (s : State), (belRole s.dev = roStandby ∧ s.dev.bel.mate = some a ∧ s.dev.rd Reg.BEL_HB_MISS ≤ (hbPeer s.dev a).misses ∧ (hbPeer s.dev a).probe = none ∧ relayPathTo s.dev a = some path) → Runs .hbMiss s (fun t => (hbPeer t.dev a).probe = some (s.dev.fresh % 2 ^ 64) ∧ t.dev = ((s.dev.used.setHbPeer a { hbPeer s.dev a with probe := some (s.dev.fresh % 2 ^ 64) }).sendMsg ⟨.fabric a, famBelfry, 2, false, 0, 0, OK, leBytes 4 (s.dev.rd Reg.BEL_TERM) ++ leBytes 8 (s.dev.fresh % 2 ^ 64)⟩).sendMsg ⟨.relay none path 0, famBelfry, 2, false, 0, 0, OK, leBytes 4 (s.dev.rd Reg.BEL_TERM) ++ leBytes 8 (s.dev.fresh % 2 ^ 64)⟩ ∧ t.mem = s.mem)) ∧
  (∀ (m : TMsg) (s : State), ((belRole s.dev = roActive ∨ belRole s.dev = roFenced ∨ belRole s.dev = roVoter) ∧ belfryBody 2 m.body = true) → Runs (.probe (some m)) s (fun t => t.dev = s.dev.answer m 3 (leBytes 4 (s.dev.rd Reg.BEL_TERM) ++ slice m.body 4 8 ++ leBytes 1 (b2n (belRole s.dev == roFenced))) ∧ t.dev.regs = s.dev.regs ∧ t.mem = s.mem)) ∧
  (∀ (m : TMsg) (a : Nat) (s : State), ((hbMates s.dev).find? (fun a => (hbPeer s.dev a).probe == some (field m.body 4 8)) = some a ∧ field m.body 0 4 = s.dev.rd Reg.BEL_TERM ∧ (field m.body 12 1).testBit 0 = false ∧ belfryBody 3 m.body = true) → Runs (.probeAck (some m)) s (fun t => (hbPeer t.dev a).probe = none ∧ (hbPeer t.dev a).misses = 0 ∧ (hbPeer t.dev a).silent = false ∧ t.dev.rd Reg.BEL_HB_LATE_COUNT = satAdd 32 (s.dev.rd Reg.BEL_HB_LATE_COUNT) 1 ∧ belRole t.dev = belRole s.dev ∧ t.mem = s.mem)) ∧
  (∀ (a : Nat) (x : Plan) (r : Nat) (s : State), (belRole s.dev = roStandby ∧ s.dev.bel.mate = some a ∧ (hbPeer s.dev a).probe.isSome = true ∧ s.dev.agt.plan = some x ∧ myRank s.dev = some r) → Runs .probeTimeout s (fun t => belRole t.dev = roActive ∧ t.dev.rd Reg.BEL_TERM = ((max (s.dev.rd Reg.AGT_TERM / 8) s.dev.bel.seenCount + 1) * 8 + (7 - r)) % 2 ^ 32 ∧ t.dev.rd Reg.BEL_TAKEOVER_COUNT = satAdd 32 (s.dev.rd Reg.BEL_TAKEOVER_COUNT) 1 ∧ t.dev.bel.mate = none ∧ t.mem = s.mem)) ∧
  (∀ (a c : Nat) (s : State), (belRole s.dev = roVoter ∧ (hbMates s.dev).find? (fun a => (hbPeer s.dev a).probe.isSome) = some a ∧ (voters s.dev).find? (fun v => v.2 == a) = some (2, a) ∧ nextCandidate s.dev ((voters s.dev).map (·.2)) = some c) → Runs .probeTimeout s (fun t => (hbPeer t.dev a).silent = true ∧ t.dev = (s.dev.setHbPeer a { hbPeer s.dev a with probe := none, silent := true }).mgrTell (allSends s.dev (keyWrite Reg.AGT_VOTER2 (0x8000 + c))) ∧ t.mem = s.mem)) ∧
  (∀ (a : Nat) (s : State), (s.dev.bel.mate = some a ∧ belRole s.dev = roActive ∧ s.dev.rd Reg.BEL_FENCE_MISS ≤ (hbPeer s.dev a).unacked ∧ s.dev.domainOn 0x068 = true) → Runs .fence s (fun t => belRole t.dev = roFenced ∧ t.dev.rd Reg.BEL_FENCE_COUNT = satAdd 32 (s.dev.rd Reg.BEL_FENCE_COUNT) 1 ∧ t.dev.err 0x068 2 = true ∧ (∀ p ∈ t.dev.rtr.offers, isManagerWrite s.dev p = false) ∧ t.mem = s.mem))

/-- Votes, the agent's plan, and the generator run. A vote entry's window ends; DISCOVER is answered; a plan readmits or excludes the module; RTR_MA takes an address unless a bank is LIVE; ROUTE_PREPARE seals a bank; RTB_GEN counts its fill. -/
def Obligations.RoutesRun : Prop :=
  (∀ (i : Byte) (v : Vote) (s : State), (SMap.get (fun _ => none) s.dev.agt.votes i.toNat = some v ∧ v.applied = false ∧ s.dev.domainOn 0x069 = true) → Runs (.voteWindowEnd i) s (fun t => SMap.get (fun _ => none) t.dev.agt.votes i.toNat = none ∧ t.dev.rd Reg.AGT_VOTE_EXPIRED_COUNT = satAdd 32 (s.dev.rd Reg.AGT_VOTE_EXPIRED_COUNT) 1 ∧ t.dev.err 0x069 2 = true ∧ t.mem = s.mem)) ∧
  (∀ (i : Byte) (v : Vote) (s : State), (SMap.get (fun _ => none) s.dev.agt.votes i.toNat = some v ∧ v.applied = true) → Runs (.voteWindowEnd i) s (fun t => SMap.get (fun _ => none) t.dev.agt.votes i.toNat = none ∧ t.dev.regs = s.dev.regs ∧ t.dev.out = s.dev.out ∧ t.mem = s.mem)) ∧
  (∀ (m : TMsg) (s : State), (belfryBody 7 m.body = true) → Runs (.discover (some m)) s (fun t => t.dev = s.dev.answer m 8 (leBytes 8 Config.serial ++ leBytes 4 (agtWord s.dev) ++ leBytes 4 (digestPrefix s.dev) ++ ((upFrom 0 6).map (discoverPort s.dev)).flatten) ∧ t.dev.regs = s.dev.regs ∧ t.mem = s.mem)) ∧
  (∀ (master : Byte) (value : Word) (s : State), (writeTaken s.dev master.toNat (mAddr Reg.AGT_PORT_PLAN) 32 value.toNat ∧ value.toNat.testBit 30 = true ∧ (agtSt s.dev = agUnaddressed ∨ agtSt s.dev = agAddressed ∨ agtSt s.dev = agNotReady ∨ agtSt s.dev = agReady)) → Runs (.agtPortPlanWrite master value) s (fun t => agtSt t.dev = agExcluded ∧ t.mem = s.mem)) ∧
  (∀ (master : Byte) (value : Word) (s : State), (writeTaken s.dev master.toNat (mAddr Reg.AGT_PORT_PLAN) 32 value.toNat ∧ value.toNat.testBit 30 = false ∧ value.toNat.testBit 31 = true ∧ agtSt s.dev = agAddressed) → Runs (.agtPortPlanWrite master value) s (fun t => agtSt t.dev = (if allAgree t.dev then agReady else agNotReady) ∧ (t.dev.rd Reg.AGT_PORT_PLAN).testBit 31 = true ∧ written s t master.toNat (mAddr Reg.AGT_PORT_PLAN) ∧ t.mem = s.mem)) ∧
  (∀ (master : Byte) (value : Word) (s : State), (writeTaken s.dev master.toNat (mAddr Reg.RTR_MA) 32 value.toNat ∧ anyLive s.dev = false) → Runs (.rtrMaWrite master value) s (fun t => t.dev.rd Reg.RTR_MA = bits value.toNat 15 0 ∧ (value.toNat.testBit 15 = true → agtSt s.dev = agUnaddressed → (s.dev.rd Reg.AGT_PORT_PLAN).testBit 31 = false → agtSt t.dev = agAddressed) ∧ t.mem = s.mem)) ∧
  (∀ (master : Byte) (value : Word) (s : State), (writeTaken s.dev master.toNat (mAddr Reg.RTR_MA) 32 value.toNat ∧ anyLive s.dev = true) → Runs (.rtrMaWrite master value) s (fun t => t.dev.rd Reg.RTR_MA = s.dev.rd Reg.RTR_MA ∧ agtSt t.dev = agtSt s.dev ∧ t.dev.out.getLast? = some (.access master.toNat (mAddr Reg.RTR_MA) OUT_OF_RANGE 0) ∧ t.mem = s.mem)) ∧
  (∀ (m : TMsg) (s : State), (trioMode s.dev = false ∧ field m.body 0 4 = s.dev.rd Reg.AGT_TERM ∧ (msgMa m).isSome = true ∧ msgMa m = managerMa s.dev ∧ field m.body 17 1 = 4 ∧ prepareBodyOk m.body = true ∧ preparedMas m.body = [] ∧ bankState s.dev (field m.body 4 4 % 2) = 0 ∧ anyLive s.dev = false ∧ 1 ≤ field m.body 4 4) → Runs (.routePrepare (some m)) s (fun t => bankState t.dev (field m.body 4 4 % 2) = 1 ∧ bankEpoch t.dev (field m.body 4 4 % 2) = field m.body 4 4 ∧ t.dev.rd Reg.AGT_TERM = s.dev.rd Reg.AGT_TERM ∧ t.mem = s.mem)) ∧
  (∀ (m : TMsg) (s : State), (trioMode s.dev = false ∧ field m.body 0 4 < s.dev.rd Reg.AGT_TERM) → Runs (.routePrepare (some m)) s (fun t => t.dev.rd Reg.AGT_TERM_STALE_COUNT = satAdd 32 (s.dev.rd Reg.AGT_TERM_STALE_COUNT) 1 ∧ t.dev.rd Reg.RTB_BANK_STATE = s.dev.rd Reg.RTB_BANK_STATE ∧ t.dev.rtr.routes = s.dev.rtr.routes ∧ t.mem = s.mem)) ∧
  (∀ (master : Byte) (value : Word) (s : State), (writeTaken s.dev master.toNat (mAddr Reg.RTB_GEN) 32 value.toNat ∧ bankState s.dev (value.toNat % 2) = 0 ∧ maValid s.dev = true) → Runs (.rtbGen master value) s (fun t => t.dev.rd Reg.RTB_GEN_COUNT = satAdd 32 (s.dev.rd Reg.RTB_GEN_COUNT) 1 ∧ t.dev.rd Reg.RTB_GEN_LAST = 2 ^ 31 + value.toNat % 2 * 2 ^ 16 + validEntries t.dev (value.toNat % 2) ∧ written s t master.toNat (mAddr Reg.RTB_GEN) ∧ t.mem = s.mem)) ∧
  (∀ (master : Byte) (value : Word) (s : State), (writeTaken s.dev master.toNat (mAddr Reg.RTB_GEN) 32 value.toNat ∧ bankState s.dev (value.toNat % 2) ≠ 0) → Runs (.rtbGen master value) s (fun t => t.dev.rd Reg.RTB_GEN_COUNT = s.dev.rd Reg.RTB_GEN_COUNT ∧ t.dev.rtr = s.dev.rtr ∧ t.dev.out = s.dev.out ++ [.access master.toNat (mAddr Reg.RTB_GEN) EPOCH_STALE 0] ∧ t.mem = s.mem)) ∧
  (∀ (master : Byte) (value : Word) (s : State), (writeTaken s.dev master.toNat (mAddr Reg.RTB_GEN) 32 value.toNat ∧ bankState s.dev (value.toNat % 2) = 0 ∧ maValid s.dev = true ∧ s.dev.domainOn 0x029 = true) → Runs (.genFault master value) s (fun t => bankState t.dev (value.toNat % 2) = 0 ∧ t.dev.err 0x029 3 = true ∧ t.dev.out.getLast? = some (.access master.toNat (mAddr Reg.RTB_GEN) TIMEOUT 0) ∧ t.mem = s.mem)) ∧
  (∀ (s : State), (s.dev.rd Reg.AGT_CMAP_PERIOD ≠ 0 ∧ s.dev.rd Reg.AGT_CMAP_PERIOD ≤ s.dev.agt.cmapCount ∧ (managers s.dev).any (canSend s.dev) = true) → Runs .cmapSummaryDue s (fun t => t.dev.rd Reg.AGT_CMAP_SENT = satAdd 32 (s.dev.rd Reg.AGT_CMAP_SENT) 1 ∧ t.dev.agt.cmapCount = 0 ∧ t.dev.agt.cmap = s.dev.agt.cmap ∧ t.dev.out = s.dev.out ∧ t.mem = s.mem)) ∧
  (∀ (s : State), (s.dev.rd Reg.AGT_CMAP_PERIOD ≤ s.dev.agt.cmapCount ∧ (s.dev.rd Reg.AGT_CMAP_PERIOD = 0 ∨ (managers s.dev).any (canSend s.dev) = false)) → Runs .cmapSummaryDue s (fun t => t.dev = { s.dev with agt := { s.dev.agt with cmapCount := 0 } } ∧ t.mem = s.mem)) ∧
  (∀ (s : State), (s.dev.agt.cmapCount < s.dev.rd Reg.AGT_CMAP_PERIOD) → Runs .cmapSummaryDue s (fun t => t.dev = s.dev ∧ t.mem = s.mem))

/-- The manager places modules, runs its scripts, and acts on failures. A module that acknowledged is asked what it meets and placed by its answer; reports of readiness are kept and a slice whose member leaves is DEGRADED; answers end the waits of a script; a module silent at 1 ms is lost; a drained bank is FREE. -/
def Obligations.ManagerRuns : Prop :=
  (∀ (b : Fin 2) (s : State), (bankState s.dev b.val = 3 ∧ belRole s.dev ≠ roActive) → Runs (.drainTimer b) s (fun t => bankState t.dev b.val = 0 ∧ t.dev.rd Reg.RTB_DRAIN_LEFT = 0 ∧ t.dev.out = s.dev.out ++ [.report 0 b.val (bankEpoch s.dev b.val)] ∧ t.dev.mgr = s.dev.mgr ∧ t.mem = s.mem)) ∧
  (∀ (m : TMsg) (ma : Nat) (s : State), (belRole s.dev = roActive ∧ field m.body 0 4 = s.dev.rd Reg.BEL_TERM ∧ m.src = .fabric ma ∧ hasRoute s.dev ma = true ∧ originMa s.dev ≠ some ma ∧ (s.dev.mgr.scripts.map (·.waits)).flatten.filter (fun w => w.2.ma == ma && w.2.writes) = [] ∧ belfryBody 5 m.body = true) → Runs (.claimAck (some m)) s (fun t => (mgrMod t.dev ma).any (fun y => y.acked) = true ∧ t.dev.rtr.offers = s.dev.rtr.offers ++ [mgmtPacket true ma ma (fabricBytes ⟨.fabric ma, famBelfry, 7, false, s.dev.mgr.tag, s.dev.mgr.tag, OK, leBytes 4 (s.dev.rd Reg.BEL_TERM)⟩)] ∧ t.dev.regs = s.dev.regs ∧ t.mem = s.mem)) ∧
  (∀ (m : TMsg) (ma : Nat) (s : State), (belRole s.dev = roActive ∧ field m.body 0 4 = s.dev.rd Reg.BEL_TERM ∧ m.src = .fabric ma ∧ belfryBody 5 m.body = true) → Runs (.claimAck (some m)) s (fun t => (mgrMod t.dev ma).any (fun y => y.acked) = true ∧ t.dev = ((s.dev.setMgrMod ma (some { (mgrMod s.dev ma).getD MgrMod.new with acked := true })).resendTo ma).mgrTo ma famBelfry 7 (leBytes 4 (s.dev.rd Reg.BEL_TERM)) ∧ t.mem = s.mem)) ∧
  (∀ (m : TMsg) (o : Option Nat) (path : List Nat) (rt : Nat) (s : State), (belRole s.dev = roActive ∧ field m.body 0 4 = s.dev.rd Reg.BEL_TERM ∧ m.src = .relay o path rt ∧ s.dev.mgr.frontier.contains path = true ∧ field m.body 4 4 = 0 ∧ belfryBody 5 m.body = true) → Runs (.claimAck (some m)) s (fun t => t.dev = s.dev.mgrRelay path famBelfry 7 (leBytes 4 (s.dev.rd Reg.BEL_TERM)) ∧ t.dev.mgr.mods = s.dev.mgr.mods ∧ t.dev.regs = s.dev.regs ∧ t.mem = s.mem)) ∧
  (∀ (m : TMsg) (s : State), ((belRole s.dev ≠ roActive ∨ field m.body 0 4 ≠ s.dev.rd Reg.BEL_TERM) ∧ belfryBody 5 m.body = true) → Runs (.claimAck (some m)) s (fun t => t.dev = s.dev ∧ t.mem = s.mem)) ∧
  (∀ (m : TMsg) (ma : Nat) (x : Plan) (s : State), (s.dev.agt.plan = some x ∧ servesJobs s.dev = true ∧ m.src = .fabric ma ∧ ma ≠ myMa s.dev ∧ (mgrMod s.dev (myMa s.dev)).any (fun y => y.acked) = true ∧ belfryBody 8 m.body = true) → Runs (.discoverReply (some m)) s (fun t => t.dev = s.dev.placeSelf.placeMod x true ma { (mgrMod s.dev.placeSelf ma).getD MgrMod.new with serial := field m.body 0 8, agt := field m.body 8 4, dig := field m.body 12 4, ports := replyPorts m.body, acked := true } ∧ (mgrMod t.dev ma).any (fun y => y.serial == field m.body 0 8 && y.agt == field m.body 8 4 && y.ports == replyPorts m.body && y.acked && y.outcome == outcomeOf s.dev.placeSelf x ma (field m.body 0 8) (field m.body 8 4) (field m.body 12 4) (protoSeen s.dev.placeSelf (field m.body 0 8))) = true ∧ t.mem = s.mem)) ∧
  (∀ (m : TMsg) (o : Option Nat) (path : List Nat) (rt at_ p ma : Nat) (x : Plan) (s : State), (s.dev.agt.plan = some x ∧ servesJobs s.dev = true ∧ m.src = .relay o path rt ∧ s.dev.mgr.frontier.contains path = true ∧ at_ = pathEnd x (myMa s.dev) (path.take (path.length - 1)) ∧ p = path.getLastD 0 ∧ ma = (x.far at_ p).1 ∧ ma ≠ myMa s.dev ∧ x.empty ma = false ∧ belfryBody 8 m.body = true) → Runs (.discoverReply (some m)) s (fun t => (mgrMod t.dev ma).any (fun y => y.path == path && y.serial == field m.body 0 8 && y.agt == field m.body 8 4 && y.acked && ((x.pos ma).1 == 0 || (x.pos ma).1 == field m.body 0 8 || y.outcome != 1)) = true ∧ t.dev.mgr.frontier.contains path = false ∧ t.mem = s.mem)) ∧
  (∀ (m : TMsg) (y : MgrMod) (s : State), (mgrMod s.dev (bits (field m.body 4 2) 14 0) = some y ∧ bits (field m.body 0 4) 3 0 = agReady ∧ (∀ x, s.dev.agt.plan = some x → transitSends s.dev x (bits (field m.body 4 2) 14 0) (field m.body 0 4) = []) ∧ belfryBody 9 m.body = true) → Runs (.readyChange (some m)) s (fun t => mgrMod t.dev (bits (field m.body 4 2) 14 0) = some { y with agt := field m.body 0 4, lost := false } ∧ t.dev.mgr.excluded = s.dev.mgr.excluded.filter (fun x => x != bits (field m.body 4 2) 14 0) ∧ t.dev.mgr.settling = (if y.lost ∨ bits y.agt 3 0 ≠ agReady then routesExist s.dev else s.dev.mgr.settling) ∧ t.dev.regs = s.dev.regs ∧ t.mem = s.mem)) ∧
  (∀ (m : TMsg) (y : MgrMod) (ten : Nat) (z : Slice) (s : State), (mgrMod s.dev (bits (field m.body 4 2) 14 0) = some y ∧ bits (field m.body 0 4) 3 0 ≠ agReady ∧ bits y.agt 3 0 = agReady ∧ s.dev.mgr.slices.find? (fun e => match e.2 with | some y => y.members.contains (bits (field m.body 4 2) 14 0) | none => false) = some (ten, some z) ∧ z.st = 2 ∧ belfryBody 9 m.body = true) → Runs (.readyChange (some m)) s (fun t => (mgrMod t.dev (bits (field m.body 4 2) 14 0)).any (fun y => y.agt == field m.body 0 4) = true ∧ t.dev.mgr.settling = true ∧ sliceOf t.dev ten = some { z with st := 3, last := OK, members := z.members.filter (fun x => x != bits (field m.body 4 2) 14 0) } ∧ t.dev.out = s.dev.out ++ [.report 4 ten (3 * 256 + OK)] ∧ t.dev.regs = s.dev.regs ∧ t.mem = s.mem)) ∧
  (∀ (m : TMsg) (stages : List (List MgrSend)) (waits : List (Nat × MgrSend)) (s : State), (s.dev.mgr.scripts = [⟨.install, stages, waits⟩] ∧ field m.body 5 1 = OK ∧ waits.any (fun w => w.1 == m.rtag) = true ∧ waits.filter (fun w => w.1 != m.rtag) ≠ [] ∧ belfryBody 14 m.body = true) → Runs (.routeReady (some m)) s (fun t => t.dev = { s.dev with mgr := { s.dev.mgr with scripts := [⟨.install, stages, waits.filter (fun w => w.1 != m.rtag)⟩] } } ∧ t.mem = s.mem)) ∧
  (∀ (m : TMsg) (w x : MgrSend) (tag : Nat) (s : State), (s.dev.mgr.scripts = [⟨.install, [[x]], [(m.rtag, w)]⟩] ∧ field m.body 5 1 = OK ∧ tag = s.dev.mgr.tag ∧ x.family ≠ 0 ∧ belfryBody 14 m.body = true) → Runs (.routeReady (some m)) s (fun t => t.dev.mgr.scripts = [⟨.install, [], [(tag, x)]⟩] ∧ t.dev.mgr.tag = (tag + 1) % 2 ^ 16 ∧ t.mem = s.mem)) ∧
  (∀ (m : TMsg) (ten : Nat) (stages : List (List MgrSend)) (x : MgrSend) (y : Slice) (s : State), (s.dev.mgr.scripts = [⟨.setup ten, stages, [(m.rtag, x)]⟩] ∧ field m.body 0 1 ≠ OK ∧ sliceOf s.dev ten = some y ∧ y.st = 1 ∧ y.members = [] ∧ y.contained = false ∧ belfryBody 17 m.body = true) → Runs (.policyDone (some m)) s (fun t => t.dev.mgr.scripts = [] ∧ sliceOf t.dev ten = none ∧ t.dev.out = s.dev.out ++ [.report 4 ten (4 * 256 + field m.body 0 1), .report 4 ten (field m.body 0 1)] ∧ t.dev.regs = s.dev.regs ∧ t.mem = s.mem)) ∧
  (∀ (m : TMsg) (ten : Nat) (x : MgrSend) (y : Slice) (s : State), (s.dev.mgr.scripts = [⟨.setup ten, [], [(m.rtag, x)]⟩] ∧ field m.body 0 1 = OK ∧ sliceOf s.dev ten = some y ∧ y.contained = false ∧ belfryBody 17 m.body = true) → Runs (.policyDone (some m)) s (fun t => t.dev.mgr.scripts = [] ∧ sliceOf t.dev ten = some { y with st := 2, last := OK } ∧ t.dev.out = s.dev.out ++ [.report 4 ten (2 * 256 + OK)] ∧ t.dev.regs = s.dev.regs ∧ t.mem = s.mem)) ∧
  (∀ (ma : BitVec 15) (tag : Nat) (body : List Byte) (stages : List (List MgrSend)) (s : State), (s.dev.mgr.scripts = [⟨.install, stages, [(tag, ⟨ma.toNat, famBelfry, 13, body⟩)]⟩] ∧ reaches s.dev ma.toNat = true ∧ originMa s.dev ≠ some ma.toNat ∧ mayWrite s.dev ma.toNat = true) → Runs (.routePrepareResend ma) s (fun t => t.dev = s.dev.offer (mgmtPacket true ma.toNat ma.toNat (fabricBytes ⟨.fabric ma.toNat, famBelfry, 13, false, (if trioMode s.dev then Config.writeSeq ma.toNat famBelfry 13 (body.drop 4) % 2 ^ 32 else tag), tag, OK, body⟩)) ∧ t.mem = s.mem)) ∧
  (∀ (ma : BitVec 15) (y : MgrMod) (s : State), ((s.dev.mgr.scripts.map (·.waits)).flatten.any (fun w => w.2.ma == ma.toNat && w.2.code == 13) = true ∧ mgrMod s.dev ma.toNat = some y ∧ ma.toNat ≠ myMa s.dev) → Runs (.routePrepareLost ma) s (fun t => (mgrMod t.dev ma.toNat).any (·.lost) = true ∧ t.dev.mgr.excluded.contains ma.toNat = true ∧ t.mem = s.mem)) ∧
  (∀ (x : Plan) (s : State), (s.dev.agt.plan = some x ∧ s.dev.mgr.settling = true ∧ belRole s.dev = roActive) → Runs .failureSettle s (fun t => t.dev.mgr.settling = false ∧ (t.dev.mgr.install.isSome = true ∨ t.dev.mgr.again = true) ∧ t.mem = s.mem)) ∧
  (∀ (m : TMsg) (ma : Nat) (y : MgrMod) (s : State), (msgMa m = some ma ∧ mgrMod s.dev ma = some y ∧ s.dev.bel.mate ≠ some ma ∧ belfryBody 15 m.body = true) → Runs (.cmapSummary (some m)) s (fun t => (mgrMod t.dev ma).any (fun z => z.cmap == m.body && z.singleFed == ((field m.body 10 2).testBit 8 || (field m.body 10 2).testBit 9) && z.outcome == y.outcome && z.serial == y.serial && (upFrom 0 6).all (fun p => (z.port p).2.1 == (if field m.body (27 + 9 * p) 1 = LnkSt.hold.code ∨ field m.body 8 2 = 0 then (y.port p).2.1 else field m.body (27 + 9 * p) 1))) = true ∧ t.dev.bel = s.dev.bel ∧ t.dev.regs = s.dev.regs ∧ t.mem = s.mem))

/-- Messages reach registers, mailboxes and the policy. A first vote is held and a second one applies; a REG READ answers what its entries read and a REG WRITE how many it applied; a stale term is refused; POST enters a mailbox; POLICY_SET writes entries outside those that Strongroom keeps; DEBUG ACCESS reads in OBSERVE and above. -/
def Obligations.MessagesReachRegisters : Prop :=
  (∀ (src : BitVec 15) (wseq : Word) (addr : BitVec 40) (width : Nat) (value : BitVec 64) (i : Nat) (s : State), (trioMode s.dev = true ∧ ((voters s.dev).map (·.2)).contains src.toNat = true ∧ (voteList s.dev).any (fun e => e.2.wseq == wseq.toNat) = false ∧ (upFrom 0 256).find? (fun i => !(voteList s.dev).any (fun e => e.1 == i)) = some i) → Runs (.votedWrite src wseq addr width value) s (fun t => t.dev.agt = { s.dev.agt with votes := SMap.put (fun _ => none) s.dev.agt.votes i (some ⟨wseq.toNat, addr.toNat, width, value.toNat % 2 ^ (8 * width), [src.toNat], false, none, (0, 0)⟩) } ∧ t.dev.out = s.dev.out ++ [.access 0x80 addr.toNat OK 0] ∧ t.dev.regs = s.dev.regs ∧ t.mem = s.mem)) ∧
  (∀ (src : BitVec 15) (wseq : Word) (value : BitVec 64) (i : Nat) (v : Vote) (s : State), (trioMode s.dev = true ∧ ((voters s.dev).map (·.2)).contains src.toNat = true ∧ (voteList s.dev).find? (fun e => e.2.wseq == wseq.toNat && e.2.addr == mAddr Reg.AGT_VOTER2 && e.2.width == 4 && e.2.value == value.toNat % 2 ^ 32) = some (i, v) ∧ v.voters.contains src.toNat = false ∧ v.applied = false ∧ writeTaken s.dev 0x80 (mAddr Reg.AGT_VOTER2) 32 (value.toNat % 2 ^ 32)) → Runs (.votedWrite src wseq (BitVec.ofNat 40 (mAddr Reg.AGT_VOTER2)) 4 value) s (fun t => t.dev.rd Reg.AGT_VOTER2 = value.toNat % 2 ^ 32 ∧ SMap.get (fun _ => none) t.dev.agt.votes i = some { v with voters := v.voters ++ [src.toNat], applied := true } ∧ t.dev.out = s.dev.out ++ [.access 0x80 (mAddr Reg.AGT_VOTER2) OK 0] ∧ t.mem = s.mem)) ∧
  (∀ (src : BitVec 15) (wseq : Word) (addr : BitVec 40) (width : Nat) (value : BitVec 64) (s : State), (trioMode s.dev = true ∧ ((voters s.dev).map (·.2)).contains src.toNat = false) → Runs (.votedWrite src wseq addr width value) s (fun t => t.dev = s.dev.send (.access 0x80 addr.toNat NOT_VOTER 0) ∧ t.mem = s.mem)) ∧
  (∀ (m : TMsg) (i v : Nat) (s : State), (trioMode s.dev = false ∧ field m.body 0 4 = s.dev.rd Reg.AGT_TERM ∧ (msgMa m).isSome = true ∧ msgMa m = managerMa s.dev ∧ policyEntries m.body = [(i, v)] ∧ 64 ≤ i ∧ i < 256 ∧ v.testBit 15 = true ∧ 0x10 ≤ bits v 55 48 ∧ bits v 55 48 ≤ bits v 63 56 ∧ bits v 63 56 ≤ 0x1F ∧ bits v 35 24 ≤ bits v 47 36) → Runs (.policySet (some m)) s (fun t => t.dev.acc.policy = SMap.put (fun _ => 0) s.dev.acc.policy i (v &&& 0xFFFFFFFFFF00F000) ∧ t.dev.regs = s.dev.regs ∧ t.mem = s.mem)) ∧
  (∀ (m : TMsg) (s : State), (trioMode s.dev = false ∧ field m.body 0 4 = s.dev.rd Reg.AGT_TERM ∧ (msgMa m).isSome = true ∧ msgMa m = managerMa s.dev ∧ policyDeclined (policyEntries m.body) = true ∧ 1 ≤ field m.body 4 1 ∧ field m.body 4 1 ≤ 7) → Runs (.policySet (some m)) s (fun t => t.dev = s.dev.policyDone m ACCESS_DENIED 0 ∧ t.dev.acc = s.dev.acc ∧ t.mem = s.mem)) ∧
  (∀ (m : TMsg) (s : State), (trioMode s.dev = false ∧ field m.body 0 4 = s.dev.rd Reg.AGT_TERM ∧ (msgMa m).isSome = true ∧ msgMa m = managerMa s.dev ∧ (field m.body 4 1 = 0 ∨ 7 < field m.body 4 1)) → Runs (.policySet (some m)) s (fun t => t.dev = s.dev.policyDone m OUT_OF_RANGE 0 ∧ t.dev.acc = s.dev.acc ∧ t.mem = s.mem)) ∧
  (∀ (m : TMsg) (slot : Fin 16) (addr v : Nat) (s : State), (served s.dev m famReg 1 ∧ m.reply = false ∧ m.src = .host slot ∧ readEntries m.body = some [(addr, 4)] ∧ readTaken s.dev (0x10 + slot.val) addr 32 ∧ s.dev.readAt (0x10 + slot.val) addr 32 = (OK, v, s.dev) ∧ quiet s.dev) → Runs (.regRead (some m)) s (fun t => t.dev = (s.dev.settleStatus (0x10 + slot.val) addr OK).reply (reqOf m famReg 1) OK (readItem OK v) ∧ t.mem = s.mem)) ∧
  (∀ (m : TMsg) (s : State), (served s.dev m famReg 1 ∧ m.reply = false ∧ readEntries m.body = none ∧ quiet s.dev) → Runs (.regRead (some m)) s (fun t => t.dev = s.dev.reply (reqOf m famReg 1) BAD_MESSAGE [] ∧ t.mem = s.mem)) ∧
  (∀ (m : TMsg) (slot : Fin 16) (e : RegEntry) (u : State) (s : State), (served s.dev m famReg 2 ∧ m.reply = false ∧ m.src = .host slot ∧ field m.body 0 4 = 0 ∧ writeEntries m.body = some [e] ∧ entryWrite (0x10 + slot.val) e.addr (8 * e.width) (e.value % 2 ^ (8 * e.width)) s = (some OK, u)) → Runs (.regWrite (some m)) s (fun t => t = (u.onDev (fun d => d.regWriteDone (reqOf m famReg 2) OK 1)).settle)) ∧
  (∀ (m : TMsg) (s : State), (m.reply = false ∧ fromFabric m = true ∧ trioMode s.dev = false ∧ field m.body 0 4 < s.dev.rd Reg.AGT_TERM ∧ (writeEntries m.body).isSome = true ∧ quiet s.dev) → Runs (.regWrite (some m)) s (fun t => t.dev.rd Reg.AGT_TERM_STALE_COUNT = satAdd 32 (s.dev.rd Reg.AGT_TERM_STALE_COUNT) 1 ∧ t.dev.rd Reg.AGT_TERM = s.dev.rd Reg.AGT_TERM ∧ t.dev.acc = s.dev.acc ∧ t.mem = s.mem)) ∧
  (∀ (m : TMsg) (k : Nat) (s : State), (served s.dev m famMbx 1 ∧ k = field m.body 0 1 ∧ k < 64 ∧ field m.body 1 1 = 0xFF ∧ 1 ≤ field m.body 2 2 ∧ field m.body 2 2 ≤ 256 ∧ m.body.length = 4 + field m.body 2 2 ∧ (mbxCfg s.dev k).testBit 31 = true ∧ (mbxCfg s.dev k).testBit 30 = true ∧ (mbxCfg s.dev k).testBit 9 = true ∧ (postMsg s.dev (reqOf m famMbx 1) []).system = true ∧ (s.dev.mbox k).fifo.length < 16) → Runs (.mbxPost (some m)) s (fun t => (t.dev.mbox k).fifo = (s.dev.mbox k).fifo ++ [postMsg s.dev (reqOf m famMbx 1) (slice m.body 4 (field m.body 2 2))] ∧ (∀ j, j ≠ k → t.dev.mbox j = s.dev.mbox j) ∧ t.mem = s.mem)) ∧
  (∀ (m : TMsg) (slot : Fin 16) (addr v : Nat) (s : State), (served s.dev m famDebug 4 ∧ m.src = .host slot ∧ slotTenant s.dev slot.val = none ∧ dbgMode s.dev ≠ 0 ∧ readEntries m.body = some [(addr, 4)] ∧ readTaken s.dev 7 addr 32 ∧ s.dev.readAt 7 addr 32 = (OK, v, s.dev) ∧ quiet s.dev) → Runs (.debugAccess (some m)) s (fun t => t.dev = (s.dev.settleStatus 7 addr OK).reply (reqOf m famDebug 4) OK (readItem OK v) ∧ t.mem = s.mem)) ∧
  (∀ (m : TMsg) (slot : Fin 16) (es : List RegEntry) (s : State), (served s.dev m famDebug 4 ∧ m.src = .host slot ∧ slotTenant s.dev slot.val = none ∧ dbgMode s.dev < 2 ∧ readEntries m.body = none ∧ writeEntries m.body = some es) → Runs (.debugAccess (some m)) s (fun t => t.dev = (es.foldl (fun d e => d.settleStatus 7 e.addr ACCESS_DENIED) s.dev).reply (reqOf m famDebug 4) ACCESS_DENIED [] ∧ t.mem = s.mem))

/-- Images and plans are fetched. After the SRAMs are cleared the module wants an image; GETs leave, leave again and are answered; an attempt ends at 30 s, the next follows, and a plan is asked for three times. -/
def Obligations.FetchesRun : Prop :=
  (∀ (other : Bool) (s : State), (bootStage s.dev = sgSramInit ∧ moduleResets s.dev = false ∧ s.dev.powered.core = true) → Runs (.sramInitDone true other) s (fun t => bootStage t.dev = sgHalted ∧ t.mem = s.mem)) ∧
  (∀ (other : Bool) (s : State), (bootStage s.dev = sgSramInit ∧ moduleResets s.dev = false ∧ s.dev.powered.core = true ∧ bits (s.dev.rd Reg.PWR_STATE) 2 0 ≠ 3 ∧ s.dev.rd Reg.PWR_TARGET < 3) → Runs (.sramInitDone false other) s (fun t => bootStage t.dev = sgFetch ∧ (t.dev.rd Reg.AGT_STATE).testBit 9 = true ∧ t.dev.pwr.sramBad = other ∧ t.dev.host.fetch.any (fun f => f.kind == kdExt) = true ∧ t.mem = s.mem)) ∧
  (∀ (kind piece off : Nat) (data : List Byte) (sig : Bool) (f : Fetch) (s : State), (hostRuns s.dev = true ∧ s.dev.host.fetch = some f ∧ f.kind = kind ∧ f.running = true ∧ f.sigOk = false ∧ f.gets.contains (piece, off) = true ∧ data ≠ [] ∧ data.length ≤ 1024 ∧ 4 ≤ 4 * piece + off / 1024 ∧ SMap.get (fun _ => []) f.quarters 0 = []) → Runs (.imageData kind piece off data true sig) s (fun t => t.dev.host.fetch.any (fun g => SMap.get (fun _ => []) g.quarters (4 * piece + off / 1024) == data && g.tries == f.tries && g.running) = true ∧ t.dev.regs = s.dev.regs ∧ t.mem = s.mem)) ∧
  (∀ (kind piece off : Nat) (data : List Byte) (sig : Bool) (s : State), Runs (.imageData kind piece off data false sig) s (fun t => t.dev = s.dev ∧ t.mem = s.mem)) ∧
  (∀ (piece off : Nat) (f : Fetch) (s : State), (s.dev.host.fetch = some f ∧ f.running = true ∧ f.gets.contains (piece, off) = true) → Runs (.imageGetResend piece off) s (fun t => t.dev = s.dev.send (.imageGet f.kind piece off) ∧ t.mem = s.mem)) ∧
  (∀ (f : Fetch) (s : State), (s.dev.host.fetch = some f ∧ f.running = true ∧ f.kind ≠ kdPlan) → Runs .imageFetchTimeout s (fun t => t.dev.host.fetch = some { f with gets := [], quarters := [], running := false, sigOk := false } ∧ t.mem = s.mem)) ∧
  (∀ (f : Fetch) (s : State), (s.dev.host.fetch = some f ∧ f.running = false ∧ f.kind ≠ kdPlan ∧ serverNamed s.dev = true ∧ f.gets = [] ∧ f.quarters = []) → Runs .imageFetchRetry s (fun t => t.dev.host.fetch = some { f with running := true, tries := f.tries + 1, gets := [(0, 0), (0, 1024), (0, 2048), (0, 3072)] } ∧ t.dev.out = s.dev.out ++ [.imageGet f.kind 0 0, .imageGet f.kind 0 1024, .imageGet f.kind 0 2048, .imageGet f.kind 0 3072] ∧ t.dev.regs = s.dev.regs ∧ t.mem = s.mem)) ∧
  (∀ (f : Fetch) (s : State), (s.dev.host.fetch = some f ∧ f.kind = kdPlan ∧ f.quarters = [] ∧ 3 ≤ f.tries) → Runs .planFetchRetry s (fun t => t.dev = { s.dev with host := { s.dev.host with fetch := none } } ∧ t.mem = s.mem)) ∧
  (∀ (f : Fetch) (s : State), (s.dev.host.fetch = some f ∧ f.kind = kdPlan ∧ f.quarters = [] ∧ f.tries < 3) → Runs .planFetchRetry s (fun t => t.dev.host.fetch = some { f with tries := f.tries + 1, gets := [(0, 0), (0, 1024), (0, 2048), (0, 3072)] } ∧ t.dev.regs = s.dev.regs ∧ t.mem = s.mem))

/-- Peal campaigns spread, repair, verify and activate objects. A piece is held once; END and idleness begin repair; a line neighbour answers what it holds; the manager fills its buffer, begins a campaign, paces its pieces and activates; a campaign fails at its timeout. -/
def Obligations.PealRuns : Prop :=
  (∀ (p : Packet) (sig : Bool) (s : State), (lineAxis p.src p.dest = none ∧ receiving s.dev = true ∧ p.opid = pealNum s.dev ∧ 1 ≤ p.seq ∧ p.seq ≤ 8224 ∧ rxPieces s.dev 0 = none ∧ rxPieces s.dev p.seq = none ∧ s.dev.agt.peal.sigOk = false) → Runs (.pealPkt (some p) sig) s (fun t => rxPieces t.dev p.seq = some p.payload ∧ t.dev.rd Reg.AGT_PEAL_REPAIR_COUNT = (if p.channel = 3 then satAdd 32 (s.dev.rd Reg.AGT_PEAL_REPAIR_COUNT) 1 else s.dev.rd Reg.AGT_PEAL_REPAIR_COUNT) ∧ t.dev.agt.peal.idle = false ∧ t.dev.rtr = s.dev.rtr ∧ t.mem = s.mem)) ∧
  (∀ (p : Packet) (sig : Bool) (s : State), (lineAxis p.src p.dest = none ∧ (pealSt s.dev = plIdle ∨ p.opid ≠ pealNum s.dev) ∧ receiving s.dev = true ∧ s.dev.agt.peal.idle = false) → Runs (.pealPkt (some p) sig) s (fun t => t.dev = s.dev ∧ t.mem = s.mem)) ∧
  (∀ (p : Packet) (i : Nat) (s : State), (lineAxis p.src p.dest = none ∧ receiving s.dev = true ∧ p.opid = pealNum s.dev ∧ i ≤ p.seq ∧ p.seq ≤ 8224 ∧ rxPieces s.dev i = none) → Runs (.pealEnd (some p)) s (fun t => pealSt t.dev = plRepairing ∧ pealNum t.dev = pealNum s.dev ∧ t.dev.agt.peal.last = some p.seq ∧ t.dev.agt.peal.pieces = s.dev.agt.peal.pieces ∧ t.mem = s.mem)) ∧
  (∀ (p : Packet) (s : State), (lineAxis p.src p.dest = none ∧ 8224 < p.seq) → Runs (.pealEnd (some p)) s (fun t => t = s)) ∧
  (∀ (m : TMsg) (ma i : Nat) (data : List Byte) (s : State), (msgMa m = some ma ∧ pealSt s.dev ≠ plIdle ∧ field m.body 0 2 = pealNum s.dev ∧ needPieces m.body = [i] ∧ rxPieces s.dev i = some data ∧ belfryBody 10 m.body = true) → Runs (.pealNeed (some m)) s (fun t => t.dev = s.dev.repairPiece ma i data ∧ t.mem = s.mem)) ∧
  (∀ (m : TMsg) (ma i : Nat) (s : State), (msgMa m = some ma ∧ needPieces m.body = [i] ∧ rxPieces s.dev i = none ∧ belfryBody 10 m.body = true) → Runs (.pealNeed (some m)) s (fun t => t.dev = s.dev.answerSt m 11 NOT_HELD (slice m.body 0 2 ++ leBytes 1 1 ++ leBytes 2 i) ∧ t.mem = s.mem)) ∧
  (∀ (m : TMsg) (i : Nat) (s : State), (receiving s.dev = true ∧ field m.body 0 2 = pealNum s.dev ∧ needPieces m.body = [i] ∧ rxPieces s.dev i = none ∧ s.dev.agt.peal.notHeld.contains i = false ∧ belfryBody 11 m.body = true) → Runs (.pealNotHeld (some m)) s (fun t => t.dev.agt.peal = { s.dev.agt.peal with notHeld := s.dev.agt.peal.notHeld ++ [i] } ∧ t.dev.regs = s.dev.regs ∧ t.mem = s.mem)) ∧
  (∀ (s : State), (pealSt s.dev = plReceiving ∧ missingPieces s.dev ≠ []) → Runs .pealIdleTimeout s (fun t => pealSt t.dev = plRepairing ∧ t.dev.agt.peal = { s.dev.agt.peal with idle := true } ∧ t.mem = s.mem)) ∧
  (∀ (s : State), (pealSt s.dev = plRepairing) → Runs .pealRepairTimeout s (fun t => t.dev = s.dev.needFromManager (missingPieces s.dev) ∧ t.dev.regs = s.dev.regs ∧ t.mem = s.mem)) ∧
  (∀ (s : State), (receiving s.dev = true ∧ s.dev.domainOn 0x069 = true) → Runs .pealCampaignTimeout s (fun t => pealSt t.dev = plFailed ∧ pealNum t.dev = pealNum s.dev ∧ t.dev.err 0x069 5 = true ∧ t.mem = s.mem)) ∧
  (∀ (m : TMsg) (s : State), (trioMode s.dev = false ∧ field m.body 0 4 = s.dev.rd Reg.AGT_TERM ∧ (msgMa m).isSome = true ∧ msgMa m = managerMa s.dev ∧ namesObject s.dev m = true ∧ belfryBody 12 m.body = true ∧ objKind (rxPieces s.dev) = kdExt ∧ inRom s.dev = false) → Runs (.pealActivate (some m)) s (fun t => t.dev.agt.peal = PealRx.none_ ∧ t.dev.bel = s.dev.bel ∧ t.dev.regs = s.dev.regs ∧ t.mem = s.mem)) ∧
  (∀ (m : TMsg) (x : Plan) (s : State), (trioMode s.dev = false ∧ field m.body 0 4 = s.dev.rd Reg.AGT_TERM ∧ (msgMa m).isSome = true ∧ msgMa m = managerMa s.dev ∧ namesObject s.dev m = true ∧ belfryBody 12 m.body = true ∧ objKind (rxPieces s.dev) = kdPlan ∧ parsePlan (objDigest (rxPieces s.dev)) (objData (rxPieces s.dev)) = some x) → Runs (.pealActivate (some m)) s (fun t => t.dev.agt.plan = some x ∧ t.dev.rd Reg.AGT_MODE = b2n x.trio ∧ t.dev.rd Reg.AGT_PLAN_DIGEST0 = x.digest % 2 ^ 32 ∧ t.mem = s.mem)) ∧
  (∀ (m : TMsg) (data : List Byte) (s : State), (served s.dev m famPeal 1 ∧ servesJobs s.dev = true ∧ data = m.body.drop 8 ∧ m.body.length = 8 + field m.body 6 2 ∧ 1 ≤ field m.body 6 2 ∧ field m.body 6 2 ≤ 1024 ∧ field m.body 0 4 ≤ 8224 ∧ field m.body 4 2 + field m.body 6 2 ≤ 4096) → Runs (.pealPut (some m)) s (fun t => putPieces t.dev (field m.body 0 4) = some (pieceWrite (pieceBytes (putPieces s.dev) (field m.body 0 4)) (field m.body 4 2) data) ∧ (∀ i, i ≠ field m.body 0 4 → putPieces t.dev i = putPieces s.dev i) ∧ t.dev.regs = s.dev.regs ∧ t.mem = s.mem)) ∧
  (∀ (m : TMsg) (sig : Bool) (s : State), (served s.dev m famPeal 2 ∧ servesJobs s.dev = true ∧ m.body.length = 8 ∧ field m.body 1 3 = 0 ∧ 1 ≤ field m.body 0 1 ∧ field m.body 0 1 ≤ 4 ∧ field m.body 4 4 = objN (sentPieces s.dev) ∧ bufferOk s.dev (field m.body 0 1) sig = true) → Runs (.pealStart (some m) sig) s (fun t => pealSt t.dev = plVerified ∧ pealNum t.dev = nextCampaign s.dev ∧ pealKind t.dev = field m.body 0 1 ∧ t.dev.mgr.lastCampaign = nextCampaign s.dev ∧ t.dev.mgr.campaign = some ⟨nextCampaign s.dev, field m.body 0 1, objM (sentPieces s.dev) + objN (sentPieces s.dev), 0, aloneWanting s.dev (field m.body 0 1) (objDigest (sentPieces s.dev)), false, false⟩ ∧ t.dev.mgr.pieces = [] ∧ t.mem = s.mem)) ∧
  (∀ (m : TMsg) (sig : Bool) (s : State), (served s.dev m famPeal 2 ∧ servesJobs s.dev = true ∧ m.body.length = 8 ∧ field m.body 1 3 = 0 ∧ 1 ≤ field m.body 0 1 ∧ field m.body 0 1 ≤ 4 ∧ field m.body 4 4 = objN (sentPieces s.dev) ∧ bufferOk s.dev (field m.body 0 1) sig = false ∧ s.dev.domainOn 0x069 = true) → Runs (.pealStart (some m) sig) s (fun t => t.dev.err 0x069 6 = true ∧ t.dev.mgr = s.dev.mgr ∧ t.mem = s.mem)) ∧
  (∀ (c : Campaign) (ma : Nat) (s : State), (s.dev.mgr.campaign = some c ∧ servesJobs s.dev = true ∧ c.next < c.pieces ∧ c.num = pealNum s.dev ∧ c.aim = some ma ∧ s.dev.mgr.planDue = false) → Runs .pealPace s (fun t => t.dev.mgr = { s.dev.mgr with campaign := some { c with next := c.next + 1 } } ∧ t.dev.rtr.offers = s.dev.rtr.offers ++ [{ mgmtPacket false ma ma (pieceBytes (rxPieces s.dev) c.next) with ptype := ptPeal, cls := 3, window := 0, channel := 3, opid := c.num, seq := c.next }] ∧ t.dev.regs = s.dev.regs ∧ t.mem = s.mem)) ∧
  (∀ (c : Campaign) (s : State), (s.dev.mgr.campaign = some c ∧ servesJobs s.dev = true ∧ c.next < c.pieces ∧ c.num = pealNum s.dev ∧ c.aim = none) → Runs .pealPace s (fun t => t.dev = ({ s.dev with mgr := { s.dev.mgr with campaign := some { c with next := c.next + 1 } } } : Dev).sendStages [0, 1, 2] c.num c.next 0 (pieceBytes (rxPieces s.dev) c.next) ∧ t.dev.regs = s.dev.regs ∧ t.mem = s.mem)) ∧
  (∀ (m : TMsg) (v f : Nat) (s : State), (served s.dev m famPeal 3 ∧ servesJobs s.dev = true ∧ namesCampaign s.dev m.body = true ∧ v = (((pealModules s.dev).map (pealOf s.dev (field m.body 0 2))).filter (fun x => x == 3)).length ∧ f = (((pealModules s.dev).map (pealOf s.dev (field m.body 0 2))).filter (fun x => x == 4)).length) → Runs (.pealQuery (some m)) s (fun t => t.dev = s.dev.reply (reqOf m famPeal 3) OK (leBytes 2 v ++ leBytes 2 f ++ leBytes 2 ((pealModules s.dev).length - v - f)) ∧ t.dev.mgr = s.dev.mgr ∧ t.mem = s.mem)) ∧
  (∀ (m : TMsg) (c : Campaign) (s : State), (served s.dev m famPeal 4 ∧ servesJobs s.dev = true ∧ s.dev.mgr.campaign = some c ∧ m.body.length = 2 ∧ c.num = field m.body 0 2 ∧ memberMas s.dev = [] ∧ maValid s.dev = true ∧ (c.kind ≠ kdPlan ∨ (parsePlan (objDigest (rxPieces s.dev)) (objData (rxPieces s.dev))).isSome = true)) → Runs (.pealCommit (some m)) s (fun t => t.dev.agt.msgs = s.dev.agt.msgs ++ [⟨.fabric (myMa s.dev), famBelfry, 12, false, (if trioMode s.dev then Config.writeSeq (myMa s.dev) famBelfry 12 (leBytes 2 c.num ++ leBytes 1 c.kind) % 2 ^ 32 else s.dev.mgr.tag), s.dev.mgr.tag, OK, leBytes 4 (termField s.dev) ++ leBytes 2 c.num ++ leBytes 1 c.kind⟩] ∧ t.dev.mgr = { s.dev.mgr with tag := (s.dev.mgr.tag + 1) % 2 ^ 16, planDue := false, campaign := some { c with done := true } } ∧ t.dev.regs = s.dev.regs ∧ t.mem = s.mem))

/-- Slices are assembled, set up, queried and released, and modules drained. BEGIN and PART fill an assembly, COMMIT makes the slice PREPARING, QUERY shows it, RELEASE begins its teardown; DRAIN excludes a module of no slice. -/
def Obligations.SlicesRun : Prop :=
  (∀ (m : TMsg) (slot : Fin 16) (s : State), (served s.dev m famJob 1 ∧ servesJobs s.dev = true ∧ m.src = .host slot ∧ m.body.length = 12 ∧ field m.body 0 2 ≤ 511 ∧ field m.body 2 1 ≤ 1 ∧ field m.body 3 1 = 0 ∧ (asmOf s.dev (field m.body 0 2)).any (fun x => x.waiting.isSome) = false) → Runs (.sliceBegin (some m)) s (fun t => asmOf t.dev (field m.body 0 2) = some ⟨field m.body 2 1 == 1, field m.body 4 4, field m.body 8 4, [], [], none⟩ ∧ SMap.get (fun _ => 0) t.dev.mgr.begun slot.val = field m.body 0 2 + 1 ∧ t.dev.mgr.slices = s.dev.mgr.slices ∧ t.dev.regs = s.dev.regs ∧ t.mem = s.mem)) ∧
  (∀ (m : TMsg) (slot : Fin 16) (ten : Nat) (x : SliceAsm) (s : State), (served s.dev m famJob 2 ∧ servesJobs s.dev = true ∧ m.src = .host slot ∧ field m.body 0 1 = 0 ∧ field m.body 1 1 = 0 ∧ 1 ≤ field m.body 2 2 ∧ field m.body 2 2 ≤ 700 ∧ m.body.length = 8 + 2 * field m.body 2 2 ∧ SMap.get (fun _ => 0) s.dev.mgr.begun slot.val = ten + 1 ∧ asmOf s.dev ten = some x ∧ field m.body 4 4 + field m.body 2 2 ≤ x.count) → Runs (.slicePart (some m)) s (fun t => asmOf t.dev ten = some (x.addMembers (field m.body 4 4) ((upFrom 0 (field m.body 2 2)).map (fun i => field m.body (8 + 2 * i) 2))) ∧ t.dev.mgr.slices = s.dev.mgr.slices ∧ t.dev.regs = s.dev.regs ∧ t.mem = s.mem)) ∧
  (∀ (m : TMsg) (slot : Fin 16) (ten : Nat) (x : SliceAsm) (s : State), (served s.dev m famJob 2 ∧ servesJobs s.dev = true ∧ m.src = .host slot ∧ field m.body 0 1 = 1 ∧ field m.body 1 1 = 0 ∧ 1 ≤ field m.body 2 2 ∧ field m.body 2 2 ≤ 58 ∧ m.body.length = 8 + 24 * field m.body 2 2 ∧ SMap.get (fun _ => 0) s.dev.mgr.begun slot.val = ten + 1 ∧ asmOf s.dev ten = some x ∧ field m.body 4 4 + field m.body 2 2 ≤ x.recCount) → Runs (.slicePart (some m)) s (fun t => asmOf t.dev ten = some (x.addRecords (field m.body 4 4) ((upFrom 0 (field m.body 2 2)).map (fun i => slice m.body (8 + 24 * i) 24))) ∧ t.dev.mgr.slices = s.dev.mgr.slices ∧ t.dev.regs = s.dev.regs ∧ t.mem = s.mem)) ∧
  (∀ (m : TMsg) (x : SliceAsm) (mas : List Nat) (recs : List (List Byte)) (s : State), (served s.dev m famJob 3 ∧ servesJobs s.dev = true ∧ m.body.length = 2 ∧ field m.body 0 2 ≤ 511 ∧ asmOf s.dev (field m.body 0 2) = some x ∧ x.items = some (mas, recs) ∧ x.waiting = none ∧ (memberMas s.dev.placeSelf).filter (fun ma => ma != myMa s.dev.placeSelf && mas.contains ma) = [] ∧ sliceCheck s.dev.placeSelf (field m.body 0 2) x.contained mas = OK) → Runs (.sliceCommit (some m)) s (fun t => sliceOf t.dev (field m.body 0 2) = some ⟨1, x.contained, mas, recs, OK⟩ ∧ asmOf t.dev (field m.body 0 2) = none ∧ t.mem = s.mem)) ∧
  (∀ (m : TMsg) (x : SliceAsm) (mas : List Nat) (recs : List (List Byte)) (s : State), (served s.dev m famJob 3 ∧ servesJobs s.dev = true ∧ m.body.length = 2 ∧ field m.body 0 2 ≤ 511 ∧ asmOf s.dev (field m.body 0 2) = some x ∧ x.items = some (mas, recs) ∧ x.waiting = none ∧ (s.dev.placeSelf.sendStage (((memberMas s.dev.placeSelf).filter (fun ma => ma != myMa s.dev.placeSelf && mas.contains ma)).map (fun ma => readSend ma Reg.PWR_STATE))).1 ≠ []) → Runs (.sliceCommit (some m)) s (fun t => asmOf t.dev (field m.body 0 2) = some { x with waiting := some (reqOf m famJob 3) } ∧ t.dev.mgr.scripts.any (fun c => c.job == .check (field m.body 0 2)) = true ∧ t.dev.mgr.slices = s.dev.mgr.slices ∧ t.mem = s.mem)) ∧
  (∀ (m : TMsg) (x : SliceAsm) (s : State), (served s.dev m famJob 3 ∧ servesJobs s.dev = true ∧ m.body.length = 2 ∧ field m.body 0 2 ≤ 511 ∧ asmOf s.dev (field m.body 0 2) = some x ∧ x.items = none) → Runs (.sliceCommit (some m)) s (fun t => t.dev = s.dev.placeSelf.reply (reqOf m famJob 3) SLICE_INVALID [] ∧ t.mem = s.mem)) ∧
  (∀ (m : TMsg) (y : Slice) (s : State), (served s.dev m famJob 4 ∧ servesJobs s.dev = true ∧ m.body.length = 2 ∧ field m.body 0 2 ≤ 511 ∧ sliceOf s.dev (field m.body 0 2) = some y ∧ y.st ≤ 4) → Runs (.sliceQuery (some m)) s (fun t => t.dev = s.dev.reply (reqOf m famJob 4) OK (leBytes 1 y.st ++ leBytes 1 y.last ++ leBytes 2 y.members.length) ∧ t.dev.mgr = s.dev.mgr ∧ t.mem = s.mem)) ∧
  (∀ (m : TMsg) (y : Slice) (s : State), (served s.dev m famJob 5 ∧ servesJobs s.dev = true ∧ m.body.length = 2 ∧ field m.body 0 2 ≤ 511 ∧ sliceOf s.dev (field m.body 0 2) = some y ∧ (y.st = 2 ∨ y.st = 3) ∧ y.members ≠ []) → Runs (.sliceRelease (some m)) s (fun t => sliceOf t.dev (field m.body 0 2) = some { y with st := 4, last := OK } ∧ t.dev.mgr.scripts.any (fun x => x.job == .teardown (field m.body 0 2)) = true ∧ t.mem = s.mem)) ∧
  (∀ (m : TMsg) (y : Slice) (s : State), (served s.dev m famJob 5 ∧ servesJobs s.dev = true ∧ m.body.length = 2 ∧ field m.body 0 2 ≤ 511 ∧ sliceOf s.dev (field m.body 0 2) = some y ∧ (y.st = 1 ∨ y.st = 4)) → Runs (.sliceRelease (some m)) s (fun t => t.dev = s.dev.reply (reqOf m famJob 5) SLICE_BUSY [] ∧ t.dev.mgr = s.dev.mgr ∧ t.mem = s.mem)) ∧
  (∀ (m : TMsg) (s : State), (served s.dev m famJob 6 ∧ servesJobs s.dev = true ∧ m.body.length = 2 ∧ field m.body 0 2 = myMa s.dev ∧ inSlice s.dev (myMa s.dev) = false) → Runs (.transitDrain (some m)) s (fun t => SMap.get (fun _ => 0) t.dev.mgr.drains (myMa s.dev) = 1 ∧ t.dev.mgr.excluded.contains (myMa s.dev) = true ∧ t.mem = s.mem)) ∧
  (∀ (m : TMsg) (s : State), (served s.dev m famJob 6 ∧ servesJobs s.dev = true ∧ m.body.length = 2 ∧ ((memberMas s.dev).contains (field m.body 0 2) = true ∨ field m.body 0 2 = myMa s.dev) ∧ inSlice s.dev (field m.body 0 2) = true) → Runs (.transitDrain (some m)) s (fun t => t.dev = s.dev.reply (reqOf m famJob 6) SLICE_BUSY [] ∧ t.dev.mgr = s.dev.mgr ∧ t.mem = s.mem)) ∧
  (∀ (m : TMsg) (s : State), (served s.dev m famJob 7 ∧ servesJobs s.dev = true ∧ m.body.length = 2 ∧ 1 ≤ SMap.get (fun _ => 0) s.dev.mgr.drains (field m.body 0 2)) → Runs (.drainQuery (some m)) s (fun t => t.dev = s.dev.reply (reqOf m famJob 7) OK (leBytes 1 (SMap.get (fun _ => 0) s.dev.mgr.drains (field m.body 0 2) - 1)) ∧ t.dev.mgr = s.dev.mgr ∧ t.mem = s.mem))

/-- A measure boundary closes the record, and a scrub goes through its steps. The boundary writes the 512-byte record into the area not written last, or counts it lost under HOLD, and starts the measure's counts anew; each step of a scrub removes what it names and the last one ends it. -/
def Obligations.MeasureAndScrubRun : Prop :=
  (∀ (util vcs : List (BitVec 16)) (s : State), (s.dev.powered.aon = true ∧ s.dev.powered.core = true ∧ moduleResets s.dev = false ∧ bankPending s.dev = false ∧ (s.dev.rd (rkey 0x02B 0x010)).testBit 0 = false ∧ s.dev.rd Reg.AGT_CMAP_PERIOD = 0) → Runs (.measureBoundary util vcs) s (fun t => t.dev.rtr.measure = s.dev.rtr.measure + 1 ∧ t.dev.rtr.aged = 0 ∧ t.dev.rtr.overrun = 0 ∧ t.dev.rtr.flipped = false ∧ t.dev.acc.refused = [] ∧ t.dev.rd Reg.CMAP_LAST = 2 ^ 31 + (1 - bits (s.dev.rd Reg.CMAP_LAST) 0 0) ∧ (∀ i, i < 128 → t.dev.rd (rkey 0x02B (0x400 + 0x200 * (1 - bits (s.dev.rd Reg.CMAP_LAST) 0 0)) + 4 * i) = field (congestion s.dev util vcs) (4 * i) 4) ∧ t.mem = s.mem)) ∧
  (∀ (util vcs : List (BitVec 16)) (s : State), (s.dev.powered.aon = true ∧ s.dev.powered.core = true ∧ moduleResets s.dev = false ∧ bankPending s.dev = false ∧ (s.dev.rd (rkey 0x02B 0x010)).testBit 0 = true ∧ s.dev.rd Reg.AGT_CMAP_PERIOD = 0) → Runs (.measureBoundary util vcs) s (fun t => t.dev.rtr.measure = s.dev.rtr.measure + 1 ∧ t.dev.rd Reg.CMAP_LOST_COUNT = satAdd 32 (s.dev.rd Reg.CMAP_LOST_COUNT) 1 ∧ t.dev.rd Reg.CMAP_LAST = s.dev.rd Reg.CMAP_LAST ∧ t.mem = s.mem)) ∧
  (∀ (x : Nat) (rest : List Nat) (s : State), (s.dev.pwr.scrubs = x :: rest ∧ x < 512 ∧ scrubStep s.dev = 1 ∧ moduleResets s.dev = false) → Runs .scrubStepDone s (fun t => celKeyOf t.dev false x = CelKey.empty ∧ t.dev.pwr.scrubs = s.dev.pwr.scrubs ∧ scrubStep t.dev = 2 ∧ t.mem = s.mem)) ∧
  (∀ (x : Nat) (rest : List Nat) (s : State), (s.dev.pwr.scrubs = x :: rest ∧ x < 512 ∧ scrubStep s.dev = 2 ∧ moduleResets s.dev = false) → Runs .scrubStepDone s (fun t => (∀ k, ¬ (SMap.get (fun _ => CelPage.empty) t.dev.cel.pages k).valid ∨ (SMap.get (fun _ => CelPage.empty) t.dev.cel.pages k).system ∨ (SMap.get (fun _ => CelPage.empty) t.dev.cel.pages k).tenant ≠ x) ∧ scrubStep t.dev = 3 ∧ t.mem.gd = s.mem.gd)) ∧
  (∀ (x w n a : Nat) (rest : List Nat) (s : State), (s.dev.pwr.scrubs = x :: rest ∧ x < 512 ∧ scrubStep s.dev = 3 ∧ moduleResets s.dev = false ∧ (ownRegions s.dev false x).any (fun r => wingResets s.dev r.1) = false ∧ (ownRegions s.dev false x).contains (w, n, w * 2 ^ 34 + bits (s.dev.rd (rkey (8 + w) 0x080 + 8 * n)) 31 16 * 2 ^ 21, bits (s.dev.rd (rkey (8 + w) 0x080 + 8 * n)) 15 0 * 2 ^ 21) = true ∧ s.dev.powered.wings.testBit w = true ∧ w * 2 ^ 34 + bits (s.dev.rd (rkey (8 + w) 0x080 + 8 * n)) 31 16 * 2 ^ 21 ≤ a ∧ a < w * 2 ^ 34 + bits (s.dev.rd (rkey (8 + w) 0x080 + 8 * n)) 31 16 * 2 ^ 21 + bits (s.dev.rd (rkey (8 + w) 0x080 + 8 * n)) 15 0 * 2 ^ 21) → Runs .scrubStepDone s (fun t => SMap.get gdDefault t.mem.gd a = 0 ∧ scrubStep t.dev = 4 ∧ t.mem.cel = s.mem.cel)) ∧
  (∀ (x : Nat) (rest : List Nat) (s : State), (s.dev.pwr.scrubs = x :: rest ∧ x < 512 ∧ scrubStep s.dev = 4 ∧ moduleResets s.dev = false) → Runs .scrubStepDone s (fun t => ownRegions t.dev false x = [] ∧ scrubStep t.dev = 5 ∧ t.mem = s.mem)) ∧
  (∀ (x : Nat) (s : State), (s.dev.pwr.scrubs = [x] ∧ x < 512 ∧ scrubStep s.dev = 5 ∧ moduleResets s.dev = false ∧ s.dev.pwr.scrubFirst = false ∧ s.dev.sec.transition = none) → Runs .scrubStepDone s (fun t => t.dev.pwr.scrubs = [] ∧ t.dev.rd Reg.PWR_SCRUB = 0 ∧ scrubbing t.dev = false ∧ t.dev.rd Reg.SEC_BINDING = 0 ∧ t.dev.rd Reg.ATT_UNSEALS = 0 ∧ t.dev.rdWide Reg.ATT_M_PROG0 16 = 0 ∧ t.dev.rdWide Reg.ATT_M_WEIGHT0 16 = 0 ∧ sessKey t.dev x = none ∧ (∀ w ∈ t.dev.sec.weights, w.system = true ∨ w.tenant ≠ x)))

/-- Strongroom calls are answered. A call that waits in a core's record is answered with DONE and a status; each call does its work or is declined, and one that waits 100 ms times out. -/
def Obligations.StrongroomCallsRun : Prop :=
  (∀ (core sig : Bool) (s : State), (callIs s.dev core 1 = true ∧ manifestHeld (rxPieces s.dev) = true ∧ s.dev.agt.peal.sigOk = true ∧ s.dev.coreStopped 1 = false) → Runs (.verifyObject core sig) s (fun t => callWaits t.dev core = false ∧ bits (t.dev.rd (callKey core)) 7 0 = OK ∧ t.dev.agt = s.dev.agt ∧ t.mem = s.mem)) ∧
  (∀ (core : Bool) (s : State), (callIs s.dev core 1 = true ∧ manifestHeld (rxPieces s.dev) = true ∧ s.dev.agt.peal.sigOk = false ∧ s.dev.agt.peal.sigFails = 0 ∧ s.dev.coreStopped 1 = false) → Runs (.verifyObject core false) s (fun t => callWaits t.dev core = false ∧ bits (t.dev.rd (callKey core)) 7 0 = SIG_INVALID ∧ t.dev.agt.peal.sigFails = 1 ∧ rxPieces t.dev 0 = none ∧ t.mem = s.mem)) ∧
  (∀ (core : Bool) (s : State), (callIs s.dev core 2 = true ∧ s.dev.agt.peal.verified = true ∧ objKind (rxPieces s.dev) = kdExt ∧ inRom s.dev = false ∧ s.dev.coreStopped 1 = false) → Runs (.activateObject core) s (fun t => callWaits t.dev core = false ∧ bits (t.dev.rd (callKey core)) 7 0 = OK ∧ t.dev.agt.peal = PealRx.none_ ∧ t.mem = s.mem)) ∧
  (∀ (core : Bool) (s : State), (callIs s.dev core 2 = true ∧ s.dev.agt.peal.verified = false ∧ s.dev.coreStopped 1 = false) → Runs (.activateObject core) s (fun t => callWaits t.dev core = false ∧ bits (t.dev.rd (callKey core)) 7 0 = ACCESS_DENIED ∧ t.dev.agt = s.dev.agt ∧ t.mem = s.mem)) ∧
  (∀ (core : Bool) (rank : Fin 8) (term : Word) (s : State), (callIs s.dev core 3 = true ∧ myRank s.dev = some rank.val ∧ s.dev.rd Reg.AGT_TERM / 8 < term.toNat / 8 ∧ s.dev.coreStopped 1 = false) → Runs (.signClaim core rank term) s (fun t => callWaits t.dev core = false ∧ bits (t.dev.rd (callKey core)) 7 0 = OK ∧ t.dev.rdWide (callKey core + 4) 8 = Config.claimTag (claimFields term.toNat (myMa s.dev) rank.val Config.serial (match s.dev.agt.plan with | some x => x.id | none => 0)) % 2 ^ 256 ∧ t.mem = s.mem)) ∧
  (∀ (core : Bool) (rank : Fin 8) (term : Word) (s : State), (callIs s.dev core 3 = true ∧ (myRank s.dev ≠ some rank.val ∨ term.toNat / 8 ≤ s.dev.rd Reg.AGT_TERM / 8) ∧ s.dev.coreStopped 1 = false) → Runs (.signClaim core rank term) s (fun t => callWaits t.dev core = false ∧ bits (t.dev.rd (callKey core)) 7 0 = ACCESS_DENIED ∧ t.dev.rdWide (callKey core + 4) 8 = s.dev.rdWide (callKey core + 4) 8 ∧ t.mem = s.mem)) ∧
  (∀ (core : Bool) (ten : Fin 512) (s : State), (callIs s.dev core 4 = true ∧ keysAllowed s.dev = true ∧ s.dev.coreStopped 1 = false) → Runs (.cellarKey core ten none) s (fun t => callWaits t.dev core = false ∧ bits (t.dev.rd (callKey core)) 7 0 = OK ∧ celKeyOf t.dev false ten.val = CelKey.empty ∧ t.mem = s.mem)) ∧
  (∀ (core : Bool) (ten : Fin 512) (k : Nat) (s : State), (callIs s.dev core 4 = true ∧ keysAllowed s.dev = true ∧ celKeyOf s.dev false ten.val = CelKey.empty ∧ s.dev.coreStopped 1 = false) → Runs (.cellarKey core ten (some k)) s (fun t => callWaits t.dev core = false ∧ bits (t.dev.rd (callKey core)) 7 0 = OK ∧ celKeyOf t.dev false ten.val = { CelKey.empty with key0 := some k } ∧ t.mem = s.mem)) ∧
  (∀ (core : Bool) (nonce : Nat) (s : State), (callIs s.dev core 5 = true ∧ signStatus s.dev = OK ∧ keptReport s.dev (nonce % 2 ^ 256) = none ∧ s.dev.sec.reports.length ≤ 16 ∧ s.dev.coreStopped 1 = false) → Runs (.attest core nonce true) s (fun t => callWaits t.dev core = false ∧ bits (t.dev.rd (callKey core)) 7 0 = OK ∧ (keptReport t.dev (nonce % 2 ^ 256)).isSome = true ∧ t.dev.rd Reg.ATT_REPORT_COUNT = satAdd 32 (s.dev.rd Reg.ATT_REPORT_COUNT) 1 ∧ t.dev.sec.lastNonce = some s.dev.clk.aon ∧ t.mem = s.mem)) ∧
  (∀ (core : Bool) (ten : Fin 512) (k : Option Nat) (s : State), (callIs s.dev core 6 = true ∧ keysAllowed s.dev = true ∧ s.dev.coreStopped 1 = false) → Runs (.keyDelivery core (.session ten k)) s (fun t => callWaits t.dev core = false ∧ bits (t.dev.rd (callKey core)) 7 0 = OK ∧ sessKey t.dev ten.val = k ∧ t.dev.sec.weights = s.dev.sec.weights ∧ t.mem = s.mem)) ∧
  (∀ (core : Bool) (what : KeyCall) (s : State), (callIs s.dev core 6 = true ∧ keysAllowed s.dev = false ∧ s.dev.coreStopped 1 = false) → Runs (.keyDelivery core what) s (fun t => callWaits t.dev core = false ∧ bits (t.dev.rd (callKey core)) 7 0 = ACCESS_DENIED ∧ t.dev.sec = s.dev.sec ∧ t.mem = s.mem)) ∧
  (∀ (core : Bool) (i : Nat) (v : BitVec 64) (s : State), (callIs s.dev core 7 = true ∧ i < 256 ∧ v.toNat.testBit 15 = false ∧ s.dev.coreStopped 1 = false) → Runs (.lockCall core (.policy i v)) s (fun t => callWaits t.dev core = false ∧ bits (t.dev.rd (callKey core)) 7 0 = OK ∧ t.dev.acc.policy = SMap.put (fun _ => 0) s.dev.acc.policy i (v.toNat &&& 0xFFFFFFFFFF00F000) ∧ t.mem = s.mem)) ∧
  (∀ (core : Bool) (s : State), (callWaits s.dev core = true ∧ s.dev.domainOn 0x068 = true ∧ s.dev.coreStopped 1 = false) → Runs (.callTimeout core) s (fun t => callWaits t.dev core = false ∧ bits (t.dev.rd (callKey core)) 7 0 = TIMEOUT ∧ t.dev.err 0x068 4 = true ∧ t.mem = s.mem))

/-- Reports, deliveries, unseals and debug run. A report is formed for a new NONCE and kept; M_PROG is extended; a package is gathered, checked and applied; an unseal starts under its checks and stores what it decrypts; a debug mode is entered and ends. -/
def Obligations.SecurityRuns : Prop :=
  (∀ (m : TMsg) (s : State), (served s.dev m famAtt 1 ∧ m.body.length = 36 ∧ field m.body 32 1 = 0 ∧ field m.body 33 1 = 0 ∧ field m.body 34 2 = 0 ∧ s.dev.sec.lc ≠ lcBlank ∧ s.dev.sec.lc ≠ lcScrap ∧ signStatus s.dev = OK ∧ keptReport s.dev (field m.body 0 32) = none ∧ nonceSoon s.dev = false ∧ s.dev.sec.reports.length ≤ 16) → Runs (.attRequest (some m) true) s (fun t => (keptReport t.dev (field m.body 0 32)).isSome = true ∧ t.dev.rd Reg.ATT_REPORT_COUNT = satAdd 32 (s.dev.rd Reg.ATT_REPORT_COUNT) 1 ∧ t.dev.sec.lastNonce = some s.dev.clk.aon ∧ t.mem = s.mem)) ∧
  (∀ (m : TMsg) (r : AttReport) (s : State), (served s.dev m famAtt 1 ∧ m.body.length = 36 ∧ field m.body 32 1 = 0 ∧ field m.body 33 1 = 0 ∧ s.dev.sec.lc ≠ lcBlank ∧ s.dev.sec.lc ≠ lcScrap ∧ keptReport s.dev (field m.body 0 32) = some r) → Runs (.attRequest (some m) true) s (fun t => t.dev = s.dev.attPart (reqOf m famAtt 1) (field m.body 34 2) r.data ∧ t.dev.sec = s.dev.sec ∧ t.mem = s.mem)) ∧
  (∀ (m : TMsg) (signs : Bool) (s : State), (served s.dev m famAtt 1 ∧ m.body.length = 36 ∧ field m.body 32 1 ≤ 1 ∧ field m.body 33 1 = 0 ∧ (s.dev.sec.lc = lcBlank ∨ s.dev.sec.lc = lcScrap)) → Runs (.attRequest (some m) signs) s (fun t => t.dev = s.dev.reply (reqOf m famAtt 1) LC_REFUSED [] ∧ t.dev.sec = s.dev.sec ∧ t.mem = s.mem)) ∧
  (∀ (m : TMsg) (s : State), (served s.dev m famAtt 2 ∧ m.body.length = 64 ∧ (s.dev.rd Reg.SEC_BINDING).testBit 15 = true ∧ boundSession s.dev (reqOf m famAtt 2) = true) → Runs (.attExtend (some m)) s (fun t => t.dev.rdWide Reg.ATT_M_PROG0 16 = measure (s.dev.rdWide Reg.ATT_M_PROG0 16) 1 m.body ∧ t.dev.rdWide Reg.ATT_M_WEIGHT0 16 = s.dev.rdWide Reg.ATT_M_WEIGHT0 16 ∧ t.dev.sec = s.dev.sec ∧ t.mem = s.mem)) ∧
  (∀ (m : TMsg) (s : State), (served s.dev m famAtt 2 ∧ m.body.length = 64 ∧ (s.dev.rd Reg.SEC_BINDING).testBit 15 = false) → Runs (.attExtend (some m)) s (fun t => t.dev = s.dev.reply (reqOf m famAtt 2) NOT_BOUND [] ∧ t.dev.regs = s.dev.regs ∧ t.mem = s.mem)) ∧
  (∀ (r : AttReport) (rest : List AttReport) (s : State), (s.dev.sec.reports = r :: rest) → Runs .reportExpiry s (fun t => t.dev = { s.dev with sec := { s.dev.sec with reports := rest } } ∧ t.mem = s.mem)) ∧
  (∀ (m : TMsg) (chain sig tag : Bool) (plain : List Byte) (d : Dev) (s : State), (served s.dev m famKey 1 ∧ s.dev.partIn (reqOf m famKey 1) false = (OK, none, d)) → Runs (.keyDeliver (some m) chain sig tag plain) s (fun t => t.dev = d.reply (reqOf m famKey 1) OK [] ∧ t.dev.sec = d.sec ∧ t.dev.regs = s.dev.regs ∧ t.mem = s.mem)) ∧
  (∀ (m : TMsg) (plain bs : List Byte) (d : Dev) (s : State), (served s.dev m famKey 1 ∧ s.dev.partIn (reqOf m famKey 1) false = (OK, some bs, d) ∧ field bs 4 1 = 6 ∧ field (padTo 12 plain) 0 1 = 4 ∧ pkgStatus d bs (padTo 12 plain) true true true = OK) → Runs (.keyDeliver (some m) true true true plain) s (fun t => t.dev.rd Reg.SEC_DELIVER_COUNT = satAdd 32 (s.dev.rd Reg.SEC_DELIVER_COUNT) 1 ∧ t.dev.rd Reg.SEC_DELIVER_LAST = 2 ^ 31 + 6 * 2 ^ 8 + OK ∧ weightKey t.dev (field (padTo 12 plain) 4 8) = none ∧ (∀ i, i ≠ field (padTo 12 plain) 4 8 → weightKey t.dev i = weightKey s.dev i) ∧ t.dev.sec.sessKeys = s.dev.sec.sessKeys ∧ t.mem = s.mem)) ∧
  (∀ (m : TMsg) (chain sig tag : Bool) (plain bs : List Byte) (d : Dev) (s : State), (served s.dev m famKey 1 ∧ s.dev.partIn (reqOf m famKey 1) false = (OK, some bs, d) ∧ pkgOk bs = false ∧ field bs 4 1 ≠ 5 ∧ s.dev.domainOn 0x058 = true) → Runs (.keyDeliver (some m) chain sig tag plain) s (fun t => t.dev.rd Reg.SEC_DELIVER_FAIL_COUNT = satAdd 32 (s.dev.rd Reg.SEC_DELIVER_FAIL_COUNT) 1 ∧ t.dev.rd Reg.SEC_DELIVER_COUNT = s.dev.rd Reg.SEC_DELIVER_COUNT ∧ t.dev.err 0x058 0 = true ∧ t.dev.sec = d.sec ∧ t.mem = s.mem)) ∧
  (∀ (i : Fin 4) (x : Delivery) (before after : List Delivery) (s : State), (s.dev.sec.deliveries = before ++ x :: after ∧ before.length = i.val) → Runs (.deliveryPartTimeout i) s (fun t => t.dev = { s.dev with sec := { s.dev.sec with deliveries := before ++ after } } ∧ t.mem = s.mem)) ∧
  (∀ (m : TMsg) (slot : Fin 16) (htag : Bool) (k : WeightKey) (s : State), (s.dev.sec.unsealing = none ∧ served s.dev m famKey 2 ∧ m.src = .host slot ∧ m.body.length = 28 ∧ field m.body 24 4 = 0 ∧ s.dev.unsealKey (reqOf m famKey 2) (field m.body 12 8) = (some k, s.dev) ∧ unsealStatus s k (field m.body 0 6) (field m.body 6 6) (field m.body 20 4) htag = OK) → Runs (.unseal (some m) htag) s (fun t => t.dev.sec.unsealing = some ⟨reqOf m famKey 2, field m.body 0 6, field m.body 6 6, field (s.mem.bytes (field m.body 0 6) 144) 16 8, field (s.mem.bytes (field m.body 0 6) 144) 24 4, field (s.mem.bytes (field m.body 0 6) 144) 64 64, k⟩ ∧ t.dev.rd Reg.KEY_UNSEAL_STATE = 2 ^ 31 ∧ t.dev.out = s.dev.out ∧ t.mem = s.mem)) ∧
  (∀ (m : TMsg) (slot : Fin 16) (htag : Bool) (s : State), (s.dev.sec.unsealing = none ∧ served s.dev m famKey 2 ∧ m.src = .host slot ∧ m.body.length = 28 ∧ field m.body 24 4 = 0 ∧ s.dev.unsealKey (reqOf m famKey 2) (field m.body 12 8) = (none, s.dev)) → Runs (.unseal (some m) htag) s (fun t => t.dev = s.dev.reply (reqOf m famKey 2) KEY_ABSENT [] ∧ t.dev.sec = s.dev.sec ∧ t.mem = s.mem)) ∧
  (∀ (plain bs : List Byte) (j : UnsealJob) (r : Nat) (s : State), (s.dev.sec.unsealing = some j ∧ bs = padTo j.len plain ∧ 1 ≤ j.len ∧ gdSound s.dev (unsealUser j.key false) j.src (sealedBytes j.len) ∧ gdHeld s.dev j.dst j.len = false ∧ gdCheck s.dev (unsealUser j.key true) j.dst j.len = OK ∧ Config.shake256 bs % 2 ^ 512 = j.digest ∧ freeRange s.dev = some r ∧ s.dev.armedFirst (0x090 + j.dst / 2 ^ 34) [0, 1] = none) → Runs (.unsealDone true plain) s (fun t => t.mem = s.mem.store j.dst bs ∧ t.dev.sec.unsealing = none ∧ keyRangeValid t.dev r = true ∧ t.dev.rd Reg.ATT_UNSEALS = satAdd 32 (s.dev.rd Reg.ATT_UNSEALS) 1 ∧ t.dev.rd Reg.KEY_UNSEAL_STATE = OK)) ∧
  (∀ (tags : Bool) (plain : List Byte) (j : UnsealJob) (s : State), (s.dev.sec.unsealing = some j ∧ (tags = false ∨ Config.shake256 (padTo j.len plain) % 2 ^ 512 ≠ j.digest) ∧ gdHeld s.dev j.src (sealedBytes j.len) = false ∧ gdHeld s.dev j.dst j.len = false ∧ s.dev.domainOn 0x059 = true) → Runs (.unsealDone tags plain) s (fun t => t.dev.sec.unsealing = none ∧ t.dev.rd Reg.KEY_UNSEAL_STATE = UNSEAL_FAIL ∧ t.dev.err 0x059 1 = true ∧ t.dev.rd Reg.ATT_UNSEALS = s.dev.rd Reg.ATT_UNSEALS)) ∧
  (∀ (m : TMsg) (slot : Fin 16) (s : State), (served s.dev m famDebug 1 ∧ m.src = .host slot ∧ slotTenant s.dev slot.val = none) → Runs (.debugChallenge (some m)) s (fun t => t.dev = s.dev.reply (reqOf m famDebug 1) OK (leBytes 32 (dbgChallenge s.dev)) ∧ t.dev.sec = s.dev.sec ∧ t.mem = s.mem)) ∧
  (∀ (m : TMsg) (slot : Fin 16) (chain sig : Bool) (d : Dev) (s : State), (served s.dev m famDebug 2 ∧ m.src = .host slot ∧ slotTenant s.dev slot.val = none ∧ s.dev.partIn (reqOf m famDebug 2) true = (OK, none, d)) → Runs (.debugUnlock (some m) chain sig) s (fun t => t.dev = d.reply (reqOf m famDebug 2) OK [] ∧ t.dev.sec = d.sec ∧ t.dev.regs = s.dev.regs ∧ t.mem = s.mem)) ∧
  (∀ (m : TMsg) (slot : Fin 16) (bs : List Byte) (d : Dev) (s : State), (served s.dev m famDebug 2 ∧ m.src = .host slot ∧ slotTenant s.dev slot.val = none ∧ s.dev.partIn (reqOf m famDebug 2) true = (OK, some bs, d) ∧ tokenStatus d bs true true = OK ∧ s.dev.domainOn 0x05B = true) → Runs (.debugUnlock (some m) true true) s (fun t => dbgMode t.dev = field bs 4 1 % 4 ∧ t.dev.rd Reg.DBG_LEASE_LEFT = field bs 48 4 ∧ t.dev.sec.leaseAt = s.dev.clk.aon ∧ t.dev.rd Reg.DBG_UNLOCK_COUNT = satAdd 32 (s.dev.rd Reg.DBG_UNLOCK_COUNT) 1 ∧ t.dev.err 0x05B 1 = true ∧ t.mem = s.mem)) ∧
  (∀ (m : TMsg) (slot : Fin 16) (chain sig : Bool) (bs : List Byte) (d : Dev) (s : State), (served s.dev m famDebug 2 ∧ m.src = .host slot ∧ slotTenant s.dev slot.val = none ∧ s.dev.partIn (reqOf m famDebug 2) true = (OK, some bs, d) ∧ tokenStatus d bs chain sig ≠ OK ∧ s.dev.domainOn 0x05B = true) → Runs (.debugUnlock (some m) chain sig) s (fun t => dbgMode t.dev = dbgMode s.dev ∧ t.dev.rd Reg.DBG_UNLOCK_FAIL_COUNT = satAdd 32 (s.dev.rd Reg.DBG_UNLOCK_FAIL_COUNT) 1 ∧ t.dev.err 0x05B 0 = true ∧ t.mem = s.mem)) ∧
  (∀ (m : TMsg) (slot : Fin 16) (s : State), (served s.dev m famDebug 3 ∧ m.src = .host slot ∧ slotTenant s.dev slot.val = none ∧ s.dev.rd Reg.DBG_CORE_STATE = 0) → Runs (.debugRelock (some m)) s (fun t => dbgMode t.dev = 0 ∧ t.dev.rd Reg.DBG_LEASE_LEFT = 0 ∧ t.dev.sec.pinsDriven = false ∧ t.dev.pwr = s.dev.pwr ∧ t.mem = s.mem)) ∧
  (∀ (m : TMsg) (slot : Fin 16) (s : State), (served s.dev m famDebug 5 ∧ m.src = .host slot ∧ slotTenant s.dev slot.val = none ∧ m.body.length = 12 ∧ field m.body 0 1 ≤ 1 ∧ field m.body 1 1 = 0 ∧ coreReached s.dev (field m.body 0 1) = true ∧ s.dev.powered.core = true) → Runs (.debugCore (some m)) s (fun t => t.dev.rd Reg.DBG_CORE_STATE = setBit (s.dev.rd Reg.DBG_CORE_STATE) (field m.body 0 1) ∧ t.dev.sec = s.dev.sec ∧ t.mem = s.mem)) ∧
  (∀ (m : TMsg) (slot : Fin 16) (v : Nat) (s : State), (served s.dev m famDebug 5 ∧ m.src = .host slot ∧ slotTenant s.dev slot.val = none ∧ m.body.length = 12 ∧ field m.body 0 1 ≤ 1 ∧ field m.body 1 1 = 3 ∧ coreReached s.dev (field m.body 0 1) = true ∧ s.dev.powered.core = true ∧ SMap.get (fun _ => none) s.dev.sec.coreRegs (field m.body 0 1 * 2 ^ 16 + field m.body 2 2) = some v) → Runs (.debugCore (some m)) s (fun t => t.dev = s.dev.reply (reqOf m famDebug 5) OK (leBytes 8 v) ∧ t.dev.sec = s.dev.sec ∧ t.dev.regs = s.dev.regs ∧ t.mem = s.mem)) ∧
  (∀ (m : TMsg) (slot : Fin 16) (s : State), (served s.dev m famDebug 5 ∧ m.src = .host slot ∧ slotTenant s.dev slot.val = none ∧ m.body.length = 12 ∧ field m.body 0 1 ≤ 2 ∧ field m.body 1 1 ≤ 4 ∧ coreReached s.dev (field m.body 0 1) = false) → Runs (.debugCore (some m)) s (fun t => t.dev = s.dev.reply (reqOf m famDebug 5) ACCESS_DENIED [] ∧ t.dev.regs = s.dev.regs ∧ t.mem = s.mem)) ∧
  (∀ (s : State), (dbgMode s.dev ≠ 0 ∧ s.dev.rd Reg.DBG_CORE_STATE = 0 ∧ s.dev.domainOn 0x05B = true) → Runs .leaseEnd s (fun t => dbgMode t.dev = 0 ∧ t.dev.rd Reg.DBG_LEASE_LEFT = 0 ∧ t.dev.err 0x05B 2 = true ∧ t.dev.out = s.dev.out ∧ t.mem = s.mem)) ∧
  (∀ (mode : Fin 4) (s : State), (s.dev.sec.lc = lcBlank ∧ s.dev.powered.aon = true ∧ mode.val ≠ 0) → Runs (.dbgUnlock mode) s (fun t => dbgMode t.dev = mode.val ∧ t.dev.rd Reg.DBG_LEASE_LEFT = 0 ∧ t.dev.rd Reg.DBG_UNLOCK_COUNT = satAdd 32 (s.dev.rd Reg.DBG_UNLOCK_COUNT) 1 ∧ t.mem = s.mem)) ∧
  (∀ (mode : Fin 4) (s : State), (s.dev.sec.lc ≠ lcBlank) → Runs (.dbgUnlock mode) s (fun t => t.dev = s.dev ∧ t.mem = s.mem)) ∧
  (∀ (s : State), (s.dev.powered.aon = true) → Runs (.jtagInstruction .idcode) s (fun t => t.dev.out = s.dev.out ++ [.debugValue 0 (idcodeWord)] ∧ t.dev.sec.pinsDriven = false ∧ t.dev.regs = s.dev.regs ∧ t.mem = s.mem)) ∧
  (∀ (i : JtagInstr) (s : State), ((i = .extest ∨ i = .clamp ∨ i = .highz) ∧ s.dev.sec.lc = lcDeploy ∧ 2 ≤ dbgMode s.dev ∧ s.dev.powered.core = true) → Runs (.jtagInstruction i) s (fun t => t.dev.sec.pinsDriven = true ∧ (∀ p, p < 6 → (portOf t.dev p).st = .down) ∧ t.mem = s.mem))

/-- STATUS READ and the Knocker run. A taken Knock frame stores its COUNTER, does its command and is answered; one that fails a check changes no COUNTER and is counted; one that comes too soon is dropped. -/
def Obligations.KnocksRun : Prop :=
  (∀ (m : TMsg) (s : State), (served s.dev m famStatus 1 ∧ m.body = []) → Runs (.statusRead (some m)) s (fun t => t.dev = s.dev.reply (reqOf m famStatus 1) OK (statusBlock s.dev) ∧ t.dev.regs = s.dev.regs ∧ t.mem = s.mem)) ∧
  (∀ (k : Knock) (s : State), (knockTaken s.dev k ∧ k.arg = 0) → Runs (.knockStatus k) s (fun t => knockDone t k 1 OK ∧ t.dev.rd Reg.KNK_ACCEPT_COUNT = satAdd 32 (s.dev.rd Reg.KNK_ACCEPT_COUNT) 1 ∧ t.mem = s.mem)) ∧
  (∀ (k : Knock) (s : State), (s.dev.powered.aon = true ∧ k.soon = true) → Runs (.knockStatus k) s (fun t => t.dev.rd Reg.KNK_RATE_DROP_COUNT = satAdd 32 (s.dev.rd Reg.KNK_RATE_DROP_COUNT) 1 ∧ knkCounter t.dev = knkCounter s.dev ∧ t.dev.out = s.dev.out ∧ t.mem = s.mem)) ∧
  (∀ (k : Knock) (s : State), (s.dev.powered.aon = true ∧ k.soon = false ∧ s.dev.armed 0x059 0 = false ∧ (k.tagOk = false ∨ k.counter ≤ knkCounter s.dev ∨ k.version ≠ 1) ∧ s.dev.domainOn 0x042 = true) → Runs (.knockStatus k) s (fun t => t.dev.rd Reg.KNK_REJECT_COUNT = satAdd 32 (s.dev.rd Reg.KNK_REJECT_COUNT) 1 ∧ knkCounter t.dev = knkCounter s.dev ∧ t.dev.err 0x042 0 = true ∧ t.dev.out = s.dev.out ∧ t.mem = s.mem)) ∧
  (∀ (k : Knock) (s : State), (knockTaken s.dev k ∧ k.arg ≤ 16) → Runs (.recTail k) s (fun t => knockDone t k 2 OK ∧ t.dev.recd.circ = s.dev.recd.circ ∧ t.dev.recd.perm = s.dev.recd.perm ∧ t.mem = s.mem)) ∧
  (∀ (k : Knock) (s : State), (knockTaken s.dev k ∧ k.arg = 1 ∧ s.dev.recd.frozen = false ∧ s.dev.recd.freezeAt = none ∧ s.dev.recd.stopped = false ∧ s.dev.recd.flushing = false) → Runs (.recFreeze k) s (fun t => knockDone t k 3 OK ∧ t.dev.recd.freezeAt = some s.dev.recd.nextNum ∧ t.mem = s.mem)) ∧
  (∀ (k : Knock) (old : Bool) (s : State), (knockTaken s.dev k ∧ k.arg = 0 ∧ s.dev.powered.core = true ∧ switching s.dev = false ∧ s.dev.bel.active = some old ∧ standbyHealthy s.dev = true) → Runs (.switchCore k) s (fun t => knockDone t k 4 OK ∧ t.dev.bel.active = some (!old) ∧ t.mem = s.mem)) ∧
  (∀ (k : Knock) (s : State), (knockTaken s.dev k ∧ k.arg = 0 ∧ s.dev.powered.core = true ∧ switching s.dev = false ∧ (s.dev.bel.active = none ∨ standbyHealthy s.dev = false)) → Runs (.switchCore k) s (fun t => knockDone t k 4 SWITCH_REFUSED ∧ t.dev.bel = s.dev.bel ∧ t.mem = s.mem)) ∧
  (∀ (k : Knock) (s : State), (knockTaken s.dev k ∧ k.arg = 0) → Runs (.knockErrN k) s (fun t => knockDone t k 5 OK ∧ (t.dev.rd Reg.TOC_ERRN).testBit 29 = false ∧ t.dev.toc.pulse = s.dev.toc.pulse ∧ t.mem = s.mem)) ∧
  (∀ (k : Knock) (s : State), (knockTaken s.dev k ∧ 10 ≤ bits k.arg 15 0 ∧ bits k.arg 15 0 ≤ 10000 ∧ k.arg < 2 ^ 17) → Runs (.knockErrN k) s (fun t => knockDone t k 5 OK ∧ t.dev.toc.pulse = some (k.arg.testBit 16 || s.dev.toc.pulse.getD false) ∧ t.mem = s.mem)) ∧
  (∀ (k : Knock) (s : State), (knockTaken s.dev k ∧ 1 ≤ k.arg ∧ bits k.arg 15 0 < 10) → Runs (.knockErrN k) s (fun t => knockDone t k 5 BAD_ARG ∧ t.dev.toc.pulse = s.dev.toc.pulse ∧ t.dev.rd Reg.TOC_ERRN = s.dev.rd Reg.TOC_ERRN ∧ t.dev.rd Reg.KNK_ACCEPT_COUNT = s.dev.rd Reg.KNK_ACCEPT_COUNT ∧ t.mem = s.mem)) ∧
  (∀ (k : Knock) (s : State), (knockTaken s.dev k ∧ k.arg = 1 ∧ (s.dev.pwr.running ++ s.dev.pwr.held).any (fun x => x.covers ⟨rkModule, 0, rcKnock⟩) = false ∧ s.dev.pwr.due = []) → Runs (.knockReset k) s (fun t => knockDone t k 6 OK ∧ t.dev.pwr = { s.dev.pwr with due := [⟨rkModule, 0, rcKnock⟩] } ∧ t.mem = s.mem)) ∧
  (∀ (k : Knock) (s : State), (knockTaken s.dev k ∧ k.arg ≤ 4 ∧ dieHot s.dev = true) → Runs (.knockPower k) s (fun t => knockDone t k 7 PWR_BUSY ∧ t.dev.pwr = s.dev.pwr ∧ t.dev.rd Reg.PWR_TARGET = s.dev.rd Reg.PWR_TARGET ∧ t.mem = s.mem)) ∧
  (∀ (k : Knock) (s : State), (knockTaken s.dev k ∧ k.arg = 1 ∧ dieHot s.dev = false ∧ changing s.dev = false ∧ scrubbing s.dev = false ∧ bootStage s.dev < sgWaves ∧ bits (s.dev.rd Reg.PWR_STATE) 2 0 = 1 ∧ moduleResets s.dev = false) → Runs (.knockPower k) s (fun t => knockDone t k 7 OK ∧ t.dev.rd Reg.PWR_TARGET = 1))

/-- A step runs the command at the front of the queue. With a command at the front, a step is that command's effect on the state with the queue's rest. On an empty queue the always-on clock ticks once and only what follows from time alone may change: the model's choice (log entry 1). -/
def Obligations.StepTakesTheFront : Prop :=
  (∀ (c : Instr) (rest : List Instr) (s : State), step { s with pending := c :: rest } = exec c { s with pending := rest }) ∧
  (∀ (s : State), (s.pending = []) → ∃ t, step s = .next t ∧ t.dev.clk.aon = s.dev.clk.aon + 1 ∧ (s.dev.host.slew = 0 → t.dev.clk.cal = (s.dev.clk.cal + 10) % 2 ^ 64) ∧ framed [.regs, .clk, .host, .toc, .recd, .optSince, .mgr, .out] [0x038, 0x060, 0x061] allPages s t)

/-- No command stops the block, and none reaches into the queue. For every command and every state the answer is a next state, whose queue is the one the command was given; a step on a waiting command removes exactly that command. -/
def Obligations.EveryCommandAnswersNext : Prop :=
  (∀ (c : Instr) (s : State), ∃ t, exec c s = .next t ∧ t.pending = s.pending) ∧
  (∀ (c : Instr) (rest : List Instr) (s : State), (s.pending = c :: rest) → ∃ t, step s = .next t ∧ t.pending = rest)

/-- Every step keeps the memories canonical. From every state whose two memories are canonical (keys rise, nothing is listed that an unlisted key reads as, every GDDR7 byte listed lies in a wing's GDDR7), a step on any command, or on an empty queue, leaves them so. Equal memories are therefore equal data. -/
def Obligations.MemoryStaysCanonical : Prop :=
  ∀ (s : State), (s.inv) → ∀ t, step s = .next t → t.inv

/-- What a reset of kind P leaves. The queue is empty and the memories canonical with nothing listed; only the always-on domain is powered; registers read at the defaults their tables give. -/
def Obligations.ResetState : Prop :=
  (State.reset.inv ∧ State.reset.pending = [] ∧ State.reset.mem.gd = [] ∧ State.reset.mem.cel = [] ∧ State.reset.dev.powered = ⟨true, false, 0, 0⟩) ∧
  (State.reset.dev.rd Reg.VCA_WEIGHT = 0x10102040 ∧ State.reset.dev.rd Reg.VCA_C0_LIMIT = 35 ∧ State.reset.dev.rd Reg.AGT_CMAP_PERIOD = 100 ∧ State.reset.dev.rd Reg.HALL_TIMEOUT = 20 ∧ State.reset.dev.rd Reg.HALL_WING_STATE = 0)

/-- No word spells a command. The opcode table gives no row any bits, so no word decodes to a command and putting a word at the front of the queue changes nothing. -/
def Obligations.NoWordSpellsACommand : Prop :=
  ∀ (nbits w : Nat) (s : State), Sys2Proof.decodeTableWord nbits w = none ∧ s.withFetchWord nbits w = s

/-- The device and the device address of a GDDR7 address. The device is the granule number modulo 3, the device address is the granule number divided by 3 with the low byte, and no other device and device address stand for the same address; with the rule's example. -/
def Obligations.DeviceAddresses : Prop :=
  (∀ (a w : Nat), (gdWing a 1 = some w) → let o := a - w * 0x400000000; let g := o >>> 8; let da := ((g / 3) <<< 8) ||| (o &&& 0xFF); gdDevice a = g % 3 ∧ gdAddress w (g % 3) da = a ∧ ∀ dev da', dev < 3 → gdAddress w dev da' = a → dev = g % 3 ∧ da' = da) ∧
  (gdWing 0x400000300 1 = some 1 ∧ gdDevice 0x400000300 = 0 ∧ gdAddress 1 0 0x100 = 0x400000300)

/-- The generator's entries. An RTB_GEN that is taken writes, for each of the 32,768 targets, the entry of the rule: invalid outside RTB_DIMS, LOCAL for the module itself, else the preferred direction on the first axis that differs when its links are clear, else the other one as a detour, else invalid. The other bank's entries stay. -/
def Obligations.GeneratorFillsBank : Prop :=
  ∀ (master : Byte) (value : Word) (s : State), (writeTaken s.dev master.toNat (mAddr Reg.RTB_GEN) 32 value.toNat ∧ bankState s.dev (value.toNat % 2) = 0 ∧ maValid s.dev = true ∧ ∀ a, a < 3 → coord (myMa s.dev) a < dimLen s.dev a) → ∃ t, exec (.rtbGen master value) s = .next t ∧ (∀ m, routeEntry t.dev (1 - value.toNat % 2) m = routeEntry s.dev (1 - value.toNat % 2) m ∨ 2 ^ 15 ≤ m) ∧
   ∀ m, m < 2 ^ 15 →
    ((∃ a, a < 3 ∧ dimLen s.dev a ≤ coord m a) → routeEntry t.dev (value.toNat % 2) m = 0) ∧
    ((∀ a, a < 3 → coord m a < dimLen s.dev a) → m = myMa s.dev → routeEntry t.dev (value.toNat % 2) m = 2 ^ 31 + 6 * 2 ^ 28) ∧
    ((∀ a, a < 3 → coord m a < dimLen s.dev a) → ∀ a, a < 3 → (∀ i, i < a → coord m i = coord (myMa s.dev) i) → coord m a ≠ coord (myMa s.dev) a →
      let c := coord (myMa s.dev) a; let l := dimLen s.dev a; let dp := (((coord m a : Int) - c) % l).toNat; let dn := l - dp
      let out (i : Nat) : Bool := (lineMask s.dev a).testBit (i % l)
      let clearP := ∀ i, i < dp → out (c + i) = false
      let clearN := ∀ i, 1 ≤ i → i ≤ dn → out (c + l - i) = false
      (dp ≤ dn → clearP → routeEntry t.dev (value.toNat % 2) m = 2 ^ 31 + (2 * a) * 2 ^ 28) ∧
      (dp ≤ dn → ¬ clearP → clearN → routeEntry t.dev (value.toNat % 2) m = 2 ^ 31 + (2 * a + 1) * 2 ^ 28 + 2 ^ 27) ∧
      (dn < dp → clearN → routeEntry t.dev (value.toNat % 2) m = 2 ^ 31 + (2 * a + 1) * 2 ^ 28) ∧
      (dn < dp → ¬ clearN → clearP → routeEntry t.dev (value.toNat % 2) m = 2 ^ 31 + (2 * a) * 2 ^ 28 + 2 ^ 27) ∧
      (¬ clearP → ¬ clearN → routeEntry t.dev (value.toNat % 2) m = 0))

/-- The bounds of ERR_SEVERE, and a window of its own for each source. Where a page would take a write of ERR_SEVERE, one with N 0, W 0 or W above 3,600,000 completes with OUT_OF_RANGE and leaves the register as it is. An event opens the window of its own source with the N and W of the source's page and changes no other source. -/
def Obligations.SeverityBounds : Prop :=
  (∀ (master : Byte) (addr : BitVec 40) (value : BitVec 64) (b : Nat) (s : State), (mTarget addr.toNat = .page b 0x034 ∧ accessCheck s.dev master.toNat addr.toNat 32 true 0x401 = OK ∧ (bits value.toNat 7 0 = 0 ∨ bits value.toNat 31 10 = 0 ∨ 3600000 < bits value.toNat 31 10) ∧ s.dev.coreStopped master.toNat = false ∧ accessBehind s.dev master.toNat addr.toNat = false ∧ quiet s.dev) → ∃ t, exec (.registerWrite master addr 32 value) s = .next t ∧ t.dev.out.getLast? = some (.access master.toNat addr.toNat OUT_OF_RANGE 0) ∧ t.dev.rd (rkey b 0x034) = s.dev.rd (rkey b 0x034)) ∧
  (∀ (b : BitVec 12) (n : Fin 32) (src p : Nat) (s : State), (sourceOf b.toNat n.val = some src ∧ SMap.get (fun _ => 0) s.dev.toc.pend (b.toNat * 32 + n.val) = p + 1 ∧ s.dev.domainOn b.toNat = true ∧ (tocSrc s.dev src).st = .idle ∧ (tocSrc s.dev src).win = none ∧ (s.dev.rd (rkey b.toNat 0x024)).testBit n.val = false ∧ clearingRuns s.dev src = false ∧ s.dev.toc.cfgBad.contains src = false ∧ s.dev.armed 0x060 1 = false ∧ bits (cfgByte s.dev src) 2 0 ≤ 2 ∧ 2 ≤ bits (s.dev.rd (rkey (sourcePage src).1 0x034)) 7 0) → ∃ t, exec (.tocsinEvent b n) s = .next t ∧ (tocSrc t.dev src).win = some (1, bits (s.dev.rd (rkey (sourcePage src).1 0x034)) 7 0, bits (s.dev.rd (rkey (sourcePage src).1 0x034)) 31 10) ∧ ∀ other, other ≠ src → tocSrc t.dev other = tocSrc s.dev other)

/-- Rings of a disabled mailbox. A ring at a mailbox whose ENABLE is 0 leaves its doorbells and messages as they are, counts and raises DB_DROP. An engine's notify, whatever its NOTIFY register holds, leaves every engine, every mailbox and every waiting access as it is. -/
def Obligations.DisabledMailboxRings : Prop :=
  (∀ (d : Dev) (m n : Nat), ((d.rd (mbxKey Reg.MBXM_CFG m)).testBit 31 = false ∧ m < 64 ∧ d.domainOn 0x050 = true) → (d.ring m n).rd Reg.MBX_DB_DROP_COUNT = min (d.rd Reg.MBX_DB_DROP_COUNT + 1) 0xFFFFFFFF ∧ (d.ring m n).err 0x050 4 = true ∧ (d.ring m n).mbx = d.mbx ∧ ∀ k, k < 64 → (d.ring m n).rd (mbxKey Reg.MBXM_DB k) = d.rd (mbxKey Reg.MBXM_DB k)) ∧
  (∀ (d : Dev) (key : Nat), (d.notify key).mbx = d.mbx ∧ (d.notify key).acc = d.acc ∧ (d.notify key).arr = d.arr ∧ (d.notify key).cel = d.cel ∧ (d.notify key).col = d.col ∧ (d.notify key).rtr = d.rtr ∧ (d.notify key).opt = d.opt)

/-- What a refused write does. A write that one of the checks refuses, and that no earlier access of its master to the page waits before, completes at its master with that status, shown in MOD_ACCESS_STATUS, and changes nothing but the count, MOD_ACCESS_LAST and the event of a refusal: no other register, no memory, no queue. A page whose domain is off answers POWER_OFF, which is no refusal. -/
def Obligations.RefusedAccesses : Prop :=
  (∀ (master : Byte) (addr : BitVec 40) (width : Nat) (value : BitVec 64) (s : State), (isRefusal (accessCheck s.dev master.toNat addr.toNat width true (value.toNat % 2 ^ width)) = true ∧ s.dev.domainOn 0x000 = true ∧ s.dev.coreStopped master.toNat = false ∧ accessBehind s.dev master.toNat addr.toNat = false ∧ quiet s.dev) → ∃ t, exec (.registerWrite master addr width value) s = .next t ∧ framed [.regs, .out, .acc, .toc, .recd] [0x00, 0x60, 0x61] 0x1000 s t ∧ t.dev.out.getLast? = some (.access master.toNat addr.toNat (accessCheck s.dev master.toNat addr.toNat width true (value.toNat % 2 ^ width)) 0) ∧ t.dev.rd Reg.MOD_ACCESS_FAULT_COUNT = min (s.dev.rd Reg.MOD_ACCESS_FAULT_COUNT + 1) 0xFFFFFFFF ∧ t.dev.rd (bankKey master.toNat Reg.MOD_ACCESS_STATUS) = accessCheck s.dev master.toNat addr.toNat width true (value.toNat % 2 ^ width) ∧ (s.dev.acc.refused.contains master.toNat = false → t.dev.err 0x000 0 = true)) ∧
  (∀ (master : Byte) (addr : BitVec 40) (width : Nat) (value : BitVec 64) (s : State), (accessCheck s.dev master.toNat addr.toNat width true (value.toNat % 2 ^ width) = POWER_OFF ∧ s.dev.coreStopped master.toNat = false ∧ accessBehind s.dev master.toNat addr.toNat = false ∧ quiet s.dev) → ∃ t, exec (.registerWrite master addr width value) s = .next t ∧ framed [.regs, .out] [] 0x1000 s t ∧ t.dev.out = s.dev.out ++ [.access master.toNat addr.toNat POWER_OFF 0] ∧ t.dev.rd (bankKey master.toNat Reg.MOD_ACCESS_STATUS) = POWER_OFF)

/-- The Hall, GDDR7, the copy engine and the Cellar: what each command leaves unchanged. Wherever the command answers a next state, every waiting command, every part of the state it does not name and every register of the pages it does not name keep their value; a command that names pages only below a bound says nothing of those above it. -/
def Obligations.MemoryPathsKeepTheRest : Prop :=
  (∀ reqs, Frame [.regs, .out, .hall] [0x10] allPages (.hallRequest reqs)) ∧
  (∀ src dst tag status, Frame [.out, .hall] [] allPages (.hallResponse src dst tag status)) ∧
  (∀ src dst tag, Frame [.clk, .free, .regs, .out, .stopped, .powered, .acc, .hall, .toc, .recd, .gddr, .tiles, .arr, .cel, .mbx, .lnk, .rtr, .opt, .optGen, .optSince, .col, .agt, .bel, .mgr, .host, .pwr, .sec, .gdMem] [] 0x0 (.hallTimeout src dst tag)) ∧
  (∀ w m, Frame [.clk, .free, .regs, .out, .stopped, .powered, .acc, .hall, .toc, .recd, .gddr, .tiles, .arr, .cel, .mbx, .lnk, .rtr, .opt, .optGen, .optSince, .col, .agt, .bel, .mgr, .host, .pwr, .sec, .gdMem] [] 0x0 (.ucieLost w m)) ∧
  (∀ w, Frame [.clk, .free, .regs, .out, .stopped, .powered, .acc, .hall, .toc, .recd, .gddr, .tiles, .arr, .cel, .mbx, .lnk, .rtr, .opt, .optGen, .optSince, .col, .agt, .bel, .mgr, .host, .pwr, .sec, .gdMem] [] 0x0 (.wingLost w)) ∧
  (∀ w, Frame [.regs, .gddr] [] 0x90 (.gdRetrainPeriod w)) ∧
  (∀ w dev, Frame [.clk, .free, .regs, .out, .stopped, .powered, .acc, .hall, .toc, .recd, .gddr, .tiles, .arr, .cel, .mbx, .lnk, .rtr, .opt, .optGen, .optSince, .col, .agt, .bel, .mgr, .host, .pwr, .sec, .gdMem] [] 0x0 (.gdRecalDone w dev)) ∧
  (∀ addr err user, Frame [.free, .regs, .out, .hall, .toc, .recd, .gddr, .gdMem] [] 0x8 (.gdLineRead addr err user)) ∧
  (∀ addr bytes user, Frame [.free, .regs, .out, .hall, .toc, .recd, .gddr, .gdMem] [] 0x8 (.gdLineWrite addr bytes user)) ∧
  (∀ w dev err, Frame [.free, .regs, .toc, .recd, .gddr] [0x60, 0x61] 0x90 (.gdPatrol w dev err)) ∧
  (∀ master w n owner value, Frame [.regs, .out, .acc, .toc, .recd] [] 0x0 (.wngRegionWrite master w n owner value)) ∧
  (∀ master n value, Frame [.free, .regs, .out, .acc, .hall, .toc, .recd, .gddr, .cel] [0x00] 0x8 (.copySubmit master n value)) ∧
  (∀ master n value, Frame [.regs, .out, .acc, .toc, .recd] [] 0x0 (.celCeTenantWrite master n value)) ∧
  (∀ n, Frame [.free, .regs, .out, .hall, .toc, .recd, .gddr, .cel, .gdMem] [] 0x8 (.copyStart n)) ∧
  (∀ n err, Frame [.free, .regs, .hall, .toc, .recd, .gddr, .cel, .gdMem, .celMem] [] 0x8 (.cellarUnitAccess n err)) ∧
  (∀ p eng, Frame [.regs, .toc, .recd, .cel] [0x4C, 0x60, 0x61] allPages (.cxlTimeout p eng)) ∧
  (∀ n, Frame [.free, .regs, .out, .hall, .toc, .recd, .gddr, .cel, .gdMem] [] 0x8 (.copyComplete n)) ∧
  (∀ n, Frame [.free, .regs, .out, .hall, .toc, .recd, .gddr, .cel, .gdMem, .celMem] [] 0x8 (.copyFailDone n)) ∧
  (∀ n, Frame [.regs, .out, .toc, .recd, .cel, .celMem] [] 0x4c (.copyFault n)) ∧
  (∀ master mask, Frame [.regs, .out, .acc, .toc, .recd] [0x00, 0x4C, 0x60, 0x61] 0x1000 (.retrain master mask)) ∧
  (∀ p how, Frame [.regs, .toc, .recd, .cel, .celMem] [] 0x4c (.celPortTrained p how)) ∧
  (∀ master p n system tenant, Frame [.regs, .out, .acc, .toc, .recd, .cel] [0x00] 0x4c (.celPageGive master p n system tenant)) ∧
  (∀ master p n, Frame [.regs, .out, .acc, .toc, .recd, .cel] [0x00] 0x4c (.celPageRelease master p n)) ∧
  (∀ p n, Frame [.cel, .celMem] [] allPages (.celReleaseFillDone p n)) ∧
  (∀ p, Frame [.regs, .toc, .recd, .cel] [] 0x4c (.sweepUnitRead p)) ∧
  (∀ p, Frame [.regs, .celMem] [] 0x4c (.sweepJournalAck p)) ∧
  (∀ p, Frame [.regs, .cel] [] 0x4c (.sweepUnitDone p)) ∧
  (∀ tenant, Frame [.regs, .cel] [] allPages (.slotRetire tenant))

/-- Tiles and the array: what each command leaves unchanged. Wherever the command answers a next state, every waiting command, every part of the state it does not name and every register of the pages it does not name keep their value; a command that names pages only below a bound says nothing of those above it. -/
def Obligations.ArrayKeepsTheRest : Prop :=
  (∀ i err, Frame [.clk, .free, .regs, .out, .stopped, .powered, .acc, .hall, .toc, .recd, .gddr, .tiles, .arr, .cel, .mbx, .lnk, .rtr, .opt, .optGen, .optSince, .col, .agt, .bel, .mgr, .host, .pwr, .sec, .gdMem] [] 0x0 (.kblockDone i err)) ∧
  (∀ i, Frame [.clk, .free, .regs, .out, .stopped, .powered, .acc, .hall, .toc, .recd, .gddr, .tiles, .arr, .cel, .mbx, .lnk, .rtr, .opt, .optGen, .optSince, .col, .agt, .bel, .mgr, .host, .pwr, .sec, .gdMem] [] 0x0 (.tileBlockDone i)) ∧
  (∀ i, Frame [.clk, .free, .regs, .out, .stopped, .powered, .acc, .hall, .toc, .recd, .gddr, .tiles, .arr, .cel, .mbx, .lnk, .rtr, .opt, .optGen, .optSince, .col, .agt, .bel, .mgr, .host, .pwr, .sec, .gdMem] [] 0x0 (.operandTimeout i)) ∧
  (∀ i, Frame [.clk, .free, .regs, .out, .stopped, .powered, .acc, .hall, .toc, .recd, .gddr, .tiles, .arr, .cel, .mbx, .lnk, .rtr, .opt, .optGen, .optSince, .col, .agt, .bel, .mgr, .host, .pwr, .sec, .gdMem] [] 0x0 (.tileClearDone i)) ∧
  (∀ i, Frame [.regs, .toc, .recd] [0x60, 0x61] 0x400 (.clearFault i)) ∧
  (∀ c, Frame [.regs, .toc, .recd, .pwr] [0x60, 0x61] 0x600 (.pllUnlock c)) ∧
  (∀ master i value, Frame [.regs, .out, .acc, .toc, .recd] [] 0x0 (.park master i value)) ∧
  (∀ master value, Frame [.free, .regs, .out, .acc, .hall, .toc, .recd, .gddr, .arr] [0x00] 0x8 (.arrSubmit master value)) ∧
  (Frame [.clk, .free, .regs, .out, .stopped, .powered, .acc, .hall, .toc, .recd, .gddr, .tiles, .arr, .cel, .mbx, .lnk, .rtr, .opt, .optGen, .optSince, .col, .agt, .bel, .mgr, .host, .pwr, .sec, .gdMem] [] 0x0 .arrOpStart) ∧
  (Frame [.clk, .free, .regs, .out, .stopped, .powered, .acc, .hall, .toc, .recd, .gddr, .tiles, .arr, .cel, .mbx, .lnk, .rtr, .opt, .optGen, .optSince, .col, .agt, .bel, .mgr, .host, .pwr, .sec, .gdMem] [] 0x0 .passDone) ∧
  (Frame [.clk, .free, .regs, .out, .stopped, .powered, .acc, .hall, .toc, .recd, .gddr, .tiles, .arr, .cel, .mbx, .lnk, .rtr, .opt, .optGen, .optSince, .col, .agt, .bel, .mgr, .host, .pwr, .sec, .gdMem] [] 0x0 .arrWindowEntry) ∧
  (∀ n status, Frame [.clk, .free, .regs, .out, .stopped, .powered, .acc, .hall, .toc, .recd, .gddr, .tiles, .arr, .cel, .mbx, .lnk, .rtr, .opt, .optGen, .optSince, .col, .agt, .bel, .mgr, .host, .pwr, .sec, .gdMem] [] 0x0 (.arrOutputAck n status)) ∧
  (Frame [.free, .regs, .out, .acc, .hall, .toc, .recd, .gddr, .arr, .rtr, .opt, .gdMem] [0x00, 0x02] 0x8 .arrOpComplete) ∧
  (∀ master value, Frame [.free, .regs, .out, .acc, .hall, .toc, .recd, .gddr, .arr, .gdMem] [] 0x0 (.arrCplTail master value)) ∧
  (Frame [.free, .regs, .out, .acc, .hall, .toc, .recd, .gddr, .arr, .rtr, .opt, .gdMem] [0x00, 0x02] 0x8 .cplWrite) ∧
  (∀ master hold, Frame [.clk, .free, .regs, .out, .stopped, .powered, .acc, .hall, .toc, .recd, .gddr, .tiles, .arr, .cel, .mbx, .lnk, .rtr, .opt, .optGen, .optSince, .col, .agt, .bel, .mgr, .host, .pwr, .sec, .gdMem] [] 0x0 (.arrFlush master hold)) ∧
  (∀ master hold, Frame [.clk, .free, .regs, .out, .stopped, .powered, .acc, .hall, .toc, .recd, .gddr, .tiles, .arr, .cel, .mbx, .lnk, .rtr, .opt, .optGen, .optSince, .col, .agt, .bel, .mgr, .host, .pwr, .sec, .gdMem] [] 0x0 (.arrHold master hold)) ∧
  (∀ master value, Frame [.regs, .out, .acc, .toc, .recd] [] 0x0 (.arrTenantWrite master value)) ∧
  (Frame [.clk, .free, .regs, .out, .stopped, .powered, .acc, .hall, .toc, .recd, .gddr, .tiles, .arr, .cel, .mbx, .lnk, .rtr, .opt, .optGen, .optSince, .col, .agt, .bel, .mgr, .host, .pwr, .sec, .gdMem] [] 0x0 .arrStallTimeout) ∧
  (Frame [.free, .regs, .out, .hall, .toc, .recd, .gddr, .arr, .rtr, .opt, .gdMem] [0x02] 0x8 .arrFailDrained) ∧
  (∀ part, Frame [.clk, .free, .regs, .out, .stopped, .powered, .acc, .hall, .toc, .recd, .gddr, .tiles, .arr, .cel, .mbx, .lnk, .rtr, .opt, .optGen, .optSince, .col, .agt, .bel, .mgr, .host, .pwr, .sec, .gdMem] [] 0x0 (.handshake part))

/-- Links: what each command leaves unchanged. Wherever the command answers a next state, every waiting command, every part of the state it does not name and every register of the pages it does not name keep their value; a command that names pages only below a bound says nothing of those above it. -/
def Obligations.LinksKeepTheRest : Prop :=
  (∀ p, Frame [.regs, .out, .lnk] [] 0x20 (.lnkRetryInterval p)) ∧
  (∀ p signal rates, Frame [.free, .regs, .out, .toc, .recd, .lnk, .rtr, .agt, .host] [] 0x20 (.detectDone p signal rates)) ∧
  (∀ p lanes, Frame [.free, .regs, .out, .toc, .recd, .lnk, .rtr, .agt, .host] [] 0x20 (.equalizeDone p lanes)) ∧
  (∀ p delay peer, Frame [.free, .regs, .out, .toc, .recd, .lnk, .rtr, .agt, .host] [] 0x20 (.alignDone p delay peer)) ∧
  (∀ p, Frame [.out] [] allPages (.introResend p)) ∧
  (∀ p f i, Frame [.free, .regs, .out, .toc, .recd, .lnk, .rtr, .agt, .host] [] 0x20 (.introFrame p f i)) ∧
  (∀ p, Frame [.free, .regs, .out, .toc, .recd, .lnk, .rtr, .agt, .host] [] 0x20 (.introDone p)) ∧
  (∀ p m, Frame [.free, .regs, .out, .toc, .recd, .lnk, .rtr, .agt, .host] [] 0x20 (.kx1 p m)) ∧
  (∀ p m, Frame [.free, .regs, .out, .toc, .recd, .lnk, .rtr, .agt, .host] [] 0x20 (.kx2 p m)) ∧
  (∀ p m, Frame [.free, .regs, .out, .toc, .recd, .lnk, .rtr, .agt, .host] [] 0x20 (.kx3 p m)) ∧
  (∀ p, Frame [.free, .regs, .out, .toc, .recd, .lnk, .rtr, .agt, .host] [] 0x20 (.lnkTrainTimeout p)) ∧
  (∀ master p, Frame [.free, .regs, .out, .acc, .toc, .recd, .lnk, .rtr, .agt, .host] [0x00] 0x20 (.admitPort master p)) ∧
  (∀ master p, Frame [.free, .regs, .out, .acc, .toc, .recd, .lnk, .rtr, .agt, .host] [0x00] 0x20 (.markMiswired master p)) ∧
  (∀ master p, Frame [.free, .regs, .out, .acc, .toc, .recd, .lnk, .rtr, .agt, .host] [0x00] 0x20 (.linkRetrain master p)) ∧
  (∀ master p enable compat, Frame [.free, .regs, .out, .acc, .toc, .recd, .lnk, .rtr, .agt, .host] [0x00] 0x20 (.enablePort master p enable compat)) ∧
  (∀ p f, Frame [.free, .regs, .out, .toc, .recd, .lnk, .rtr, .agt, .host] [] 0x20 (.dataFrame p f)) ∧
  (∀ p f c, Frame [.free, .regs, .out, .toc, .recd, .lnk, .rtr, .agt, .host] [] 0x20 (.ctrlFrame p f c)) ∧
  (∀ p f c, Frame [.free, .regs, .out, .toc, .recd, .lnk, .rtr, .agt, .host] [] 0x20 (.nakFrame p f c)) ∧
  (∀ p f c, Frame [.free, .regs, .out, .toc, .recd, .lnk, .rtr, .agt, .host] [] 0x20 (.rot p f c)) ∧
  (∀ p f c, Frame [.free, .regs, .out, .toc, .recd, .lnk, .rtr, .agt, .host] [] 0x20 (.rotack p f c)) ∧
  (∀ p, Frame [.free, .regs, .out, .toc, .recd, .lnk, .rtr, .agt, .host] [] 0x20 (.nakRepeat p)) ∧
  (∀ p, Frame [.out, .lnk] [] allPages (.ctrlFrameDue p)) ∧
  (∀ master p, Frame [.free, .regs, .out, .acc, .toc, .recd, .lnk, .rtr, .agt, .host] [0x00] 0x20 (.rotate master p)) ∧
  (∀ p, Frame [.free, .regs, .out, .toc, .recd, .lnk] [] 0x20 (.keyCountLimit p)) ∧
  (∀ p, Frame [.out, .lnk] [] allPages (.rotResend p)) ∧
  (∀ p, Frame [.free, .regs, .out, .toc, .recd, .lnk, .rtr, .agt, .host] [] 0x20 (.keyLimit p)) ∧
  (∀ p, Frame [.free, .regs, .out, .toc, .recd, .lnk, .rtr, .agt, .host] [] 0x20 (.silence p)) ∧
  (∀ p lane, Frame [.regs, .out, .toc, .recd, .lnk] [] 0x20 (.laneBad p lane)) ∧
  (∀ p mask, Frame [.free, .regs, .out, .toc, .recd, .lnk, .rtr, .agt, .host] [] 0x20 (.laneChangeSet p mask)) ∧
  (∀ p, Frame [.out, .lnk] [] allPages (.laneDeskewDone p)) ∧
  (∀ p ack, Frame [.free, .regs, .out, .toc, .recd, .lnk, .rtr] [] 0x20 (.laneReady p ack)) ∧
  (∀ p, Frame [.free, .regs, .out, .toc, .recd, .lnk, .rtr, .agt, .host] [] 0x20 (.holdTimeout p)) ∧
  (∀ p, Frame [.free, .regs, .out, .toc, .recd, .lnk, .rtr, .agt, .host] [] 0x20 (.lockLost p)) ∧
  (∀ master p, Frame [.free, .regs, .out, .acc, .toc, .recd, .lnk, .rtr, .agt, .host] [0x00] 0x20 (.widen master p)) ∧
  (∀ p lanes, Frame [.regs, .out, .lnk] [] 0x20 (.widenEqualizeDone p lanes))

/-- The router and remote access: what each command leaves unchanged. Wherever the command answers a next state, every waiting command, every part of the state it does not name and every register of the pages it does not name keep their value; a command that names pages only below a bound says nothing of those above it. -/
def Obligations.RouterKeepsTheRest : Prop :=
  (∀ o, Frame [.clk, .free, .regs, .out, .stopped, .powered, .acc, .hall, .toc, .recd, .gddr, .tiles, .arr, .cel, .mbx, .lnk, .rtr, .opt, .optGen, .optSince, .col, .agt, .bel, .mgr, .host, .pwr, .sec, .gdMem] [] 0x0 (.packetInject o)) ∧
  (∀ o, Frame [.free, .regs, .out, .toc, .recd, .lnk, .rtr, .agt, .host] [] 0x20 (.packetArrival o)) ∧
  (∀ p, Frame [.free, .regs, .out, .toc, .recd, .lnk, .rtr] [] 0x20 (.c0TokenRefill p)) ∧
  (∀ p vc, Frame [.free, .regs, .out, .toc, .recd, .lnk, .rtr] [] 0x20 (.hopAge p vc)) ∧
  (∀ master value, Frame [.regs, .out, .acc, .toc, .recd] [0x00] 0x29 (.rtbSeal master value)) ∧
  (∀ master value, Frame [.regs, .out, .acc, .toc, .recd] [0x00, 0x29, 0x60, 0x61] 0x1000 (.rtbUnseal master value)) ∧
  (∀ master value, Frame [.regs, .out, .acc, .toc, .recd, .rtr] [0x00, 0x29, 0x60, 0x61] 0x1000 (.rtbFlip master value)) ∧
  (∀ master hops bank value, Frame [.regs, .out, .acc, .toc, .recd] [0x00, 0x29, 0x60, 0x61] 0x1000 (.rtbParamWrite master hops bank value)) ∧
  (∀ master bank m value, Frame [.regs, .out, .acc, .toc, .recd, .rtr] [0x00, 0x60, 0x61] 0x1000 (.routeEntryWrite master bank m value)) ∧
  (∀ master w wide value, Frame [.regs, .out, .acc, .toc, .recd, .rtr] [0x00, 0x60, 0x61] 0x1000 (.windowEntryWrite master w wide value)) ∧
  (∀ o, Frame [.free, .regs, .out, .hall, .toc, .recd, .gddr, .lnk, .rtr, .gdMem] [] 0x8 (.writePkt o)) ∧
  (Frame [.free, .regs, .out, .toc, .recd, .lnk, .rtr] [] 0x20 .writeStored) ∧
  (∀ o, Frame [.free, .regs, .out, .hall, .toc, .recd, .gddr, .lnk, .rtr] [] 0x8 (.readReq o)) ∧
  (Frame [.free, .regs, .out, .toc, .recd, .lnk, .rtr] [] 0x20 .readDataReady) ∧
  (∀ o, Frame [.clk, .free, .regs, .out, .stopped, .powered, .acc, .hall, .toc, .recd, .gddr, .tiles, .arr, .cel, .mbx, .lnk, .rtr, .opt, .optGen, .optSince, .col, .agt, .bel, .mgr, .host, .pwr, .sec, .gdMem] [] 0x0 (.readResp o)) ∧
  (∀ o, Frame [.free, .regs, .hall, .toc, .recd, .gddr, .rtr, .gdMem] [] 0x8 (.mcastPkt o)) ∧
  (∀ o, Frame [.clk, .free, .regs, .out, .stopped, .powered, .acc, .hall, .toc, .recd, .gddr, .tiles, .arr, .cel, .mbx, .lnk, .rtr, .opt, .optGen, .optSince, .col, .agt, .bel, .mgr, .host, .pwr, .sec, .gdMem] [] 0x0 (.ackPkt o)) ∧
  (∀ src opid, Frame [.free, .regs, .out, .toc, .recd, .lnk, .rtr] [] 0x20 (.ackDelay src opid)) ∧
  (∀ i, Frame [.clk, .free, .regs, .out, .stopped, .powered, .acc, .hall, .toc, .recd, .gddr, .tiles, .arr, .cel, .mbx, .lnk, .rtr, .opt, .optGen, .optSince, .col, .agt, .bel, .mgr, .host, .pwr, .sec, .gdMem] [] 0x0 (.rtrOpTimeout i)) ∧
  (∀ master value, Frame [.free, .regs, .out, .acc, .hall, .toc, .recd, .gddr, .rtr] [0x00] 0x8 (.rtrRaSubmit master value)) ∧
  (Frame [.clk, .free, .regs, .out, .stopped, .powered, .acc, .hall, .toc, .recd, .gddr, .tiles, .arr, .cel, .mbx, .lnk, .rtr, .opt, .optGen, .optSince, .col, .agt, .bel, .mgr, .host, .pwr, .sec, .gdMem] [] 0x0 .raStart) ∧
  (Frame [.clk, .free, .regs, .out, .stopped, .powered, .acc, .hall, .toc, .recd, .gddr, .tiles, .arr, .cel, .mbx, .lnk, .rtr, .opt, .optGen, .optSince, .col, .agt, .bel, .mgr, .host, .pwr, .sec, .gdMem] [] 0x0 .raEntryTaken) ∧
  (Frame [.free, .regs, .out, .hall, .toc, .recd, .gddr, .rtr, .gdMem] [] 0x8 .raComplete)

/-- Collectives: what each command leaves unchanged. Wherever the command answers a next state, every waiting command, every part of the state it does not name and every register of the pages it does not name keep their value; a command that names pages only below a bound says nothing of those above it. -/
def Obligations.CollectivesKeepTheRest : Prop :=
  (∀ master value, Frame [.free, .regs, .out, .acc, .hall, .toc, .recd, .gddr, .col] [0x00] 0x8 (.colSubmit master value)) ∧
  (Frame [.free, .regs, .out, .hall, .toc, .recd, .gddr, .optSince, .col, .gdMem] [] 0x8 .colHeadCheck) ∧
  (Frame [.regs, .opt, .optGen, .optSince, .col] [0x38] allPages .colEntryTaken) ∧
  (Frame [.clk, .free, .regs, .out, .stopped, .powered, .acc, .hall, .toc, .recd, .gddr, .tiles, .arr, .cel, .mbx, .lnk, .rtr, .opt, .optGen, .optSince, .col, .agt, .bel, .mgr, .host, .pwr, .sec, .gdMem] [0x00] 0x8 .colQuotaReserved) ∧
  (∀ master group wide value, Frame [.regs, .out, .acc, .toc, .recd, .col] [0x00, 0x32, 0x60, 0x61] 0x1000 (.groupEntryWrite master group wide value)) ∧
  (∀ master i value, Frame [.regs, .out, .acc, .toc, .recd, .col] [0x00, 0x32, 0x60, 0x61] 0x1000 (.memberPoolWrite master i value)) ∧
  (∀ master value, Frame [.regs, .out, .acc, .toc, .recd, .col] [0x00, 0x32, 0x60, 0x61] 0x1000 (.grpDisable master value)) ∧
  (∀ master hold, Frame [.free, .regs, .out, .acc, .hall, .toc, .recd, .gddr, .rtr, .opt, .col, .gdMem] [] 0x0 (.colFlush master hold)) ∧
  (∀ master hold, Frame [.free, .regs, .out, .acc, .hall, .toc, .recd, .gddr, .rtr, .opt, .col, .gdMem] [] 0x0 (.colHold master hold)) ∧
  (∀ master value, Frame [.regs, .out, .acc, .toc, .recd] [] 0x0 (.colTenantWrite master value)) ∧
  (∀ o, Frame [.clk, .free, .regs, .out, .stopped, .powered, .acc, .hall, .toc, .recd, .gddr, .tiles, .arr, .cel, .mbx, .lnk, .rtr, .opt, .optGen, .optSince, .col, .agt, .bel, .mgr, .host, .pwr, .sec, .gdMem] [0x00] 0x8 (.openChunk o)) ∧
  (∀ o, Frame [.clk, .free, .regs, .out, .stopped, .powered, .acc, .hall, .toc, .recd, .gddr, .tiles, .arr, .cel, .mbx, .lnk, .rtr, .opt, .optGen, .optSince, .col, .agt, .bel, .mgr, .host, .pwr, .sec, .gdMem] [0x00] 0x8 (.verdictChunk o)) ∧
  (∀ o, Frame [.free, .regs, .out, .hall, .toc, .recd, .gddr, .rtr, .opt, .col, .gdMem] [] 0x8 (.abortChunk o)) ∧
  (∀ o, Frame [.clk, .free, .regs, .out, .stopped, .powered, .acc, .hall, .toc, .recd, .gddr, .tiles, .arr, .cel, .mbx, .lnk, .rtr, .opt, .optGen, .optSince, .col, .agt, .bel, .mgr, .host, .pwr, .sec, .gdMem] [0x00] 0x8 (.creditChunk o)) ∧
  (∀ o, Frame [.clk, .free, .regs, .out, .stopped, .powered, .acc, .hall, .toc, .recd, .gddr, .tiles, .arr, .cel, .mbx, .lnk, .rtr, .opt, .optGen, .optSince, .col, .agt, .bel, .mgr, .host, .pwr, .sec, .gdMem] [0x00] 0x8 (.dataChunk o)) ∧
  (∀ o, Frame [.clk, .free, .regs, .out, .stopped, .powered, .acc, .hall, .toc, .recd, .gddr, .tiles, .arr, .cel, .mbx, .lnk, .rtr, .opt, .optGen, .optSince, .col, .agt, .bel, .mgr, .host, .pwr, .sec, .gdMem] [0x00] 0x8 (.resultChunk o)) ∧
  (∀ i, Frame [.regs, .out, .rtr, .col] [] allPages (.colOpenResend i)) ∧
  (∀ i, Frame [.clk, .free, .regs, .out, .stopped, .powered, .acc, .hall, .toc, .recd, .gddr, .tiles, .arr, .cel, .mbx, .lnk, .rtr, .opt, .optGen, .optSince, .col, .agt, .bel, .mgr, .host, .pwr, .sec, .gdMem] [0x00] 0x8 (.colInputReadDone i)) ∧
  (∀ i, Frame [.clk, .free, .regs, .out, .stopped, .powered, .acc, .hall, .toc, .recd, .gddr, .tiles, .arr, .cel, .mbx, .lnk, .rtr, .opt, .optGen, .optSince, .col, .agt, .bel, .mgr, .host, .pwr, .sec, .gdMem] [0x00] 0x8 (.colResultWriteAck i)) ∧
  (∀ i, Frame [.free, .regs, .out, .hall, .toc, .recd, .gddr, .rtr, .opt, .col, .gdMem] [] 0x8 (.colJoinTimeout i)) ∧
  (∀ i, Frame [.free, .regs, .out, .hall, .toc, .recd, .gddr, .rtr, .opt, .col, .gdMem] [] 0x8 (.colProgressTimeout i)) ∧
  (Frame [.clk, .free, .regs, .out, .stopped, .powered, .acc, .hall, .toc, .recd, .gddr, .tiles, .arr, .cel, .mbx, .lnk, .rtr, .opt, .optGen, .optSince, .col, .agt, .bel, .mgr, .host, .pwr, .sec, .gdMem] [] 0x0 .arrayHandover) ∧
  (Frame [.free, .regs, .out, .hall, .toc, .recd, .gddr, .arr, .rtr, .opt, .col, .gdMem] [] 0x8 .abandonmentNotice)

/-- Mailboxes, Tocsin and the recorder: what each command leaves unchanged. Wherever the command answers a next state, every waiting command, every part of the state it does not name and every register of the pages it does not name keep their value; a command that names pages only below a bound says nothing of those above it. -/
def Obligations.EventsAndMailKeepTheRest : Prop :=
  (∀ o, Frame [.free, .regs, .out, .toc, .recd, .mbx, .lnk, .rtr] [] 0x20 (.mbxPostPacket o)) ∧
  (∀ master value, Frame [.clk, .free, .regs, .out, .stopped, .powered, .acc, .hall, .toc, .recd, .gddr, .tiles, .arr, .cel, .mbx, .lnk, .rtr, .opt, .optGen, .optSince, .col, .agt, .bel, .mgr, .host, .pwr, .sec, .gdMem] [] 0x0 (.mbxTxPost master value)) ∧
  (∀ master, Frame [.regs, .mbx, .rtr, .opt, .optGen] [0x38] allPages (.mbxPostEntryTaken master)) ∧
  (∀ master m, Frame [.clk, .free, .regs, .out, .stopped, .powered, .acc, .hall, .toc, .recd, .gddr, .tiles, .arr, .cel, .mbx, .lnk, .rtr, .opt, .optGen, .optSince, .col, .agt, .bel, .mgr, .host, .pwr, .sec, .gdMem] [] 0x0 (.mbxRx master m)) ∧
  (∀ master word, Frame [.clk, .free, .regs, .out, .stopped, .powered, .acc, .hall, .toc, .recd, .gddr, .tiles, .arr, .cel, .mbx, .lnk, .rtr, .opt, .optGen, .optSince, .col, .agt, .bel, .mgr, .host, .pwr, .sec, .gdMem] [] 0x0 (.mbxData master word)) ∧
  (∀ m readers, Frame [.regs, .out, .acc, .toc, .recd, .mbx, .rtr, .agt, .bel, .mgr, .host] [0x00, 0x28, 0x40, 0x60, 0x61, 0x68, 0x69] 0x1000 (.mbxLatch m readers)) ∧
  (∀ master m, Frame [.clk, .free, .regs, .out, .stopped, .powered, .acc, .hall, .toc, .recd, .gddr, .tiles, .arr, .cel, .mbx, .lnk, .rtr, .opt, .optGen, .optSince, .col, .agt, .bel, .mgr, .host, .pwr, .sec, .gdMem] [] 0x0 (.latchRelease master m)) ∧
  (∀ master m, Frame [.clk, .free, .regs, .out, .stopped, .powered, .acc, .hall, .toc, .recd, .gddr, .tiles, .arr, .cel, .mbx, .lnk, .rtr, .opt, .optGen, .optSince, .col, .agt, .bel, .mgr, .host, .pwr, .sec, .gdMem] [] 0x0 (.receiverReset master m)) ∧
  (∀ m, Frame [.regs, .toc, .recd, .mbx] [0x50, 0x60, 0x61] allPages (.mbxLatchTimeout m)) ∧
  (∀ block n, Frame [.clk, .free, .regs, .out, .stopped, .powered, .acc, .hall, .toc, .recd, .gddr, .tiles, .arr, .cel, .mbx, .lnk, .rtr, .opt, .optGen, .optSince, .col, .agt, .bel, .mgr, .host, .pwr, .sec, .gdMem] [] 0x0 (.tocsinEvent block n)) ∧
  (∀ src, Frame [.clk, .free, .regs, .out, .stopped, .powered, .acc, .hall, .toc, .recd, .gddr, .tiles, .arr, .cel, .mbx, .lnk, .rtr, .opt, .optGen, .optSince, .col, .agt, .bel, .mgr, .host, .pwr, .sec, .gdMem] [] 0x0 (.railEqual src)) ∧
  (∀ src, Frame [.toc] [] allPages (.severityWindowEnd src)) ∧
  (∀ master i value, Frame [.regs, .out, .acc, .toc, .recd] [0x00, 0x60, 0x61] 0x1000 (.tocSrcCfgWrite master i value)) ∧
  (∀ master hold, Frame [.regs, .out, .acc, .toc, .recd] [0x00, 0x60, 0x61] 0x1000 (.tocErrnRelease master hold)) ∧
  (Frame [.regs, .toc] [0x60] allPages .errnPulseEnd) ∧
  (∀ master value, Frame [.clk, .free, .regs, .out, .stopped, .powered, .acc, .hall, .toc, .recd, .gddr, .tiles, .arr, .cel, .mbx, .lnk, .rtr, .opt, .optGen, .optSince, .col, .agt, .bel, .mgr, .host, .pwr, .sec, .gdMem] [] 0x0 (.tocRailtest master value)) ∧
  (∀ master value, Frame [.regs, .out, .acc, .toc, .recd, .bel] [0x00, 0x60, 0x61, 0x68] 0x1000 (.belAlive master value)) ∧
  (Frame [.free, .regs, .stopped, .toc, .recd] [0x61] allPages .recordSealed) ∧
  (∀ master value, Frame [.regs, .out, .acc, .toc, .recd] [0x00, 0x60, 0x61] 0x1000 (.recSwAppend master value)) ∧
  (∀ master on, Frame [.regs, .out, .acc, .toc, .recd] [0x00, 0x60, 0x61] 0x1000 (.recFreezeWrite master on)) ∧
  (∀ o, Frame [.regs, .out, .acc, .toc, .recd, .rtr, .agt, .host] [0x00, 0x40, 0x60, 0x61, 0x69] 0x1000 (.tostoRecFreeze o)) ∧
  (Frame [.regs, .recd] [0x61] allPages .recFreezeLimit) ∧
  (∀ o, Frame [.regs, .out, .acc, .toc, .recd, .rtr, .agt, .host] [0x00, 0x40, 0x60, 0x61, 0x69] 0x1000 (.recRead o)) ∧
  (∀ o, Frame [.regs, .out, .acc, .toc, .recd, .rtr, .agt, .host] [0x00, 0x40, 0x60, 0x61, 0x69] 0x1000 (.recTailRead o)) ∧
  (∀ o, Frame [.regs, .out, .toc, .recd, .rtr, .agt, .host] [0x40, 0x60, 0x61, 0x69] allPages (.recClear o)) ∧
  (Frame [.free, .regs, .stopped, .toc, .recd] [0x61] allPages .recClearDone) ∧
  (∀ o, Frame [.regs, .out, .acc, .toc, .recd, .rtr, .agt, .host] [0x00, 0x40, 0x60, 0x61, 0x69] 0x1000 (.recState o)) ∧
  (∀ master value, Frame [.regs, .out, .acc, .toc, .recd] [0x00, 0x60] 0x61 (.recReadSel master value))

/-- Management accesses, bring-up and resets: what each command leaves unchanged. Wherever the command answers a next state, every waiting command, every part of the state it does not name and every register of the pages it does not name keep their value; a command that names pages only below a bound says nothing of those above it. -/
def Obligations.SystemKeepsTheRest : Prop :=
  (∀ master addr width value, Frame [.clk, .free, .regs, .out, .stopped, .powered, .acc, .hall, .toc, .recd, .gddr, .tiles, .arr, .cel, .mbx, .lnk, .rtr, .opt, .optGen, .optSince, .col, .agt, .bel, .mgr, .host, .pwr, .sec, .gdMem] [] 0x0 (.registerWrite master addr width value)) ∧
  (∀ master block value, Frame [.regs, .out, .acc, .toc, .recd] [] 0x0 (.errForce master block value)) ∧
  (∀ master block value, Frame [.regs, .out, .acc, .toc, .recd] [] 0x0 (.errInvchk master block value)) ∧
  (∀ master block value, Frame [.clk, .free, .regs, .out, .stopped, .powered, .acc, .hall, .toc, .recd, .gddr, .tiles, .arr, .cel, .mbx, .lnk, .rtr, .opt, .optGen, .optSince, .col, .agt, .bel, .mgr, .host, .pwr, .sec, .gdMem] [] 0x0 (.wlock master block value)) ∧
  (∀ master entry high value, Frame [.regs, .out, .acc, .toc, .recd] [0x00, 0x60, 0x61] 0x1000 (.policyEntryWrite master entry high value)) ∧
  (∀ master addr, Frame [.clk, .free, .regs, .out, .stopped, .powered, .acc, .hall, .toc, .recd, .gddr, .tiles, .arr, .cel, .mbx, .lnk, .rtr, .opt, .optGen, .optSince, .col, .agt, .bel, .mgr, .host, .pwr, .sec, .gdMem] [] 0x0 (.accessTimeout master addr)) ∧
  (∀ master addr, Frame [.acc] [] allPages (.pageAnswerLate master addr)) ∧
  (∀ isl, Frame [.stopped] [] allPages (.islandStop isl)) ∧
  (∀ isl, Frame [.clk, .free, .regs, .out, .stopped, .powered, .acc, .hall, .toc, .recd, .gddr, .tiles, .arr, .cel, .mbx, .lnk, .rtr, .opt, .optGen, .optSince, .col, .agt, .bel, .mgr, .host, .pwr, .sec, .gdMem] [] 0x0 (.islandRestart isl)) ∧
  (∀ a b, Frame [.clk, .free, .regs, .out, .stopped, .powered, .acc, .hall, .toc, .recd, .gddr, .tiles, .arr, .cel, .mbx, .lnk, .rtr, .opt, .optGen, .optSince, .col, .agt, .bel, .mgr, .host, .pwr, .sec, .msr, .gdMem] [] 0x0 (.powerOn a b)) ∧
  (Frame [.regs, .toc, .recd] [0x00, 0x60, 0x61] allPages .recScanDone) ∧
  (∀ a b, Frame [.regs] [0x00] allPages (.feedCheckDone a b)) ∧
  (∀ store, Frame [.free, .regs, .powered, .toc, .recd, .cel, .host, .sec] [0x00, 0x02] 0x40 (.romDone store)) ∧
  (∀ ok, Frame [.clk, .free, .regs, .out, .stopped, .powered, .acc, .hall, .toc, .recd, .gddr, .tiles, .arr, .cel, .mbx, .lnk, .rtr, .opt, .optGen, .optSince, .col, .agt, .bel, .mgr, .host, .pwr, .sec, .gdMem] [] 0x0 (.powerWave ok)) ∧
  (∀ w dev, Frame [.regs, .toc, .recd, .pwr] [0x00, 0x10, 0x60, 0x61] 0x90 (.gdTrainDone w dev)) ∧
  (∀ w dev, Frame [.regs, .toc, .recd, .pwr] [0x00, 0x60, 0x61] 0x90 (.gdTrainTimeout w dev)) ∧
  (∀ w m, Frame [.regs, .toc, .recd, .pwr] [0x10, 0x60, 0x61] allPages (.ucieTrained w m)) ∧
  (∀ status ms, Frame [.regs, .toc, .recd, .gddr, .gdMem, .celMem] [0x00, 0x61] allPages (.memtestDone status ms)) ∧
  (∀ ts, Frame [.clk, .free, .regs, .out, .stopped, .powered, .acc, .hall, .toc, .recd, .gddr, .tiles, .arr, .cel, .mbx, .lnk, .rtr, .opt, .optGen, .optSince, .col, .agt, .bel, .mgr, .host, .pwr, .sec, .gdMem] [] 0x0 (.tileTestDone ts)) ∧
  (Frame [.gddr, .pwr, .gdMem] [] allPages .gddr7ZeroFillDone) ∧
  (Frame [.clk, .free, .regs, .out, .stopped, .powered, .acc, .hall, .toc, .recd, .gddr, .tiles, .arr, .cel, .mbx, .lnk, .rtr, .opt, .optGen, .optSince, .col, .agt, .bel, .mgr, .host, .pwr, .sec, .gdMem] [] 0x0 .linksDone) ∧
  (∀ master, Frame [.clk, .free, .regs, .out, .stopped, .powered, .acc, .hall, .toc, .recd, .gddr, .tiles, .arr, .cel, .mbx, .lnk, .rtr, .opt, .optGen, .optSince, .col, .agt, .bel, .mgr, .host, .pwr, .sec, .gdMem] [] 0x0 (.targetFull master)) ∧
  (∀ master, Frame [.clk, .free, .regs, .out, .stopped, .powered, .acc, .hall, .toc, .recd, .gddr, .tiles, .arr, .cel, .mbx, .lnk, .rtr, .opt, .optGen, .optSince, .col, .agt, .bel, .mgr, .host, .pwr, .sec, .gdMem] [] 0x0 (.targetQuiet master)) ∧
  (∀ master, Frame [.clk, .free, .regs, .out, .stopped, .powered, .acc, .hall, .toc, .recd, .gddr, .tiles, .arr, .cel, .mbx, .lnk, .rtr, .opt, .optGen, .optSince, .col, .agt, .bel, .mgr, .host, .pwr, .sec, .gdMem] [] 0x0 (.targetTransit master)) ∧
  (∀ master, Frame [.clk, .free, .regs, .out, .stopped, .powered, .acc, .hall, .toc, .recd, .gddr, .tiles, .arr, .cel, .mbx, .lnk, .rtr, .opt, .optGen, .optSince, .col, .agt, .bel, .mgr, .host, .pwr, .sec, .gdMem] [] 0x0 (.targetStandby master)) ∧
  (∀ master, Frame [.clk, .free, .regs, .out, .stopped, .powered, .acc, .hall, .toc, .recd, .gddr, .tiles, .arr, .cel, .mbx, .lnk, .rtr, .opt, .optGen, .optSince, .col, .agt, .bel, .mgr, .host, .pwr, .sec, .gdMem] [] 0x0 (.targetOff master)) ∧
  (∀ master i, Frame [.clk, .free, .regs, .out, .stopped, .powered, .acc, .hall, .toc, .recd, .gddr, .tiles, .arr, .cel, .mbx, .lnk, .rtr, .opt, .optGen, .optSince, .col, .agt, .bel, .mgr, .host, .pwr, .sec, .gdMem] [] 0x0 (.resetTile master i)) ∧
  (∀ master c, Frame [.clk, .free, .regs, .out, .stopped, .powered, .acc, .hall, .toc, .recd, .gddr, .tiles, .arr, .cel, .mbx, .lnk, .rtr, .opt, .optGen, .optSince, .col, .agt, .bel, .mgr, .host, .pwr, .sec, .gdMem] [] 0x0 (.resetCluster master c)) ∧
  (∀ master w, Frame [.clk, .free, .regs, .out, .stopped, .powered, .acc, .hall, .toc, .recd, .gddr, .tiles, .arr, .cel, .mbx, .lnk, .rtr, .opt, .optGen, .optSince, .col, .agt, .bel, .mgr, .host, .pwr, .sec, .gdMem] [] 0x0 (.resetWing master w)) ∧
  (∀ master p, Frame [.clk, .free, .regs, .out, .stopped, .powered, .acc, .hall, .toc, .recd, .gddr, .tiles, .arr, .cel, .mbx, .lnk, .rtr, .opt, .optGen, .optSince, .col, .agt, .bel, .mgr, .host, .pwr, .sec, .gdMem] [] 0x0 (.resetPort master p)) ∧
  (∀ master b, Frame [.clk, .free, .regs, .out, .stopped, .powered, .acc, .hall, .toc, .recd, .gddr, .tiles, .arr, .cel, .mbx, .lnk, .rtr, .opt, .optGen, .optSince, .col, .agt, .bel, .mgr, .host, .pwr, .sec, .gdMem] [] 0x0 (.resetCore master b)) ∧
  (∀ master, Frame [.clk, .free, .regs, .out, .stopped, .powered, .acc, .hall, .toc, .recd, .gddr, .tiles, .arr, .cel, .mbx, .lnk, .rtr, .opt, .optGen, .optSince, .col, .agt, .bel, .mgr, .host, .pwr, .sec, .gdMem] [] 0x0 (.resetModule master)) ∧
  (Frame [.free, .regs, .out, .stopped, .acc, .hall, .toc, .recd, .gddr, .tiles, .arr, .cel, .mbx, .lnk, .rtr, .opt, .optGen, .optSince, .col, .agt, .bel, .mgr, .host, .pwr, .sec, .msr] [] 0x0 .moduleResetBegin) ∧
  (∀ kind target store, Frame [.clk, .free, .regs, .out, .stopped, .powered, .acc, .hall, .toc, .recd, .gddr, .tiles, .arr, .cel, .mbx, .lnk, .rtr, .opt, .optGen, .optSince, .col, .agt, .bel, .mgr, .host, .pwr, .sec, .gdMem] [] 0x0 (.resetComplete kind target store)) ∧
  (∀ kind target, Frame [.regs, .toc, .recd, .pwr] [0x04, 0x60, 0x61] allPages (.resetTimeout kind target)) ∧
  (Frame [.clk, .free, .regs, .out, .stopped, .powered, .acc, .hall, .toc, .recd, .gddr, .tiles, .arr, .cel, .mbx, .lnk, .rtr, .opt, .optGen, .optSince, .col, .agt, .bel, .mgr, .host, .pwr, .sec, .gdMem] [] 0x0 .resetN) ∧
  (∀ store, Frame [.clk, .free, .regs, .out, .stopped, .powered, .acc, .hall, .toc, .recd, .gddr, .tiles, .arr, .cel, .mbx, .lnk, .rtr, .opt, .optGen, .optSince, .col, .agt, .bel, .mgr, .host, .pwr, .sec, .gdMem] [] 0x0 (.resetNRelease store)) ∧
  (∀ b, Frame [.regs, .toc, .recd] [0x60, 0x61, 0x68] allPages (.coreFault b)) ∧
  (∀ master, Frame [.clk, .free, .regs, .out, .stopped, .powered, .acc, .hall, .toc, .recd, .gddr, .tiles, .arr, .cel, .mbx, .lnk, .rtr, .opt, .optGen, .optSince, .col, .agt, .bel, .mgr, .host, .pwr, .sec, .gdMem] [] 0x0 (.giveUp master)) ∧
  (∀ master, Frame [.clk, .free, .regs, .out, .stopped, .powered, .acc, .hall, .toc, .recd, .gddr, .tiles, .arr, .cel, .mbx, .lnk, .rtr, .opt, .optGen, .optSince, .col, .agt, .bel, .mgr, .host, .pwr, .sec, .gdMem] [] 0x0 (.switchRequest master)) ∧
  (Frame [.clk, .free, .regs, .out, .stopped, .powered, .acc, .hall, .toc, .recd, .gddr, .tiles, .arr, .cel, .mbx, .lnk, .rtr, .opt, .optGen, .optSince, .col, .agt, .bel, .mgr, .host, .pwr, .sec, .gdMem] [] 0x0 .belWatchdog) ∧
  (∀ master value, Frame [.regs, .out, .acc, .toc, .recd, .bel] [0x00, 0x60, 0x61, 0x68] 0x1000 (.belHealth master value)) ∧
  (Frame [.regs, .toc, .recd, .bel] [0x60, 0x61, 0x68] allPages .healthStale)

/-- Feeds, supplies, sensors and the board pins: what each command leaves unchanged. Wherever the command answers a next state, every waiting command, every part of the state it does not name and every register of the pages it does not name keep their value; a command that names pages only below a bound says nothing of those above it. -/
def Obligations.BoardKeepsTheRest : Prop :=
  (∀ b, Frame [.regs, .out, .toc, .recd, .rtr, .agt, .host] [0x02, 0x40, 0x60, 0x61, 0x69] allPages (.feedLost b)) ∧
  (∀ b, Frame [.regs, .out, .toc, .recd, .rtr, .agt, .host] [0x02, 0x40, 0x60, 0x61, 0x69] allPages (.overvolt b)) ∧
  (∀ b, Frame [.regs] [0x02] allPages (.feedQualifyStart b)) ∧
  (∀ b, Frame [.regs, .out, .toc, .recd, .rtr, .agt, .host] [0x02, 0x40, 0x60, 0x61, 0x69] allPages (.feedReturn b)) ∧
  (∀ b, Frame [.regs, .toc, .recd] [0x02, 0x60, 0x61] allPages (.oring b)) ∧
  (Frame [.regs, .toc, .recd] [0x02, 0x60, 0x61] allPages .undervolt) ∧
  (Frame [.free, .regs, .out, .stopped, .powered, .recd, .mbx, .pwr, .sec, .gdMem] [0x02, 0x42] allPages .entryToOff) ∧
  (Frame [.regs] [0x02] allPages .prechargeDone) ∧
  (Frame [.regs, .toc, .recd] [0x02, 0x60, 0x61] allPages .converter) ∧
  (Frame [.regs, .toc, .recd] [0x02, 0x60, 0x61] allPages .overcurrent) ∧
  (∀ die t, Frame [.regs, .toc, .recd] [] 0x3 (.warn die t)) ∧
  (∀ die t, Frame [.regs, .toc, .recd] [] 0x3 (.critical die t)) ∧
  (∀ die t, Frame [.free, .regs, .out, .powered, .acc, .hall, .toc, .recd, .gddr, .tiles, .arr, .cel, .mbx, .lnk, .rtr, .opt, .optGen, .optSince, .col, .agt, .bel, .mgr, .host, .pwr, .sec, .gdMem] [] 0x0 (.thermalTrip die t)) ∧
  (∀ reads, Frame [.regs, .toc, .recd] [] 0x3 (.thermalCooled reads)) ∧
  (Frame [.regs, .toc, .recd, .pwr] [0x03, 0x60, 0x61] allPages .thermN) ∧
  (∀ cool, Frame [.regs, .pwr] [0x03] allPages (.thermNRelease cool)) ∧
  (∀ die t, Frame [.regs, .toc, .recd] [] 0x3 (.sensor die t)) ∧
  (Frame [.regs, .toc, .recd] [0x01, 0x60, 0x61] allPages .refLost) ∧
  (Frame [.regs, .toc, .recd] [0x01, 0x60, 0x61] allPages .aonDrift) ∧
  (Frame [.regs] [0x40] allPages .hostLinkUp) ∧
  (Frame [.regs, .toc, .recd] [0x40, 0x60, 0x61] allPages .linkDown) ∧
  (∀ p, Frame [.regs, .toc, .recd] [0x4C, 0x60, 0x61] allPages (.celTrainFail p)) ∧
  (∀ phase, Frame [.regs, .toc, .recd, .msr] [0x60, 0x61, 0x6A] allPages (.syncIn phase)) ∧
  (Frame [.out] [] allPages .statusWord) ∧
  (Frame [.out] [] allPages .pmbusRevision) ∧
  (Frame [.out] [] allPages .mfrSerial) ∧
  (∀ a b, Frame [.regs, .out] [0x02] allPages (.readVin a b)) ∧
  (∀ a b, Frame [.regs, .out] [0x02] allPages (.readIin a b)) ∧
  (∀ w, Frame [.regs, .out] [0x02] allPages (.readPin w)) ∧
  (∀ reads, Frame [.regs, .out, .toc, .recd] [] 0x3 (.readTemperature1 reads)) ∧
  (Frame [.out] [] allPages .smbusClockTimeout)

/-- The host port: what each command leaves unchanged. Wherever the command answers a next state, every waiting command, every part of the state it does not name and every register of the pages it does not name keep their value; a command that names pages only below a bound says nothing of those above it. -/
def Obligations.HostPortKeepsTheRest : Prop :=
  (∀ f, Frame [.regs, .out, .toc, .recd, .rtr, .agt, .host] [0x40, 0x41, 0x60, 0x61, 0x69] allPages (.ethFrame f)) ∧
  (∀ o nonce, Frame [.regs, .out, .toc, .recd, .rtr, .agt, .host] [0x40, 0x60, 0x61, 0x69] allPages (.openSession o nonce)) ∧
  (∀ o proofOk, Frame [.regs, .out, .toc, .recd, .mbx, .rtr, .agt, .host, .sec] [0x40, 0x59, 0x60, 0x61, 0x69] allPages (.prove o proofOk)) ∧
  (∀ o, Frame [.regs, .out, .acc, .toc, .recd, .mbx, .rtr, .agt, .host] [0x00, 0x40] 0x50 (.closeSession o)) ∧
  (∀ slot, Frame [.host] [] allPages (.proveTimeout slot)) ∧
  (∀ slot, Frame [.regs, .out, .acc, .toc, .recd, .mbx, .host] [0x00, 0x40] 0x50 (.sessionIdle slot)) ∧
  (∀ master slot value, Frame [.regs, .out, .acc, .toc, .recd, .mbx, .host] [0x00] 0x40 (.ethSlotWrite master slot value)) ∧
  (∀ k, Frame [.regs, .out, .toc, .recd, .host] [0x41, 0x61] allPages (.mkaFrame k)) ∧
  (∀ an, Frame [.out] [] allPages (.sakPnLimit an)) ∧
  (Frame [.regs, .toc, .recd, .host] [0x41, 0x60, 0x61] allPages .mkaLost) ∧
  (Frame [.out] [] allPages .mkaHello) ∧
  (∀ h twoStep origin receipt, Frame [.clk, .regs, .out, .toc, .recd, .host] [0x43, 0x60, 0x61] allPages (.ptpSync h twoStep origin receipt)) ∧
  (∀ h origin, Frame [.clk, .regs, .out, .toc, .recd, .host] [0x43, 0x60, 0x61] allPages (.followUp h origin)) ∧
  (∀ h sent receipt, Frame [.host] [] allPages (.delayResp h sent receipt)) ∧
  (∀ h best, Frame [.regs, .host] [0x43] allPages (.announce h best)) ∧
  (Frame [.regs, .toc, .recd, .host] [0x43, 0x60, 0x61] allPages .announceTimeout) ∧
  (∀ o, Frame [.regs, .out, .toc, .recd, .rtr, .agt, .host] [0x40, 0x60, 0x61, 0x69] allPages (.qpCreate o)) ∧
  (∀ o, Frame [.regs, .out, .toc, .recd, .rtr, .agt, .host] [0x40, 0x60, 0x61, 0x69] allPages (.qpDestroy o)) ∧
  (∀ r rkey va data, Frame [.free, .regs, .out, .hall, .toc, .recd, .gddr, .mbx, .host, .gdMem] [] 0x8 (.rdmaWrite r rkey va data)) ∧
  (∀ r rkey va len outstanding, Frame [.free, .regs, .out, .hall, .toc, .recd, .gddr, .mbx, .host, .gdMem] [] 0x8 (.rdmaRead r rkey va len outstanding)) ∧
  (∀ r data, Frame [.free, .regs, .out, .hall, .toc, .recd, .gddr, .mbx, .host, .gdMem] [] 0x8 (.rdmaSend r data))

/-- Belfry, agents and manager: what each command leaves unchanged. Wherever the command answers a next state, every waiting command, every part of the state it does not name and every register of the pages it does not name keep their value; a command that names pages only below a bound says nothing of those above it. -/
def Obligations.AgentsKeepTheRest : Prop :=
  (∀ o tag, Frame [.regs, .rtr, .agt] [0x40] allPages (.mgmtPkt o tag)) ∧
  (∀ o tag, Frame [.regs, .toc, .recd, .rtr, .agt] [0x40, 0x60, 0x61, 0x69] allPages (.relay o tag)) ∧
  (∀ o tag, Frame [.regs, .out, .toc, .recd, .rtr, .agt, .bel, .mgr, .host] [0x40, 0x60, 0x61, 0x68, 0x69] allPages (.claim o tag)) ∧
  (∀ o, Frame [.regs, .toc, .recd, .rtr, .agt, .bel, .mgr] [0x60, 0x61, 0x68] allPages (.termNotice o)) ∧
  (Frame [.regs, .out, .toc, .recd, .rtr, .agt, .bel, .mgr, .host] [0x28, 0x40, 0x60, 0x61, 0x68, 0x69] allPages .claimStagger) ∧
  (∀ src term, Frame [.regs, .out, .toc, .recd, .rtr, .agt, .bel, .host] [0x40, 0x60, 0x61, 0x68, 0x69] allPages (.standby src term)) ∧
  (∀ o, Frame [.regs, .out, .toc, .recd, .rtr, .agt, .bel, .host, .pwr] [0x02, 0x40, 0x60, 0x61, 0x68, 0x69] allPages (.heartbeat o)) ∧
  (Frame [.regs, .out, .toc, .recd, .rtr, .agt, .bel, .mgr, .host] [0x40, 0x60, 0x61, 0x68, 0x69] allPages .heartbeatPeriod) ∧
  (Frame [.free, .regs, .out, .toc, .recd, .rtr, .agt, .bel, .host] [0x40, 0x60, 0x61, 0x69] allPages .hbMiss) ∧
  (∀ o, Frame [.regs, .out, .toc, .recd, .rtr, .agt, .host] [0x40, 0x60, 0x61, 0x69] allPages (.probe o)) ∧
  (∀ o, Frame [.regs, .agt, .bel] [0x68] allPages (.probeAck o)) ∧
  (Frame [.regs, .out, .toc, .recd, .rtr, .agt, .bel, .mgr, .host, .pwr] [0x02, 0x28, 0x40, 0x60, 0x61, 0x68, 0x69] allPages .probeTimeout) ∧
  (Frame [.regs, .toc, .recd, .rtr] [0x60, 0x61, 0x68] allPages .fence) ∧
  (∀ i, Frame [.regs, .toc, .recd, .agt] [0x60, 0x61, 0x69] allPages (.voteWindowEnd i)) ∧
  (∀ o, Frame [.regs, .out, .toc, .recd, .rtr, .agt, .host] [0x40, 0x60, 0x61, 0x69] allPages (.discover o)) ∧
  (∀ master value, Frame [.regs, .out, .acc, .toc, .recd, .rtr, .agt, .host] [0x00, 0x40, 0x60, 0x61, 0x69] 0x1000 (.agtPortPlanWrite master value)) ∧
  (∀ master value, Frame [.regs, .out, .acc, .toc, .recd, .rtr, .agt, .host] [0x00, 0x28, 0x40, 0x60, 0x61, 0x69] 0x1000 (.rtrMaWrite master value)) ∧
  (∀ o, Frame [.regs, .out, .toc, .recd, .rtr, .agt, .host] [] 0x29 (.routePrepare o)) ∧
  (∀ master value, Frame [.regs, .out, .acc, .toc, .recd, .rtr] [0x00, 0x29, 0x60, 0x61] 0x1000 (.rtbGen master value)) ∧
  (∀ master value, Frame [.free, .regs, .out, .acc, .toc, .recd, .rtr] [0x00, 0x29, 0x60, 0x61] 0x1000 (.genFault master value)) ∧
  (Frame [.regs, .out, .toc, .recd, .rtr, .agt, .host] [0x40, 0x60, 0x61, 0x69] allPages .cmapSummaryDue) ∧
  (∀ b, Frame [.free, .regs, .out, .toc, .recd, .rtr, .agt, .mgr, .host, .pwr] [0x02, 0x29, 0x40, 0x60, 0x61, 0x69] allPages (.drainTimer b)) ∧
  (∀ o, Frame [.regs, .out, .toc, .recd, .rtr, .agt, .mgr, .host, .pwr] [0x02, 0x40, 0x60, 0x61, 0x69] allPages (.claimAck o)) ∧
  (∀ o, Frame [.free, .regs, .out, .toc, .recd, .rtr, .agt, .bel, .mgr, .host, .pwr] [0x02, 0x40, 0x60, 0x61, 0x69] allPages (.discoverReply o)) ∧
  (∀ o, Frame [.free, .regs, .out, .toc, .recd, .rtr, .agt, .bel, .mgr, .host, .pwr] [0x02, 0x40, 0x60, 0x61, 0x69] allPages (.readyChange o)) ∧
  (∀ o, Frame [.free, .regs, .out, .toc, .recd, .rtr, .agt, .bel, .mgr, .host, .pwr] [0x02, 0x40, 0x60, 0x61, 0x69] allPages (.routeReady o)) ∧
  (∀ o, Frame [.free, .regs, .out, .toc, .recd, .rtr, .agt, .bel, .mgr, .host, .pwr] [0x02, 0x40, 0x60, 0x61, 0x69] allPages (.policyDone o)) ∧
  (∀ m, Frame [.regs, .out, .toc, .recd, .rtr, .agt, .host, .pwr] [0x02, 0x40, 0x60, 0x61, 0x69] allPages (.routePrepareResend m)) ∧
  (∀ m, Frame [.free, .regs, .out, .toc, .recd, .rtr, .agt, .bel, .mgr, .host, .pwr] [0x02, 0x40, 0x60, 0x61, 0x69] allPages (.routePrepareLost m)) ∧
  (Frame [.free, .regs, .out, .toc, .recd, .rtr, .agt, .bel, .mgr, .host, .pwr] [0x02, 0x40, 0x60, 0x61, 0x69] allPages .failureSettle) ∧
  (∀ o, Frame [.out, .agt, .bel, .mgr] [] allPages (.cmapSummary o)) ∧
  (∀ src wseq addr width value, Frame [.clk, .free, .regs, .out, .stopped, .powered, .acc, .hall, .toc, .recd, .gddr, .tiles, .arr, .cel, .mbx, .lnk, .rtr, .opt, .optGen, .optSince, .col, .agt, .bel, .mgr, .host, .pwr, .sec, .gdMem] [] 0x0 (.votedWrite src wseq addr width value)) ∧
  (∀ o, Frame [.regs, .out, .acc, .toc, .recd, .rtr, .agt, .host] [0x40, 0x60, 0x61, 0x69] allPages (.policySet o)) ∧
  (∀ o, Frame [.clk, .free, .regs, .out, .stopped, .powered, .acc, .hall, .toc, .recd, .gddr, .tiles, .arr, .cel, .mbx, .lnk, .rtr, .opt, .optGen, .optSince, .col, .agt, .bel, .mgr, .host, .pwr, .sec, .gdMem] [] 0x0 (.regRead o)) ∧
  (∀ o, Frame [.clk, .free, .regs, .out, .stopped, .powered, .acc, .hall, .toc, .recd, .gddr, .tiles, .arr, .cel, .mbx, .lnk, .rtr, .opt, .optGen, .optSince, .col, .agt, .bel, .mgr, .host, .pwr, .sec, .gdMem] [] 0x0 (.regWrite o)) ∧
  (∀ o, Frame [.regs, .out, .toc, .recd, .mbx, .rtr, .agt, .host] [0x40] 0x50 (.mbxPost o)) ∧
  (∀ o, Frame [.clk, .free, .regs, .out, .stopped, .powered, .acc, .hall, .toc, .recd, .gddr, .tiles, .arr, .cel, .mbx, .lnk, .rtr, .opt, .optGen, .optSince, .col, .agt, .bel, .mgr, .host, .pwr, .sec, .gdMem] [] 0x0 (.debugAccess o))

/-- Peal, slices, measures and scrubbing: what each command leaves unchanged. Wherever the command answers a next state, every waiting command, every part of the state it does not name and every register of the pages it does not name keep their value; a command that names pages only below a bound says nothing of those above it. -/
def Obligations.ObjectsAndSlicesKeepTheRest : Prop :=
  (∀ fatal other, Frame [.clk, .free, .regs, .out, .stopped, .powered, .acc, .hall, .toc, .recd, .gddr, .tiles, .arr, .cel, .mbx, .lnk, .rtr, .opt, .optGen, .optSince, .col, .agt, .bel, .mgr, .host, .pwr, .sec, .gdMem] [] 0x0 (.sramInitDone fatal other)) ∧
  (∀ kind piece off data known sig, Frame [.free, .regs, .out, .toc, .recd, .rtr, .agt, .bel, .mgr, .host, .pwr] [0x00, 0x02, 0x28, 0x40, 0x60, 0x61, 0x68] 0x69 (.imageData kind piece off data known sig)) ∧
  (∀ piece off, Frame [.out] [] allPages (.imageGetResend piece off)) ∧
  (Frame [.regs, .toc, .recd, .host] [0x61] allPages .imageFetchTimeout) ∧
  (Frame [.out, .host] [] allPages .imageFetchRetry) ∧
  (Frame [.out, .host] [] allPages .planFetchRetry) ∧
  (∀ o sig, Frame [.clk, .free, .regs, .out, .stopped, .powered, .acc, .hall, .toc, .recd, .gddr, .tiles, .arr, .cel, .mbx, .lnk, .rtr, .opt, .optGen, .optSince, .col, .agt, .bel, .mgr, .host, .pwr, .sec, .gdMem] [] 0x0 (.pealPkt o sig)) ∧
  (∀ o, Frame [.clk, .free, .regs, .out, .stopped, .powered, .acc, .hall, .toc, .recd, .gddr, .tiles, .arr, .cel, .mbx, .lnk, .rtr, .opt, .optGen, .optSince, .col, .agt, .bel, .mgr, .host, .pwr, .sec, .gdMem] [] 0x0 (.pealEnd o)) ∧
  (∀ o, Frame [.regs, .out, .toc, .recd, .rtr, .agt, .host] [0x40, 0x60, 0x61, 0x69] allPages (.pealNeed o)) ∧
  (∀ o, Frame [.regs, .out, .toc, .recd, .rtr, .agt, .host] [0x40, 0x60, 0x61, 0x69] allPages (.pealNotHeld o)) ∧
  (Frame [.clk, .free, .regs, .out, .stopped, .powered, .acc, .hall, .toc, .recd, .gddr, .tiles, .arr, .cel, .mbx, .lnk, .rtr, .opt, .optGen, .optSince, .col, .agt, .bel, .mgr, .host, .pwr, .sec, .gdMem] [] 0x0 .pealIdleTimeout) ∧
  (Frame [.regs, .out, .toc, .recd, .rtr, .agt, .host] [0x40, 0x60, 0x61, 0x69] allPages .pealRepairTimeout) ∧
  (Frame [.regs, .toc, .recd, .host] [0x60, 0x61, 0x69] allPages .pealCampaignTimeout) ∧
  (∀ o, Frame [.clk, .free, .regs, .out, .stopped, .powered, .acc, .hall, .toc, .recd, .gddr, .tiles, .arr, .cel, .mbx, .lnk, .rtr, .opt, .optGen, .optSince, .col, .agt, .bel, .mgr, .host, .pwr, .sec, .gdMem] [] 0x0 (.pealActivate o)) ∧
  (∀ o, Frame [.regs, .out, .toc, .recd, .rtr, .agt, .mgr, .host] [0x40, 0x60, 0x61, 0x69] allPages (.pealPut o)) ∧
  (∀ o sig, Frame [.regs, .out, .toc, .recd, .rtr, .agt, .mgr, .host] [0x40, 0x60, 0x61, 0x69] allPages (.pealStart o sig)) ∧
  (Frame [.free, .regs, .out, .toc, .recd, .rtr, .agt, .mgr, .host, .pwr] [0x02, 0x40, 0x60, 0x61, 0x69] allPages .pealPace) ∧
  (∀ o, Frame [.regs, .out, .toc, .recd, .rtr, .agt, .host] [0x40, 0x60, 0x61, 0x69] allPages (.pealQuery o)) ∧
  (∀ o, Frame [.regs, .out, .toc, .recd, .rtr, .agt, .mgr, .host, .pwr] [0x02, 0x40, 0x60, 0x61, 0x69] allPages (.pealCommit o)) ∧
  (∀ o, Frame [.regs, .out, .toc, .recd, .rtr, .agt, .mgr, .host] [0x40, 0x60, 0x61, 0x69] allPages (.sliceBegin o)) ∧
  (∀ o, Frame [.regs, .out, .toc, .recd, .rtr, .agt, .mgr, .host] [0x40, 0x60, 0x61, 0x69] allPages (.slicePart o)) ∧
  (∀ o, Frame [.free, .regs, .out, .toc, .recd, .rtr, .agt, .mgr, .host, .pwr] [0x02, 0x40, 0x60, 0x61, 0x69] allPages (.sliceCommit o)) ∧
  (∀ o, Frame [.regs, .out, .toc, .recd, .rtr, .agt, .host] [0x40, 0x60, 0x61, 0x69] allPages (.sliceQuery o)) ∧
  (∀ o, Frame [.free, .regs, .out, .toc, .recd, .rtr, .agt, .mgr, .host, .pwr] [0x02, 0x40, 0x60, 0x61, 0x69] allPages (.sliceRelease o)) ∧
  (∀ o, Frame [.free, .regs, .out, .toc, .recd, .rtr, .agt, .mgr, .host, .pwr] [0x02, 0x40, 0x60, 0x61, 0x69] allPages (.transitDrain o)) ∧
  (∀ o, Frame [.regs, .out, .toc, .recd, .rtr, .agt, .host] [0x40, 0x60, 0x61, 0x69] allPages (.drainQuery o)) ∧
  (∀ util stall, Frame [.free, .regs, .out, .acc, .toc, .recd, .gddr, .cel, .lnk, .rtr, .agt, .bel, .mgr, .host, .pwr, .msr] [0x02, 0x29, 0x2B, 0x40, 0x60, 0x61, 0x69, 0x6A] allPages (.measureBoundary util stall)) ∧
  (Frame [.clk, .free, .regs, .out, .stopped, .powered, .acc, .hall, .toc, .recd, .gddr, .tiles, .arr, .cel, .mbx, .lnk, .rtr, .opt, .optGen, .optSince, .col, .agt, .bel, .mgr, .host, .pwr, .sec, .gdMem, .celMem] [] 0x0 .scrubStepDone)

/-- Strongroom, keys and Knock: what each command leaves unchanged. Wherever the command answers a next state, every waiting command, every part of the state it does not name and every register of the pages it does not name keep their value; a command that names pages only below a bound says nothing of those above it. -/
def Obligations.SecurityKeepsTheRest : Prop :=
  (∀ core sig, Frame [.free, .regs, .out, .toc, .recd, .rtr, .agt, .bel, .host, .pwr] [0x00, 0x40, 0x60, 0x61, 0x68, 0x69] allPages (.verifyObject core sig)) ∧
  (∀ core, Frame [.clk, .free, .regs, .out, .stopped, .powered, .acc, .hall, .toc, .recd, .gddr, .tiles, .arr, .cel, .mbx, .lnk, .rtr, .opt, .optGen, .optSince, .col, .agt, .bel, .mgr, .host, .pwr, .sec, .gdMem] [] 0x0 (.activateObject core)) ∧
  (∀ core rank term, Frame [.regs, .toc, .recd] [0x60, 0x61, 0x68] allPages (.signClaim core rank term)) ∧
  (∀ core tenant key, Frame [.regs, .toc, .recd, .cel] [0x60, 0x61, 0x68] allPages (.cellarKey core tenant key)) ∧
  (∀ core nonce signs, Frame [.free, .regs, .toc, .recd, .sec] [0x5A, 0x60, 0x61, 0x68] allPages (.attest core nonce signs)) ∧
  (∀ core what, Frame [.regs, .toc, .recd, .sec] [0x60, 0x61, 0x68] allPages (.keyDelivery core what)) ∧
  (∀ core what, Frame [.regs, .acc, .toc, .recd] [] 0x0 (.lockCall core what)) ∧
  (∀ core, Frame [.regs, .toc, .recd] [0x60, 0x61, 0x68] allPages (.callTimeout core)) ∧
  (∀ o signs, Frame [.free, .regs, .out, .toc, .recd, .rtr, .agt, .host, .sec] [0x40, 0x5A, 0x60, 0x61, 0x69] allPages (.attRequest o signs)) ∧
  (∀ o, Frame [.regs, .out, .toc, .recd, .rtr, .agt, .host] [0x40, 0x5A, 0x60, 0x61, 0x69] allPages (.attExtend o)) ∧
  (Frame [.sec] [] allPages .reportExpiry) ∧
  (∀ o chain sig tag plain, Frame [.clk, .free, .regs, .out, .stopped, .powered, .acc, .hall, .toc, .recd, .gddr, .tiles, .arr, .cel, .mbx, .lnk, .rtr, .opt, .optGen, .optSince, .col, .agt, .bel, .mgr, .host, .pwr, .sec, .gdMem] [] 0x0 (.keyDeliver o chain sig tag plain)) ∧
  (∀ i, Frame [.sec] [] allPages (.deliveryPartTimeout i)) ∧
  (∀ o htag, Frame [.regs, .out, .toc, .recd, .rtr, .agt, .host, .sec] [0x40, 0x59, 0x60, 0x61, 0x69] allPages (.unseal o htag)) ∧
  (∀ tags plain, Frame [.free, .regs, .out, .hall, .toc, .recd, .gddr, .rtr, .agt, .host, .sec, .gdMem] [] 0x8 (.unsealDone tags plain)) ∧
  (∀ o, Frame [.regs, .out, .toc, .recd, .rtr, .agt, .host] [0x40, 0x60, 0x61, 0x69] allPages (.debugChallenge o)) ∧
  (∀ o chain sig, Frame [.free, .regs, .out, .toc, .recd, .rtr, .agt, .host, .sec] [0x40, 0x5B, 0x60, 0x61, 0x69] allPages (.debugUnlock o chain sig)) ∧
  (∀ o, Frame [.clk, .free, .regs, .out, .stopped, .powered, .acc, .hall, .toc, .recd, .gddr, .tiles, .arr, .cel, .mbx, .lnk, .rtr, .opt, .optGen, .optSince, .col, .agt, .bel, .mgr, .host, .pwr, .sec, .gdMem] [] 0x0 (.debugRelock o)) ∧
  (∀ o, Frame [.free, .regs, .out, .toc, .recd, .rtr, .agt, .host, .sec] [0x40, 0x5B, 0x60, 0x61, 0x69] allPages (.debugCore o)) ∧
  (Frame [.clk, .free, .regs, .out, .stopped, .powered, .acc, .hall, .toc, .recd, .gddr, .tiles, .arr, .cel, .mbx, .lnk, .rtr, .opt, .optGen, .optSince, .col, .agt, .bel, .mgr, .host, .pwr, .sec, .gdMem] [] 0x0 .leaseEnd) ∧
  (∀ mode, Frame [.clk, .free, .regs, .out, .stopped, .powered, .acc, .hall, .toc, .recd, .gddr, .tiles, .arr, .cel, .mbx, .lnk, .rtr, .opt, .optGen, .optSince, .col, .agt, .bel, .mgr, .host, .pwr, .sec, .gdMem] [] 0x0 (.dbgUnlock mode)) ∧
  (∀ i, Frame [.free, .regs, .out, .toc, .recd, .lnk, .rtr, .agt, .host, .sec] [] 0x20 (.jtagInstruction i)) ∧
  (∀ o, Frame [.regs, .out, .toc, .recd, .rtr, .agt, .host] [0x40, 0x60, 0x61, 0x69] allPages (.statusRead o)) ∧
  (∀ k, Frame [.regs, .out, .toc, .recd, .sec] [0x42, 0x59, 0x60, 0x61] allPages (.knockStatus k)) ∧
  (∀ k, Frame [.regs, .out, .toc, .recd, .sec] [0x42, 0x59, 0x60, 0x61] allPages (.recTail k)) ∧
  (∀ k, Frame [.regs, .out, .toc, .recd, .sec] [0x42, 0x59, 0x60, 0x61] allPages (.recFreeze k)) ∧
  (∀ k, Frame [.clk, .free, .regs, .out, .stopped, .powered, .acc, .hall, .toc, .recd, .gddr, .tiles, .arr, .cel, .mbx, .lnk, .rtr, .opt, .optGen, .optSince, .col, .agt, .bel, .mgr, .host, .pwr, .sec, .gdMem] [] 0x0 (.switchCore k)) ∧
  (∀ k, Frame [.regs, .out, .toc, .recd, .sec] [0x42, 0x59, 0x60, 0x61] allPages (.knockErrN k)) ∧
  (∀ k, Frame [.clk, .free, .regs, .out, .stopped, .powered, .acc, .hall, .toc, .recd, .gddr, .tiles, .arr, .cel, .mbx, .lnk, .rtr, .opt, .optGen, .optSince, .col, .agt, .bel, .mgr, .host, .pwr, .sec, .gdMem] [] 0x0 (.knockReset k)) ∧
  (∀ k, Frame [.clk, .free, .regs, .out, .stopped, .powered, .acc, .hall, .toc, .recd, .gddr, .tiles, .arr, .cel, .mbx, .lnk, .rtr, .opt, .optGen, .optSince, .col, .agt, .bel, .mgr, .host, .pwr, .sec, .gdMem] [] 0x0 (.knockPower k))

/-- What a command stores stays inside the range it names. For each command that stores to GDDR7 as its own effect, the statement computes where: the bytes of a controller write, the destination and the status word of a copy, the place a window gives a packet, the last words of a descriptor, the array's output rows and its completion ring. Every byte outside reads as before. What else waits for memory and goes on as a device answers stores for itself, so the statement of a recalibration's end is made where nothing else waits. -/
def Obligations.StoresStayInside : Prop :=
  (∀ addr bytes user, StoresIn (fun _ => [(addr.toNat, bytes.length)]) (.gdLineWrite addr bytes user)) ∧
  (∀ (w : Fin 8) (dev : Fin 3) (s : State), (quiet s.dev) → ∀ t, exec (.gdRecalDone w dev) s = .next t → ∀ a, (∀ r ∈ (SMap.get (fun _ => []) s.dev.gddr.waits (w.val * 3 + dev.val)).filterMap (fun r => match r with | .write a b _ => some (a, b.length) | .read _ _ _ => none), a < r.1 ∨ r.1 + r.2 ≤ a) → t.mem.byte a = s.mem.byte a) ∧
  (∀ n, StoresIn (fun s => ((copyEng s.dev n.val).queue.take 1).map (fun op => (op.dst, op.total)) ++ copyStatusRange n.val s) (.copyStart n)) ∧
  (∀ n err, StoresIn (fun s => ((copyEng s.dev n.val).queue.take 1).map (fun op => (op.dst + (copyEng s.dev n.val).moved, 4096))) (.cellarUnitAccess n err)) ∧
  (∀ n, StoresIn (copyStatusRange n.val) (.copyComplete n)) ∧
  (∀ n, StoresIn (copyStatusRange n.val) (.copyFailDone n)) ∧
  (∀ o, StoresIn (windowRange ptWrite o) (.writePkt o)) ∧
  (∀ o, StoresIn (windowRange ptReadResp o) (.readResp o)) ∧
  (∀ o, StoresIn (windowRange ptMcast o) (.mcastPkt o)) ∧
  (∀ r rkey va data, StoresIn (fun s => [(windowAddr s.dev (keyWindow rkey) va, data.length)]) (.rdmaWrite r rkey va data)) ∧
  (StoresIn (fun s => (s.dev.rtr.ra.take 1).map (fun j => (j.addr + 60, 4))) .raComplete) ∧
  (StoresIn (fun s => (s.dev.col.queue.take 1).map (fun j => (j.addr + 56, 8))) .colHeadCheck) ∧
  (StoresIn (fun s => partRanges s ++ (s.dev.col.queue.take 1).map (fun j => (j.addr + 52, 12))) .colQuotaReserved) ∧
  (∀ o, StoresIn (partRanges) (.openChunk o)) ∧
  (∀ o, StoresIn (partRanges) (.verdictChunk o)) ∧
  (∀ o, StoresIn (partRanges) (.abortChunk o)) ∧
  (∀ o, StoresIn (partRanges) (.creditChunk o)) ∧
  (∀ o, StoresIn (partRanges) (.dataChunk o)) ∧
  (∀ o, StoresIn (partRanges) (.resultChunk o)) ∧
  (∀ i, StoresIn (partRanges) (.colInputReadDone i)) ∧
  (∀ i, StoresIn (partRanges) (.colJoinTimeout i)) ∧
  (∀ i, StoresIn (partRanges) (.colProgressTimeout i)) ∧
  (StoresIn (partRanges) .abandonmentNotice) ∧
  (StoresIn (partRanges) .arrayHandover) ∧
  (∀ master hold, StoresIn (fun s => partRanges s ++ s.dev.col.queue.map (fun j => (j.addr + 56, 8))) (.colFlush master hold)) ∧
  (∀ master hold, StoresIn (fun s => partRanges s ++ s.dev.col.queue.map (fun j => (j.addr + 56, 8))) (.colHold master hold)) ∧
  (∀ i, StoresIn (fun s => partRanges s ++ (match partAt s.dev i.toNat with | some x => ((x.lowest (fun _ c => c.wrote == 1)).map (fun q => (windowAddr s.dev x.job.rwin (x.job.resOff (x.tree (grp s.dev x.job.group) q) (x.cno (grp s.dev x.job.group) q)), ((x.chunk q).data.getD []).length))).toList | none => [])) (.colResultWriteAck i)) ∧
  (∀ tags plain, StoresIn (fun s => s.dev.sec.unsealing.toList.map (fun j => (j.dst, j.len))) (.unsealDone tags plain)) ∧
  (∀ n status, StoresIn (fun s => match s.dev.arr.exec with | some e => (e.unacked.filter (fun w => w.n == n)).filterMap (fun w => match w.what with | .loc a bs => some (a, bs.length) | _ => none) | none => []) (.arrOutputAck n status)) ∧
  (StoresIn (fun s => [ringRange s.dev]) .arrOpStart) ∧
  (∀ master hold, StoresIn (fun s => [ringRange s.dev]) (.arrFlush master hold)) ∧
  (∀ master hold, StoresIn (fun _ => []) (.arrHold master hold)) ∧
  (∀ master value, StoresIn (fun s => ringRange s.dev :: (match s.dev.arr.held with | some h => [((ringRange s.dev).1 + 32 * (s.dev.rd Reg.ARR_CPL_HEAD % 2 ^ s.dev.rd Reg.ARR_CPL_SIZE), h.bytes.length)] | none => [])) (.arrCplTail master value)) ∧
  (StoresIn (arrayRanges) .arrOpComplete) ∧
  (StoresIn (arrayRanges) .arrFailDrained) ∧
  (StoresIn (arrayRanges) .cplWrite)

/-- What power and test commands do to GDDR7. Power waves, the end of a reset, the thermal trip, the memory test and the fills leave each byte of GDDR7 as it was or as memory that nothing has written (the model's choice of zero there: log entry 3). -/
def Obligations.PowerForgetsOnly : Prop :=
  (∀ ok, ForgetsOnly (.powerWave ok)) ∧
  (∀ kind target store, ForgetsOnly (.resetComplete kind target store)) ∧
  (∀ store, ForgetsOnly (.resetNRelease store)) ∧
  (∀ die t, ForgetsOnly (.thermalTrip die t)) ∧
  (∀ a b, ForgetsOnly (.powerOn a b)) ∧
  (ForgetsOnly .entryToOff) ∧
  (ForgetsOnly .gddr7ZeroFillDone) ∧
  (∀ status ms, ForgetsOnly (.memtestDone status ms))
end

