-- ==== Sys2Proof/Laws/SMap.lean ====
section
/-! SUPPORT. Sparse maps: what a put, an erase and a change of values leave, and that each keeps the canonical form. -/

namespace Sys2Proof.Machine
variable {α : Type}

theorem SMap.rises_mono {m : SMap α} {a b : Nat} (h : a ≤ b) (hm : SMap.risesFrom b m = true) : SMap.risesFrom a m = true := by
  cases m with
  | nil => rfl
  | cons e m => obtain ⟨j, w⟩ := e; simp_all [SMap.risesFrom]; omega

theorem SMap.get_below (d : Nat → α) {m : SMap α} {b k : Nat} (hm : SMap.risesFrom b m = true) (h : k < b) :
    SMap.get d m k = d k := by
  induction m generalizing b with
  | nil => rfl
  | cons e m ih =>
    obtain ⟨j, w⟩ := e
    simp only [SMap.risesFrom, Bool.and_eq_true, decide_eq_true_eq] at hm
    have : j ≠ k := by omega
    simp [SMap.get, this, ih hm.2 (by omega)]

theorem SMap.get_erase (d : Nat → α) (m : SMap α) (p : Nat → Bool) (k : Nat) :
    SMap.get d (SMap.erase p m) k = if p k then d k else SMap.get d m k := by
  induction m with
  | nil => simp [SMap.erase, SMap.get]
  | cons e m ih =>
    obtain ⟨j, w⟩ := e
    unfold SMap.erase at ih ⊢
    by_cases hj : j = k
    · subst hj
      by_cases h : p j <;> simp_all [List.filter, SMap.get]
    · by_cases h : p j <;> simp_all [List.filter, SMap.get]

/-- A value put at a key is read there, whatever the list. -/
theorem SMap.get_put_same [DecidableEq α] (d : Nat → α) (m : SMap α) (k : Nat) (v : α) : SMap.get d (SMap.put d m k v) k = v := by
  induction m with
  | nil => by_cases h : v = d k <;> simp [SMap.put, SMap.get, h]
  | cons e m ih =>
    obtain ⟨j, w⟩ := e
    unfold SMap.put
    split
    · split
      · rename_i h; simp [SMap.get_erase, h]
      · simp [SMap.get]
    · split
      · split
        · rename_i h; simp [SMap.get_erase, h]
        · simp [SMap.get]
      · rename_i h1 h2
        simp [SMap.get, Ne.symm h2, ih]

/-- A value put at a key changes no other. -/
theorem SMap.get_put_ne [DecidableEq α] (d : Nat → α) (m : SMap α) {k i : Nat} (v : α) (h : i ≠ k) :
    SMap.get d (SMap.put d m k v) i = SMap.get d m i := by
  induction m with
  | nil => by_cases hv : v = d k <;> simp [SMap.put, SMap.get, hv, Ne.symm h]
  | cons e m ih =>
    obtain ⟨j, w⟩ := e
    unfold SMap.put
    split
    · split
      · simp [SMap.get_erase, h]
      · simp [SMap.get, Ne.symm h]
    · split
      · rename_i hk; subst hk
        split <;> simp [SMap.get, SMap.get_erase, h, Ne.symm h]
      · simp [SMap.get, ih]

theorem SMap.rises_filter {m : SMap α} {b : Nat} (p : Nat × α → Bool) (hm : SMap.risesFrom b m = true) :
    SMap.risesFrom b (m.filter p) = true := by
  induction m generalizing b with
  | nil => rfl
  | cons e m ih =>
    obtain ⟨j, w⟩ := e
    simp only [SMap.risesFrom, Bool.and_eq_true, decide_eq_true_eq] at hm
    by_cases h : p (j, w)
    · simp [List.filter, h, SMap.risesFrom, hm.1, ih hm.2]
    · simp [List.filter, h]; exact SMap.rises_mono (by omega) (ih hm.2)

theorem SMap.put_rises [DecidableEq α] (d : Nat → α) {m : SMap α} {b k : Nat} (v : α) (hb : b ≤ k) (hm : SMap.risesFrom b m = true) :
    SMap.risesFrom b (SMap.put d m k v) = true := by
  induction m generalizing b with
  | nil => by_cases h : v = d k <;> simp [SMap.put, SMap.risesFrom, h, hb]
  | cons e m ih =>
    obtain ⟨j, w⟩ := e
    have hm' := hm
    simp only [SMap.risesFrom, Bool.and_eq_true, decide_eq_true_eq] at hm
    unfold SMap.put
    split
    · split
      · exact SMap.rises_filter _ hm'
      · simp [SMap.risesFrom, hb, hm.2]; omega
    · split
      · rename_i hk; subst hk
        split
        · exact SMap.rises_filter _ (SMap.rises_mono (by omega) hm.2)
        · simp [SMap.risesFrom, hb, hm.2]
      · simp [SMap.risesFrom, hm.1, ih (show j + 1 ≤ k by omega) hm.2]

theorem SMap.put_mem [DecidableEq α] (d : Nat → α) {m : SMap α} {k : Nat} {v : α} {e : Nat × α} (h : e ∈ SMap.put d m k v) :
    e ∈ m ∨ (e = (k, v) ∧ v ≠ d k) := by
  induction m with
  | nil => by_cases hv : v = d k <;> simp_all [SMap.put]
  | cons x m ih =>
    obtain ⟨j, w⟩ := x
    unfold SMap.put at h
    split at h
    · split at h
      · exact .inl (List.mem_filter.1 h).1
      · rcases List.mem_cons.1 h with h | h
        · exact .inr ⟨h, by assumption⟩
        · exact .inl h
    · split at h
      · split at h
        · exact .inl (List.mem_cons_of_mem _ (List.mem_filter.1 h).1)
        · rcases List.mem_cons.1 h with h | h
          · exact .inr ⟨h, by assumption⟩
          · exact .inl (List.mem_cons_of_mem _ h)
      · rcases List.mem_cons.1 h with h | h
        · exact .inl (h ▸ List.mem_cons_self)
        · rcases ih h with h | h
          · exact .inl (List.mem_cons_of_mem _ h)
          · exact .inr h

theorem SMap.wf_put [DecidableEq α] (d : Nat → α) {m : SMap α} (k : Nat) (v : α) (hm : SMap.wf d m = true) :
    SMap.wf d (SMap.put d m k v) = true := by
  simp only [SMap.wf, Bool.and_eq_true, List.all_eq_true, decide_eq_true_eq] at hm ⊢
  refine ⟨SMap.put_rises d v (Nat.zero_le k) hm.1, fun e he => ?_⟩
  rcases SMap.put_mem d he with h | ⟨rfl, h⟩
  · exact hm.2 e h
  · exact h

theorem SMap.wf_erase [DecidableEq α] (d : Nat → α) {m : SMap α} (p : Nat → Bool) (hm : SMap.wf d m = true) :
    SMap.wf d (SMap.erase p m) = true := by
  simp only [SMap.wf, SMap.erase, Bool.and_eq_true, List.all_eq_true, decide_eq_true_eq] at hm ⊢
  exact ⟨SMap.rises_filter _ hm.1, fun e he => hm.2 e (List.mem_filter.1 he).1⟩

theorem SMap.rises_map {β : Type} {m : SMap α} {b : Nat} (f : Nat → α → β) (hm : SMap.risesFrom b m = true) :
    SMap.risesFrom b (m.map (fun e => (e.1, f e.1 e.2))) = true := by
  induction m generalizing b with
  | nil => rfl
  | cons e m ih =>
    obtain ⟨j, w⟩ := e
    simp only [SMap.risesFrom, Bool.and_eq_true, decide_eq_true_eq] at hm
    simp [SMap.risesFrom, hm.1, ih hm.2]

theorem SMap.wf_mapKV [DecidableEq α] (d : Nat → α) (f : Nat → α → α) {m : SMap α} (hm : SMap.wf d m = true) :
    SMap.wf d (SMap.mapKV d f m) = true := by
  simp only [SMap.wf, SMap.mapKV, Bool.and_eq_true, List.all_eq_true, decide_eq_true_eq] at hm ⊢
  refine ⟨SMap.rises_filter _ (SMap.rises_map f hm.1), fun e he => ?_⟩
  simpa using (List.mem_filter.1 he).2

theorem SMap.wf_mapVals [DecidableEq α] (d : Nat → α) (f : α → α) {m : SMap α} (hm : SMap.wf d m = true) :
    SMap.wf d (SMap.mapVals d f m) = true := SMap.wf_mapKV d (fun _ => f) hm

theorem SMap.wf_rises [DecidableEq α] (d : Nat → α) {m : SMap α} (hm : SMap.wf d m = true) : SMap.risesFrom 0 m = true := by
  simp_all [SMap.wf]

end Sys2Proof.Machine
end

