-- ==== Sys2Proof/Laws/State.lean ====
section
/-! SUPPORT. What the named operations on the device leave unchanged, field by field, and what they do to a register. -/

namespace Sys2Proof.Machine

/-! ## One register written, one thing sent, one free value used -/

@[simp] theorem Dev.wr_clk (d : Dev) (k v : Nat) : (d.wr k v).clk = d.clk := rfl
@[simp] theorem Dev.wr_free (d : Dev) (k v : Nat) : (d.wr k v).free = d.free := rfl
@[simp] theorem Dev.wr_out (d : Dev) (k v : Nat) : (d.wr k v).out = d.out := rfl
@[simp] theorem Dev.wr_stopped (d : Dev) (k v : Nat) : (d.wr k v).stopped = d.stopped := rfl
@[simp] theorem Dev.wr_powered (d : Dev) (k v : Nat) : (d.wr k v).powered = d.powered := rfl
@[simp] theorem Dev.wr_acc (d : Dev) (k v : Nat) : (d.wr k v).acc = d.acc := rfl
@[simp] theorem Dev.wr_hall (d : Dev) (k v : Nat) : (d.wr k v).hall = d.hall := rfl
@[simp] theorem Dev.wr_toc (d : Dev) (k v : Nat) : (d.wr k v).toc = d.toc := rfl
@[simp] theorem Dev.wr_recd (d : Dev) (k v : Nat) : (d.wr k v).recd = d.recd := rfl
@[simp] theorem Dev.wr_gddr (d : Dev) (k v : Nat) : (d.wr k v).gddr = d.gddr := rfl
@[simp] theorem Dev.wr_tiles (d : Dev) (k v : Nat) : (d.wr k v).tiles = d.tiles := rfl
@[simp] theorem Dev.wr_arr (d : Dev) (k v : Nat) : (d.wr k v).arr = d.arr := rfl
@[simp] theorem Dev.wr_cel (d : Dev) (k v : Nat) : (d.wr k v).cel = d.cel := rfl
@[simp] theorem Dev.wr_mbx (d : Dev) (k v : Nat) : (d.wr k v).mbx = d.mbx := rfl
@[simp] theorem Dev.wr_lnk (d : Dev) (k v : Nat) : (d.wr k v).lnk = d.lnk := rfl
@[simp] theorem Dev.wr_rtr (d : Dev) (k v : Nat) : (d.wr k v).rtr = d.rtr := rfl
@[simp] theorem Dev.wr_opt (d : Dev) (k v : Nat) : (d.wr k v).opt = d.opt := rfl
@[simp] theorem Dev.wr_optGen (d : Dev) (k v : Nat) : (d.wr k v).optGen = d.optGen := rfl
@[simp] theorem Dev.wr_optSince (d : Dev) (k v : Nat) : (d.wr k v).optSince = d.optSince := rfl
@[simp] theorem Dev.wr_col (d : Dev) (k v : Nat) : (d.wr k v).col = d.col := rfl
@[simp] theorem Dev.wr_agt (d : Dev) (k v : Nat) : (d.wr k v).agt = d.agt := rfl
@[simp] theorem Dev.wr_bel (d : Dev) (k v : Nat) : (d.wr k v).bel = d.bel := rfl
@[simp] theorem Dev.wr_mgr (d : Dev) (k v : Nat) : (d.wr k v).mgr = d.mgr := rfl
@[simp] theorem Dev.wr_host (d : Dev) (k v : Nat) : (d.wr k v).host = d.host := rfl
@[simp] theorem Dev.wr_pwr (d : Dev) (k v : Nat) : (d.wr k v).pwr = d.pwr := rfl
@[simp] theorem Dev.wr_sec (d : Dev) (k v : Nat) : (d.wr k v).sec = d.sec := rfl
@[simp] theorem Dev.wr_msr (d : Dev) (k v : Nat) : (d.wr k v).msr = d.msr := rfl

@[simp] theorem Dev.countBy_clk (d : Dev) (k n : Nat) : (d.countBy k n).clk = d.clk := rfl
@[simp] theorem Dev.countBy_free (d : Dev) (k n : Nat) : (d.countBy k n).free = d.free := rfl
@[simp] theorem Dev.countBy_out (d : Dev) (k n : Nat) : (d.countBy k n).out = d.out := rfl
@[simp] theorem Dev.countBy_stopped (d : Dev) (k n : Nat) : (d.countBy k n).stopped = d.stopped := rfl
@[simp] theorem Dev.countBy_powered (d : Dev) (k n : Nat) : (d.countBy k n).powered = d.powered := rfl
@[simp] theorem Dev.countBy_acc (d : Dev) (k n : Nat) : (d.countBy k n).acc = d.acc := rfl
@[simp] theorem Dev.countBy_hall (d : Dev) (k n : Nat) : (d.countBy k n).hall = d.hall := rfl
@[simp] theorem Dev.countBy_toc (d : Dev) (k n : Nat) : (d.countBy k n).toc = d.toc := rfl
@[simp] theorem Dev.countBy_recd (d : Dev) (k n : Nat) : (d.countBy k n).recd = d.recd := rfl
@[simp] theorem Dev.countBy_gddr (d : Dev) (k n : Nat) : (d.countBy k n).gddr = d.gddr := rfl
@[simp] theorem Dev.countBy_tiles (d : Dev) (k n : Nat) : (d.countBy k n).tiles = d.tiles := rfl
@[simp] theorem Dev.countBy_arr (d : Dev) (k n : Nat) : (d.countBy k n).arr = d.arr := rfl
@[simp] theorem Dev.countBy_cel (d : Dev) (k n : Nat) : (d.countBy k n).cel = d.cel := rfl
@[simp] theorem Dev.countBy_mbx (d : Dev) (k n : Nat) : (d.countBy k n).mbx = d.mbx := rfl
@[simp] theorem Dev.countBy_lnk (d : Dev) (k n : Nat) : (d.countBy k n).lnk = d.lnk := rfl
@[simp] theorem Dev.countBy_rtr (d : Dev) (k n : Nat) : (d.countBy k n).rtr = d.rtr := rfl
@[simp] theorem Dev.countBy_opt (d : Dev) (k n : Nat) : (d.countBy k n).opt = d.opt := rfl
@[simp] theorem Dev.countBy_optGen (d : Dev) (k n : Nat) : (d.countBy k n).optGen = d.optGen := rfl
@[simp] theorem Dev.countBy_optSince (d : Dev) (k n : Nat) : (d.countBy k n).optSince = d.optSince := rfl
@[simp] theorem Dev.countBy_col (d : Dev) (k n : Nat) : (d.countBy k n).col = d.col := rfl
@[simp] theorem Dev.countBy_agt (d : Dev) (k n : Nat) : (d.countBy k n).agt = d.agt := rfl
@[simp] theorem Dev.countBy_bel (d : Dev) (k n : Nat) : (d.countBy k n).bel = d.bel := rfl
@[simp] theorem Dev.countBy_mgr (d : Dev) (k n : Nat) : (d.countBy k n).mgr = d.mgr := rfl
@[simp] theorem Dev.countBy_host (d : Dev) (k n : Nat) : (d.countBy k n).host = d.host := rfl
@[simp] theorem Dev.countBy_pwr (d : Dev) (k n : Nat) : (d.countBy k n).pwr = d.pwr := rfl
@[simp] theorem Dev.countBy_sec (d : Dev) (k n : Nat) : (d.countBy k n).sec = d.sec := rfl
@[simp] theorem Dev.countBy_msr (d : Dev) (k n : Nat) : (d.countBy k n).msr = d.msr := rfl

@[simp] theorem Dev.count_clk (d : Dev) (k : Nat) : (d.count k).clk = d.clk := rfl
@[simp] theorem Dev.count_free (d : Dev) (k : Nat) : (d.count k).free = d.free := rfl
@[simp] theorem Dev.count_out (d : Dev) (k : Nat) : (d.count k).out = d.out := rfl
@[simp] theorem Dev.count_stopped (d : Dev) (k : Nat) : (d.count k).stopped = d.stopped := rfl
@[simp] theorem Dev.count_powered (d : Dev) (k : Nat) : (d.count k).powered = d.powered := rfl
@[simp] theorem Dev.count_acc (d : Dev) (k : Nat) : (d.count k).acc = d.acc := rfl
@[simp] theorem Dev.count_hall (d : Dev) (k : Nat) : (d.count k).hall = d.hall := rfl
@[simp] theorem Dev.count_toc (d : Dev) (k : Nat) : (d.count k).toc = d.toc := rfl
@[simp] theorem Dev.count_recd (d : Dev) (k : Nat) : (d.count k).recd = d.recd := rfl
@[simp] theorem Dev.count_gddr (d : Dev) (k : Nat) : (d.count k).gddr = d.gddr := rfl
@[simp] theorem Dev.count_tiles (d : Dev) (k : Nat) : (d.count k).tiles = d.tiles := rfl
@[simp] theorem Dev.count_arr (d : Dev) (k : Nat) : (d.count k).arr = d.arr := rfl
@[simp] theorem Dev.count_cel (d : Dev) (k : Nat) : (d.count k).cel = d.cel := rfl
@[simp] theorem Dev.count_mbx (d : Dev) (k : Nat) : (d.count k).mbx = d.mbx := rfl
@[simp] theorem Dev.count_lnk (d : Dev) (k : Nat) : (d.count k).lnk = d.lnk := rfl
@[simp] theorem Dev.count_rtr (d : Dev) (k : Nat) : (d.count k).rtr = d.rtr := rfl
@[simp] theorem Dev.count_opt (d : Dev) (k : Nat) : (d.count k).opt = d.opt := rfl
@[simp] theorem Dev.count_optGen (d : Dev) (k : Nat) : (d.count k).optGen = d.optGen := rfl
@[simp] theorem Dev.count_optSince (d : Dev) (k : Nat) : (d.count k).optSince = d.optSince := rfl
@[simp] theorem Dev.count_col (d : Dev) (k : Nat) : (d.count k).col = d.col := rfl
@[simp] theorem Dev.count_agt (d : Dev) (k : Nat) : (d.count k).agt = d.agt := rfl
@[simp] theorem Dev.count_bel (d : Dev) (k : Nat) : (d.count k).bel = d.bel := rfl
@[simp] theorem Dev.count_mgr (d : Dev) (k : Nat) : (d.count k).mgr = d.mgr := rfl
@[simp] theorem Dev.count_host (d : Dev) (k : Nat) : (d.count k).host = d.host := rfl
@[simp] theorem Dev.count_pwr (d : Dev) (k : Nat) : (d.count k).pwr = d.pwr := rfl
@[simp] theorem Dev.count_sec (d : Dev) (k : Nat) : (d.count k).sec = d.sec := rfl
@[simp] theorem Dev.count_msr (d : Dev) (k : Nat) : (d.count k).msr = d.msr := rfl

@[simp] theorem Dev.bump_clk (d : Dev) (k : Nat) : (d.bump k).clk = d.clk := rfl
@[simp] theorem Dev.bump_free (d : Dev) (k : Nat) : (d.bump k).free = d.free := rfl
@[simp] theorem Dev.bump_out (d : Dev) (k : Nat) : (d.bump k).out = d.out := rfl
@[simp] theorem Dev.bump_stopped (d : Dev) (k : Nat) : (d.bump k).stopped = d.stopped := rfl
@[simp] theorem Dev.bump_powered (d : Dev) (k : Nat) : (d.bump k).powered = d.powered := rfl
@[simp] theorem Dev.bump_acc (d : Dev) (k : Nat) : (d.bump k).acc = d.acc := rfl
@[simp] theorem Dev.bump_hall (d : Dev) (k : Nat) : (d.bump k).hall = d.hall := rfl
@[simp] theorem Dev.bump_toc (d : Dev) (k : Nat) : (d.bump k).toc = d.toc := rfl
@[simp] theorem Dev.bump_recd (d : Dev) (k : Nat) : (d.bump k).recd = d.recd := rfl
@[simp] theorem Dev.bump_gddr (d : Dev) (k : Nat) : (d.bump k).gddr = d.gddr := rfl
@[simp] theorem Dev.bump_tiles (d : Dev) (k : Nat) : (d.bump k).tiles = d.tiles := rfl
@[simp] theorem Dev.bump_arr (d : Dev) (k : Nat) : (d.bump k).arr = d.arr := rfl
@[simp] theorem Dev.bump_cel (d : Dev) (k : Nat) : (d.bump k).cel = d.cel := rfl
@[simp] theorem Dev.bump_mbx (d : Dev) (k : Nat) : (d.bump k).mbx = d.mbx := rfl
@[simp] theorem Dev.bump_lnk (d : Dev) (k : Nat) : (d.bump k).lnk = d.lnk := rfl
@[simp] theorem Dev.bump_rtr (d : Dev) (k : Nat) : (d.bump k).rtr = d.rtr := rfl
@[simp] theorem Dev.bump_opt (d : Dev) (k : Nat) : (d.bump k).opt = d.opt := rfl
@[simp] theorem Dev.bump_optGen (d : Dev) (k : Nat) : (d.bump k).optGen = d.optGen := rfl
@[simp] theorem Dev.bump_optSince (d : Dev) (k : Nat) : (d.bump k).optSince = d.optSince := rfl
@[simp] theorem Dev.bump_col (d : Dev) (k : Nat) : (d.bump k).col = d.col := rfl
@[simp] theorem Dev.bump_agt (d : Dev) (k : Nat) : (d.bump k).agt = d.agt := rfl
@[simp] theorem Dev.bump_bel (d : Dev) (k : Nat) : (d.bump k).bel = d.bel := rfl
@[simp] theorem Dev.bump_mgr (d : Dev) (k : Nat) : (d.bump k).mgr = d.mgr := rfl
@[simp] theorem Dev.bump_host (d : Dev) (k : Nat) : (d.bump k).host = d.host := rfl
@[simp] theorem Dev.bump_pwr (d : Dev) (k : Nat) : (d.bump k).pwr = d.pwr := rfl
@[simp] theorem Dev.bump_sec (d : Dev) (k : Nat) : (d.bump k).sec = d.sec := rfl
@[simp] theorem Dev.bump_msr (d : Dev) (k : Nat) : (d.bump k).msr = d.msr := rfl

@[simp] theorem Dev.send_clk (d : Dev) (x : Sent) : (d.send x).clk = d.clk := rfl
@[simp] theorem Dev.send_free (d : Dev) (x : Sent) : (d.send x).free = d.free := rfl
@[simp] theorem Dev.send_regs (d : Dev) (x : Sent) : (d.send x).regs = d.regs := rfl
@[simp] theorem Dev.send_stopped (d : Dev) (x : Sent) : (d.send x).stopped = d.stopped := rfl
@[simp] theorem Dev.send_powered (d : Dev) (x : Sent) : (d.send x).powered = d.powered := rfl
@[simp] theorem Dev.send_acc (d : Dev) (x : Sent) : (d.send x).acc = d.acc := rfl
@[simp] theorem Dev.send_hall (d : Dev) (x : Sent) : (d.send x).hall = d.hall := rfl
@[simp] theorem Dev.send_toc (d : Dev) (x : Sent) : (d.send x).toc = d.toc := rfl
@[simp] theorem Dev.send_recd (d : Dev) (x : Sent) : (d.send x).recd = d.recd := rfl
@[simp] theorem Dev.send_gddr (d : Dev) (x : Sent) : (d.send x).gddr = d.gddr := rfl
@[simp] theorem Dev.send_tiles (d : Dev) (x : Sent) : (d.send x).tiles = d.tiles := rfl
@[simp] theorem Dev.send_arr (d : Dev) (x : Sent) : (d.send x).arr = d.arr := rfl
@[simp] theorem Dev.send_cel (d : Dev) (x : Sent) : (d.send x).cel = d.cel := rfl
@[simp] theorem Dev.send_mbx (d : Dev) (x : Sent) : (d.send x).mbx = d.mbx := rfl
@[simp] theorem Dev.send_lnk (d : Dev) (x : Sent) : (d.send x).lnk = d.lnk := rfl
@[simp] theorem Dev.send_rtr (d : Dev) (x : Sent) : (d.send x).rtr = d.rtr := rfl
@[simp] theorem Dev.send_opt (d : Dev) (x : Sent) : (d.send x).opt = d.opt := rfl
@[simp] theorem Dev.send_optGen (d : Dev) (x : Sent) : (d.send x).optGen = d.optGen := rfl
@[simp] theorem Dev.send_optSince (d : Dev) (x : Sent) : (d.send x).optSince = d.optSince := rfl
@[simp] theorem Dev.send_col (d : Dev) (x : Sent) : (d.send x).col = d.col := rfl
@[simp] theorem Dev.send_agt (d : Dev) (x : Sent) : (d.send x).agt = d.agt := rfl
@[simp] theorem Dev.send_bel (d : Dev) (x : Sent) : (d.send x).bel = d.bel := rfl
@[simp] theorem Dev.send_mgr (d : Dev) (x : Sent) : (d.send x).mgr = d.mgr := rfl
@[simp] theorem Dev.send_host (d : Dev) (x : Sent) : (d.send x).host = d.host := rfl
@[simp] theorem Dev.send_pwr (d : Dev) (x : Sent) : (d.send x).pwr = d.pwr := rfl
@[simp] theorem Dev.send_sec (d : Dev) (x : Sent) : (d.send x).sec = d.sec := rfl
@[simp] theorem Dev.send_msr (d : Dev) (x : Sent) : (d.send x).msr = d.msr := rfl

@[simp] theorem Dev.send_out (d : Dev) (x : Sent) : (d.send x).out = d.out ++ [x] := rfl

@[simp] theorem Dev.used_clk (d : Dev) : (d.used).clk = d.clk := rfl
@[simp] theorem Dev.used_regs (d : Dev) : (d.used).regs = d.regs := rfl
@[simp] theorem Dev.used_out (d : Dev) : (d.used).out = d.out := rfl
@[simp] theorem Dev.used_stopped (d : Dev) : (d.used).stopped = d.stopped := rfl
@[simp] theorem Dev.used_powered (d : Dev) : (d.used).powered = d.powered := rfl
@[simp] theorem Dev.used_acc (d : Dev) : (d.used).acc = d.acc := rfl
@[simp] theorem Dev.used_hall (d : Dev) : (d.used).hall = d.hall := rfl
@[simp] theorem Dev.used_toc (d : Dev) : (d.used).toc = d.toc := rfl
@[simp] theorem Dev.used_recd (d : Dev) : (d.used).recd = d.recd := rfl
@[simp] theorem Dev.used_gddr (d : Dev) : (d.used).gddr = d.gddr := rfl
@[simp] theorem Dev.used_tiles (d : Dev) : (d.used).tiles = d.tiles := rfl
@[simp] theorem Dev.used_arr (d : Dev) : (d.used).arr = d.arr := rfl
@[simp] theorem Dev.used_cel (d : Dev) : (d.used).cel = d.cel := rfl
@[simp] theorem Dev.used_mbx (d : Dev) : (d.used).mbx = d.mbx := rfl
@[simp] theorem Dev.used_lnk (d : Dev) : (d.used).lnk = d.lnk := rfl
@[simp] theorem Dev.used_rtr (d : Dev) : (d.used).rtr = d.rtr := rfl
@[simp] theorem Dev.used_opt (d : Dev) : (d.used).opt = d.opt := rfl
@[simp] theorem Dev.used_optGen (d : Dev) : (d.used).optGen = d.optGen := rfl
@[simp] theorem Dev.used_optSince (d : Dev) : (d.used).optSince = d.optSince := rfl
@[simp] theorem Dev.used_col (d : Dev) : (d.used).col = d.col := rfl
@[simp] theorem Dev.used_agt (d : Dev) : (d.used).agt = d.agt := rfl
@[simp] theorem Dev.used_bel (d : Dev) : (d.used).bel = d.bel := rfl
@[simp] theorem Dev.used_mgr (d : Dev) : (d.used).mgr = d.mgr := rfl
@[simp] theorem Dev.used_host (d : Dev) : (d.used).host = d.host := rfl
@[simp] theorem Dev.used_pwr (d : Dev) : (d.used).pwr = d.pwr := rfl
@[simp] theorem Dev.used_sec (d : Dev) : (d.used).sec = d.sec := rfl
@[simp] theorem Dev.used_msr (d : Dev) : (d.used).msr = d.msr := rfl

@[simp] theorem Dev.used_free (d : Dev) : d.used.free = d.free + 1 := rfl

@[simp] theorem Dev.send_rd (d : Dev) (x : Sent) (k : Nat) : (d.send x).rd k = d.rd k := rfl
@[simp] theorem Dev.used_rd (d : Dev) (k : Nat) : d.used.rd k = d.rd k := rfl

/-! ## State-level lifting -/

@[simp] theorem State.onDev_dev (s : State) (f : Dev → Dev) : (s.onDev f).dev = f s.dev := rfl
@[simp] theorem State.onDev_mem (s : State) (f : Dev → Dev) : (s.onDev f).mem = s.mem := rfl
@[simp] theorem State.onDev_pending (s : State) (f : Dev → Dev) : (s.onDev f).pending = s.pending := rfl

/-! ## Registers -/

theorem Dev.rd_wr_ne (d : Dev) {k i : Nat} (v : Nat) (h : i ≠ k) : (d.wr k v).rd i = d.rd i := by
  simp [Dev.rd, Dev.wr, SMap.get_put_ne regDefault d.regs (toWord v) h]

theorem Dev.rd_wr_same (d : Dev) (k v : Nat) : (d.wr k v).rd k = v % 2 ^ 32 := by
  unfold Dev.rd Dev.wr
  rw [SMap.get_put_same regDefault d.regs k (toWord v)]
  simp [toWord]

theorem Dev.rd_lt (d : Dev) (k : Nat) : d.rd k < 2 ^ 32 := (SMap.get regDefault d.regs k).isLt

theorem Dev.rd_count_ne (d : Dev) {k i : Nat} (h : i ≠ k) : (d.count k).rd i = d.rd i := Dev.rd_wr_ne d _ h

/-- A counter is one higher, and stays at its largest value. -/
theorem Dev.rd_count_same (d : Dev) (k : Nat) : (d.count k).rd k = min (d.rd k + 1) 0xFFFFFFFF := by
  have h := Dev.rd_lt d k
  show (d.wr k (satAdd 32 (d.rd k) 1)).rd k = _
  rw [Dev.rd_wr_same, satAdd]
  omega

/-! ## Events and records: they touch the register file, the toggles and the recorder alone -/

@[simp] theorem Dev.raise0_clk (d : Dev) (b n : Nat) : (d.raise0 b n).clk = d.clk := by
  unfold Dev.raise0; dsimp only; (repeat' split) <;> simp
@[simp] theorem Dev.raise0_free (d : Dev) (b n : Nat) : (d.raise0 b n).free = d.free := by
  unfold Dev.raise0; dsimp only; (repeat' split) <;> simp
@[simp] theorem Dev.raise0_out (d : Dev) (b n : Nat) : (d.raise0 b n).out = d.out := by
  unfold Dev.raise0; dsimp only; (repeat' split) <;> simp
@[simp] theorem Dev.raise0_stopped (d : Dev) (b n : Nat) : (d.raise0 b n).stopped = d.stopped := by
  unfold Dev.raise0; dsimp only; (repeat' split) <;> simp
@[simp] theorem Dev.raise0_powered (d : Dev) (b n : Nat) : (d.raise0 b n).powered = d.powered := by
  unfold Dev.raise0; dsimp only; (repeat' split) <;> simp
@[simp] theorem Dev.raise0_acc (d : Dev) (b n : Nat) : (d.raise0 b n).acc = d.acc := by
  unfold Dev.raise0; dsimp only; (repeat' split) <;> simp
@[simp] theorem Dev.raise0_hall (d : Dev) (b n : Nat) : (d.raise0 b n).hall = d.hall := by
  unfold Dev.raise0; dsimp only; (repeat' split) <;> simp
@[simp] theorem Dev.raise0_gddr (d : Dev) (b n : Nat) : (d.raise0 b n).gddr = d.gddr := by
  unfold Dev.raise0; dsimp only; (repeat' split) <;> simp
@[simp] theorem Dev.raise0_tiles (d : Dev) (b n : Nat) : (d.raise0 b n).tiles = d.tiles := by
  unfold Dev.raise0; dsimp only; (repeat' split) <;> simp
@[simp] theorem Dev.raise0_arr (d : Dev) (b n : Nat) : (d.raise0 b n).arr = d.arr := by
  unfold Dev.raise0; dsimp only; (repeat' split) <;> simp
@[simp] theorem Dev.raise0_cel (d : Dev) (b n : Nat) : (d.raise0 b n).cel = d.cel := by
  unfold Dev.raise0; dsimp only; (repeat' split) <;> simp
@[simp] theorem Dev.raise0_mbx (d : Dev) (b n : Nat) : (d.raise0 b n).mbx = d.mbx := by
  unfold Dev.raise0; dsimp only; (repeat' split) <;> simp
@[simp] theorem Dev.raise0_lnk (d : Dev) (b n : Nat) : (d.raise0 b n).lnk = d.lnk := by
  unfold Dev.raise0; dsimp only; (repeat' split) <;> simp
@[simp] theorem Dev.raise0_rtr (d : Dev) (b n : Nat) : (d.raise0 b n).rtr = d.rtr := by
  unfold Dev.raise0; dsimp only; (repeat' split) <;> simp
@[simp] theorem Dev.raise0_opt (d : Dev) (b n : Nat) : (d.raise0 b n).opt = d.opt := by
  unfold Dev.raise0; dsimp only; (repeat' split) <;> simp
@[simp] theorem Dev.raise0_optGen (d : Dev) (b n : Nat) : (d.raise0 b n).optGen = d.optGen := by
  unfold Dev.raise0; dsimp only; (repeat' split) <;> simp
@[simp] theorem Dev.raise0_optSince (d : Dev) (b n : Nat) : (d.raise0 b n).optSince = d.optSince := by
  unfold Dev.raise0; dsimp only; (repeat' split) <;> simp
@[simp] theorem Dev.raise0_col (d : Dev) (b n : Nat) : (d.raise0 b n).col = d.col := by
  unfold Dev.raise0; dsimp only; (repeat' split) <;> simp
@[simp] theorem Dev.raise0_agt (d : Dev) (b n : Nat) : (d.raise0 b n).agt = d.agt := by
  unfold Dev.raise0; dsimp only; (repeat' split) <;> simp
@[simp] theorem Dev.raise0_bel (d : Dev) (b n : Nat) : (d.raise0 b n).bel = d.bel := by
  unfold Dev.raise0; dsimp only; (repeat' split) <;> simp
@[simp] theorem Dev.raise0_mgr (d : Dev) (b n : Nat) : (d.raise0 b n).mgr = d.mgr := by
  unfold Dev.raise0; dsimp only; (repeat' split) <;> simp
@[simp] theorem Dev.raise0_host (d : Dev) (b n : Nat) : (d.raise0 b n).host = d.host := by
  unfold Dev.raise0; dsimp only; (repeat' split) <;> simp
@[simp] theorem Dev.raise0_pwr (d : Dev) (b n : Nat) : (d.raise0 b n).pwr = d.pwr := by
  unfold Dev.raise0; dsimp only; (repeat' split) <;> simp
@[simp] theorem Dev.raise0_sec (d : Dev) (b n : Nat) : (d.raise0 b n).sec = d.sec := by
  unfold Dev.raise0; dsimp only; (repeat' split) <;> simp
@[simp] theorem Dev.raise0_msr (d : Dev) (b n : Nat) : (d.raise0 b n).msr = d.msr := by
  unfold Dev.raise0; dsimp only; (repeat' split) <;> simp

@[simp] theorem Dev.append_clk (d : Dev) (k o c : Nat) (x : List Byte) : (d.append k o c x).clk = d.clk := by
  unfold Dev.append Dev.enqueue; dsimp only; (repeat' split) <;> simp
@[simp] theorem Dev.append_free (d : Dev) (k o c : Nat) (x : List Byte) : (d.append k o c x).free = d.free := by
  unfold Dev.append Dev.enqueue; dsimp only; (repeat' split) <;> simp
@[simp] theorem Dev.append_out (d : Dev) (k o c : Nat) (x : List Byte) : (d.append k o c x).out = d.out := by
  unfold Dev.append Dev.enqueue; dsimp only; (repeat' split) <;> simp
@[simp] theorem Dev.append_stopped (d : Dev) (k o c : Nat) (x : List Byte) : (d.append k o c x).stopped = d.stopped := by
  unfold Dev.append Dev.enqueue; dsimp only; (repeat' split) <;> simp
@[simp] theorem Dev.append_powered (d : Dev) (k o c : Nat) (x : List Byte) : (d.append k o c x).powered = d.powered := by
  unfold Dev.append Dev.enqueue; dsimp only; (repeat' split) <;> simp
@[simp] theorem Dev.append_acc (d : Dev) (k o c : Nat) (x : List Byte) : (d.append k o c x).acc = d.acc := by
  unfold Dev.append Dev.enqueue; dsimp only; (repeat' split) <;> simp
@[simp] theorem Dev.append_hall (d : Dev) (k o c : Nat) (x : List Byte) : (d.append k o c x).hall = d.hall := by
  unfold Dev.append Dev.enqueue; dsimp only; (repeat' split) <;> simp
@[simp] theorem Dev.append_gddr (d : Dev) (k o c : Nat) (x : List Byte) : (d.append k o c x).gddr = d.gddr := by
  unfold Dev.append Dev.enqueue; dsimp only; (repeat' split) <;> simp
@[simp] theorem Dev.append_tiles (d : Dev) (k o c : Nat) (x : List Byte) : (d.append k o c x).tiles = d.tiles := by
  unfold Dev.append Dev.enqueue; dsimp only; (repeat' split) <;> simp
@[simp] theorem Dev.append_arr (d : Dev) (k o c : Nat) (x : List Byte) : (d.append k o c x).arr = d.arr := by
  unfold Dev.append Dev.enqueue; dsimp only; (repeat' split) <;> simp
@[simp] theorem Dev.append_cel (d : Dev) (k o c : Nat) (x : List Byte) : (d.append k o c x).cel = d.cel := by
  unfold Dev.append Dev.enqueue; dsimp only; (repeat' split) <;> simp
@[simp] theorem Dev.append_mbx (d : Dev) (k o c : Nat) (x : List Byte) : (d.append k o c x).mbx = d.mbx := by
  unfold Dev.append Dev.enqueue; dsimp only; (repeat' split) <;> simp
@[simp] theorem Dev.append_lnk (d : Dev) (k o c : Nat) (x : List Byte) : (d.append k o c x).lnk = d.lnk := by
  unfold Dev.append Dev.enqueue; dsimp only; (repeat' split) <;> simp
@[simp] theorem Dev.append_rtr (d : Dev) (k o c : Nat) (x : List Byte) : (d.append k o c x).rtr = d.rtr := by
  unfold Dev.append Dev.enqueue; dsimp only; (repeat' split) <;> simp
@[simp] theorem Dev.append_opt (d : Dev) (k o c : Nat) (x : List Byte) : (d.append k o c x).opt = d.opt := by
  unfold Dev.append Dev.enqueue; dsimp only; (repeat' split) <;> simp
@[simp] theorem Dev.append_optGen (d : Dev) (k o c : Nat) (x : List Byte) : (d.append k o c x).optGen = d.optGen := by
  unfold Dev.append Dev.enqueue; dsimp only; (repeat' split) <;> simp
@[simp] theorem Dev.append_optSince (d : Dev) (k o c : Nat) (x : List Byte) : (d.append k o c x).optSince = d.optSince := by
  unfold Dev.append Dev.enqueue; dsimp only; (repeat' split) <;> simp
@[simp] theorem Dev.append_col (d : Dev) (k o c : Nat) (x : List Byte) : (d.append k o c x).col = d.col := by
  unfold Dev.append Dev.enqueue; dsimp only; (repeat' split) <;> simp
@[simp] theorem Dev.append_agt (d : Dev) (k o c : Nat) (x : List Byte) : (d.append k o c x).agt = d.agt := by
  unfold Dev.append Dev.enqueue; dsimp only; (repeat' split) <;> simp
@[simp] theorem Dev.append_bel (d : Dev) (k o c : Nat) (x : List Byte) : (d.append k o c x).bel = d.bel := by
  unfold Dev.append Dev.enqueue; dsimp only; (repeat' split) <;> simp
@[simp] theorem Dev.append_mgr (d : Dev) (k o c : Nat) (x : List Byte) : (d.append k o c x).mgr = d.mgr := by
  unfold Dev.append Dev.enqueue; dsimp only; (repeat' split) <;> simp
@[simp] theorem Dev.append_host (d : Dev) (k o c : Nat) (x : List Byte) : (d.append k o c x).host = d.host := by
  unfold Dev.append Dev.enqueue; dsimp only; (repeat' split) <;> simp
@[simp] theorem Dev.append_pwr (d : Dev) (k o c : Nat) (x : List Byte) : (d.append k o c x).pwr = d.pwr := by
  unfold Dev.append Dev.enqueue; dsimp only; (repeat' split) <;> simp
@[simp] theorem Dev.append_sec (d : Dev) (k o c : Nat) (x : List Byte) : (d.append k o c x).sec = d.sec := by
  unfold Dev.append Dev.enqueue; dsimp only; (repeat' split) <;> simp
@[simp] theorem Dev.append_msr (d : Dev) (k o c : Nat) (x : List Byte) : (d.append k o c x).msr = d.msr := by
  unfold Dev.append Dev.enqueue; dsimp only; (repeat' split) <;> simp

@[simp] theorem Dev.raise_clk (d : Dev) (b n : Nat) : (d.raise b n).clk = d.clk := by
  unfold Dev.raise; dsimp only; (repeat' split) <;> simp
@[simp] theorem Dev.raise_free (d : Dev) (b n : Nat) : (d.raise b n).free = d.free := by
  unfold Dev.raise; dsimp only; (repeat' split) <;> simp
@[simp] theorem Dev.raise_out (d : Dev) (b n : Nat) : (d.raise b n).out = d.out := by
  unfold Dev.raise; dsimp only; (repeat' split) <;> simp
@[simp] theorem Dev.raise_stopped (d : Dev) (b n : Nat) : (d.raise b n).stopped = d.stopped := by
  unfold Dev.raise; dsimp only; (repeat' split) <;> simp
@[simp] theorem Dev.raise_powered (d : Dev) (b n : Nat) : (d.raise b n).powered = d.powered := by
  unfold Dev.raise; dsimp only; (repeat' split) <;> simp
@[simp] theorem Dev.raise_acc (d : Dev) (b n : Nat) : (d.raise b n).acc = d.acc := by
  unfold Dev.raise; dsimp only; (repeat' split) <;> simp
@[simp] theorem Dev.raise_hall (d : Dev) (b n : Nat) : (d.raise b n).hall = d.hall := by
  unfold Dev.raise; dsimp only; (repeat' split) <;> simp
@[simp] theorem Dev.raise_gddr (d : Dev) (b n : Nat) : (d.raise b n).gddr = d.gddr := by
  unfold Dev.raise; dsimp only; (repeat' split) <;> simp
@[simp] theorem Dev.raise_tiles (d : Dev) (b n : Nat) : (d.raise b n).tiles = d.tiles := by
  unfold Dev.raise; dsimp only; (repeat' split) <;> simp
@[simp] theorem Dev.raise_arr (d : Dev) (b n : Nat) : (d.raise b n).arr = d.arr := by
  unfold Dev.raise; dsimp only; (repeat' split) <;> simp
@[simp] theorem Dev.raise_cel (d : Dev) (b n : Nat) : (d.raise b n).cel = d.cel := by
  unfold Dev.raise; dsimp only; (repeat' split) <;> simp
@[simp] theorem Dev.raise_mbx (d : Dev) (b n : Nat) : (d.raise b n).mbx = d.mbx := by
  unfold Dev.raise; dsimp only; (repeat' split) <;> simp
@[simp] theorem Dev.raise_lnk (d : Dev) (b n : Nat) : (d.raise b n).lnk = d.lnk := by
  unfold Dev.raise; dsimp only; (repeat' split) <;> simp
@[simp] theorem Dev.raise_rtr (d : Dev) (b n : Nat) : (d.raise b n).rtr = d.rtr := by
  unfold Dev.raise; dsimp only; (repeat' split) <;> simp
@[simp] theorem Dev.raise_opt (d : Dev) (b n : Nat) : (d.raise b n).opt = d.opt := by
  unfold Dev.raise; dsimp only; (repeat' split) <;> simp
@[simp] theorem Dev.raise_optGen (d : Dev) (b n : Nat) : (d.raise b n).optGen = d.optGen := by
  unfold Dev.raise; dsimp only; (repeat' split) <;> simp
@[simp] theorem Dev.raise_optSince (d : Dev) (b n : Nat) : (d.raise b n).optSince = d.optSince := by
  unfold Dev.raise; dsimp only; (repeat' split) <;> simp
@[simp] theorem Dev.raise_col (d : Dev) (b n : Nat) : (d.raise b n).col = d.col := by
  unfold Dev.raise; dsimp only; (repeat' split) <;> simp
@[simp] theorem Dev.raise_agt (d : Dev) (b n : Nat) : (d.raise b n).agt = d.agt := by
  unfold Dev.raise; dsimp only; (repeat' split) <;> simp
@[simp] theorem Dev.raise_bel (d : Dev) (b n : Nat) : (d.raise b n).bel = d.bel := by
  unfold Dev.raise; dsimp only; (repeat' split) <;> simp
@[simp] theorem Dev.raise_mgr (d : Dev) (b n : Nat) : (d.raise b n).mgr = d.mgr := by
  unfold Dev.raise; dsimp only; (repeat' split) <;> simp
@[simp] theorem Dev.raise_host (d : Dev) (b n : Nat) : (d.raise b n).host = d.host := by
  unfold Dev.raise; dsimp only; (repeat' split) <;> simp
@[simp] theorem Dev.raise_pwr (d : Dev) (b n : Nat) : (d.raise b n).pwr = d.pwr := by
  unfold Dev.raise; dsimp only; (repeat' split) <;> simp
@[simp] theorem Dev.raise_sec (d : Dev) (b n : Nat) : (d.raise b n).sec = d.sec := by
  unfold Dev.raise; dsimp only; (repeat' split) <;> simp
@[simp] theorem Dev.raise_msr (d : Dev) (b n : Nat) : (d.raise b n).msr = d.msr := by
  unfold Dev.raise; dsimp only; (repeat' split) <;> simp

@[simp] theorem Dev.appendHeld_clk (d : Dev) (k o c : Nat) (x : List Byte) : (d.appendHeld k o c x).clk = d.clk := by
  unfold Dev.appendHeld Dev.enqueue; dsimp only; (repeat' split) <;> simp
@[simp] theorem Dev.appendHeld_free (d : Dev) (k o c : Nat) (x : List Byte) : (d.appendHeld k o c x).free = d.free := by
  unfold Dev.appendHeld Dev.enqueue; dsimp only; (repeat' split) <;> simp
@[simp] theorem Dev.appendHeld_out (d : Dev) (k o c : Nat) (x : List Byte) : (d.appendHeld k o c x).out = d.out := by
  unfold Dev.appendHeld Dev.enqueue; dsimp only; (repeat' split) <;> simp
@[simp] theorem Dev.appendHeld_stopped (d : Dev) (k o c : Nat) (x : List Byte) : (d.appendHeld k o c x).stopped = d.stopped := by
  unfold Dev.appendHeld Dev.enqueue; dsimp only; (repeat' split) <;> simp
@[simp] theorem Dev.appendHeld_powered (d : Dev) (k o c : Nat) (x : List Byte) : (d.appendHeld k o c x).powered = d.powered := by
  unfold Dev.appendHeld Dev.enqueue; dsimp only; (repeat' split) <;> simp
@[simp] theorem Dev.appendHeld_acc (d : Dev) (k o c : Nat) (x : List Byte) : (d.appendHeld k o c x).acc = d.acc := by
  unfold Dev.appendHeld Dev.enqueue; dsimp only; (repeat' split) <;> simp
@[simp] theorem Dev.appendHeld_hall (d : Dev) (k o c : Nat) (x : List Byte) : (d.appendHeld k o c x).hall = d.hall := by
  unfold Dev.appendHeld Dev.enqueue; dsimp only; (repeat' split) <;> simp
@[simp] theorem Dev.appendHeld_gddr (d : Dev) (k o c : Nat) (x : List Byte) : (d.appendHeld k o c x).gddr = d.gddr := by
  unfold Dev.appendHeld Dev.enqueue; dsimp only; (repeat' split) <;> simp
@[simp] theorem Dev.appendHeld_tiles (d : Dev) (k o c : Nat) (x : List Byte) : (d.appendHeld k o c x).tiles = d.tiles := by
  unfold Dev.appendHeld Dev.enqueue; dsimp only; (repeat' split) <;> simp
@[simp] theorem Dev.appendHeld_arr (d : Dev) (k o c : Nat) (x : List Byte) : (d.appendHeld k o c x).arr = d.arr := by
  unfold Dev.appendHeld Dev.enqueue; dsimp only; (repeat' split) <;> simp
@[simp] theorem Dev.appendHeld_cel (d : Dev) (k o c : Nat) (x : List Byte) : (d.appendHeld k o c x).cel = d.cel := by
  unfold Dev.appendHeld Dev.enqueue; dsimp only; (repeat' split) <;> simp
@[simp] theorem Dev.appendHeld_mbx (d : Dev) (k o c : Nat) (x : List Byte) : (d.appendHeld k o c x).mbx = d.mbx := by
  unfold Dev.appendHeld Dev.enqueue; dsimp only; (repeat' split) <;> simp
@[simp] theorem Dev.appendHeld_lnk (d : Dev) (k o c : Nat) (x : List Byte) : (d.appendHeld k o c x).lnk = d.lnk := by
  unfold Dev.appendHeld Dev.enqueue; dsimp only; (repeat' split) <;> simp
@[simp] theorem Dev.appendHeld_rtr (d : Dev) (k o c : Nat) (x : List Byte) : (d.appendHeld k o c x).rtr = d.rtr := by
  unfold Dev.appendHeld Dev.enqueue; dsimp only; (repeat' split) <;> simp
@[simp] theorem Dev.appendHeld_opt (d : Dev) (k o c : Nat) (x : List Byte) : (d.appendHeld k o c x).opt = d.opt := by
  unfold Dev.appendHeld Dev.enqueue; dsimp only; (repeat' split) <;> simp
@[simp] theorem Dev.appendHeld_optGen (d : Dev) (k o c : Nat) (x : List Byte) : (d.appendHeld k o c x).optGen = d.optGen := by
  unfold Dev.appendHeld Dev.enqueue; dsimp only; (repeat' split) <;> simp
@[simp] theorem Dev.appendHeld_optSince (d : Dev) (k o c : Nat) (x : List Byte) : (d.appendHeld k o c x).optSince = d.optSince := by
  unfold Dev.appendHeld Dev.enqueue; dsimp only; (repeat' split) <;> simp
@[simp] theorem Dev.appendHeld_col (d : Dev) (k o c : Nat) (x : List Byte) : (d.appendHeld k o c x).col = d.col := by
  unfold Dev.appendHeld Dev.enqueue; dsimp only; (repeat' split) <;> simp
@[simp] theorem Dev.appendHeld_agt (d : Dev) (k o c : Nat) (x : List Byte) : (d.appendHeld k o c x).agt = d.agt := by
  unfold Dev.appendHeld Dev.enqueue; dsimp only; (repeat' split) <;> simp
@[simp] theorem Dev.appendHeld_bel (d : Dev) (k o c : Nat) (x : List Byte) : (d.appendHeld k o c x).bel = d.bel := by
  unfold Dev.appendHeld Dev.enqueue; dsimp only; (repeat' split) <;> simp
@[simp] theorem Dev.appendHeld_mgr (d : Dev) (k o c : Nat) (x : List Byte) : (d.appendHeld k o c x).mgr = d.mgr := by
  unfold Dev.appendHeld Dev.enqueue; dsimp only; (repeat' split) <;> simp
@[simp] theorem Dev.appendHeld_host (d : Dev) (k o c : Nat) (x : List Byte) : (d.appendHeld k o c x).host = d.host := by
  unfold Dev.appendHeld Dev.enqueue; dsimp only; (repeat' split) <;> simp
@[simp] theorem Dev.appendHeld_pwr (d : Dev) (k o c : Nat) (x : List Byte) : (d.appendHeld k o c x).pwr = d.pwr := by
  unfold Dev.appendHeld Dev.enqueue; dsimp only; (repeat' split) <;> simp
@[simp] theorem Dev.appendHeld_sec (d : Dev) (k o c : Nat) (x : List Byte) : (d.appendHeld k o c x).sec = d.sec := by
  unfold Dev.appendHeld Dev.enqueue; dsimp only; (repeat' split) <;> simp
@[simp] theorem Dev.appendHeld_msr (d : Dev) (k o c : Nat) (x : List Byte) : (d.appendHeld k o c x).msr = d.msr := by
  unfold Dev.appendHeld Dev.enqueue; dsimp only; (repeat' split) <;> simp

/-! ## Registers of an updated record -/

/-- A register depends on the registers alone. -/
@[simp] theorem Dev.rd_mk (f0 f1 f2 f3 f4 f5 f6 f7 f8 f9 f10 f11 f12 f13 f14 f15 f16 f17 f18 f19 f20 f21 f22 f23 f24 f25 f26 f27 k) : (Dev.mk f0 f1 f2 f3 f4 f5 f6 f7 f8 f9 f10 f11 f12 f13 f14 f15 f16 f17 f18 f19 f20 f21 f22 f23 f24 f25 f26 f27).rd k = (SMap.get regDefault f2 k).toNat := rfl
@[simp] theorem Dev.get_regs (d : Dev) (k : Nat) : (SMap.get regDefault d.regs k).toNat = d.rd k := rfl

/-- The registers that an event may write: ERR_STATUS and ERR_COUNT of a page, and those that a full toggle count writes. -/
def eventKey (k : Nat) : Bool :=
  decide (k % 0x1000 = 0x020 ∨ k % 0x1000 = 0x030 ∨ k = Reg.TOC_OVERRUN_LAST ∨ k = Reg.REC_LOST_COUNT ∨ k = Reg.REC_LOST_PENDING)

theorem Dev.raise0_rd (d : Dev) (b n : Nat) {k : Nat} (h : eventKey k = false) : (d.raise0 b n).rd k = d.rd k := by
  unfold Dev.raise0
  split
  · show (((d.wr _ _).count _)).rd k = _
    rw [Dev.rd_count_ne, Dev.rd_wr_ne] <;> (simp only [eventKey, rkey, decide_eq_false_iff_not] at *; omega)
  · rfl

theorem Dev.append_rd (d : Dev) (kind o c : Nat) (x : List Byte) {k : Nat} (h : eventKey k = false) : (d.append kind o c x).rd k = d.rd k := by
  unfold Dev.append
  split
  · rfl
  · split
    · rfl
    · have hc : ((d.count Reg.REC_LOST_COUNT).count Reg.REC_LOST_PENDING).rd k = d.rd k := by
        rw [Dev.rd_count_ne, Dev.rd_count_ne] <;> (simp only [eventKey, decide_eq_false_iff_not] at h; omega)
      dsimp only
      split
      · exact hc
      · rw [Dev.raise0_rd _ _ _ h]; exact hc

/-- An event leaves every register but those of `eventKey` as it was. -/
theorem Dev.raise_rd (d : Dev) (b n : Nat) {k : Nat} (h : eventKey k = false) : (d.raise b n).rd k = d.rd k := by
  unfold Dev.raise
  split
  · have hw (v : Nat) : ((d.raise0 b n).wr Reg.TOC_OVERRUN_LAST v).rd k = d.rd k := by
      rw [Dev.rd_wr_ne, Dev.raise0_rd _ _ _ h]
      simp only [eventKey, decide_eq_false_iff_not] at h; omega
    dsimp only
    rw [Dev.append_rd _ _ _ _ _ h]
    split
    · exact hw _
    · rw [Dev.raise0_rd _ _ _ h]; exact hw _
  · exact Dev.raise0_rd d b n h

end Sys2Proof.Machine
end

