-- ==== Sys2Proof/Laws/Frame.lean ====
section
/-! SUPPORT. Frames compose: what leaves a part unchanged twice leaves it unchanged, and the named operations leave all but what they
name. -/

namespace Sys2Proof.Machine

theorem Part.same_rfl (s : State) (p : Part) : p.same s s := by cases p <;> rfl

theorem Part.same_trans {s t u : State} {p : Part} (h : p.same s t) (k : p.same t u) : p.same s u := by
  cases p <;> exact Eq.trans k h

theorem framed_rfl (parts : List Part) (pages : List Nat) (below : Nat) (s : State) : framed parts pages below s s :=
  ⟨rfl, fun p _ => p.same_rfl s, fun _ _ _ => rfl⟩

theorem framed_trans {parts : List Part} {pages : List Nat} {below : Nat} {s t u : State} (h : framed parts pages below s t)
    (k : framed parts pages below t u) : framed parts pages below s u :=
  ⟨k.1.trans h.1, fun p hp => Part.same_trans (h.2.1 p hp) (k.2.1 p hp), fun n hn hp => (k.2.2 n hn hp).trans (h.2.2 n hn hp)⟩

theorem framed_mono {parts parts' : List Part} {pages pages' : List Nat} {below below' : Nat} {s t : State}
    (h : framed parts pages below s t) (hp : parts ⊆ parts') (hg : pages ⊆ pages') (hb : below' ≤ below) :
    framed parts' pages' below' s t :=
  ⟨h.1, fun p hn => h.2.1 p (fun x => hn (hp x)),
    fun k hk hn => h.2.2 k (Nat.lt_of_lt_of_le hk (Nat.mul_le_mul_right _ hb)) (fun x => hn (hg x))⟩

end Sys2Proof.Machine
end

