-- ==== Sys2Proof/Laws/Ops.lean ====
section
/-! SUPPORT. What the shared operations do: an event sets its ERR_STATUS bit and clears none; a management access that passes its
checks takes effect and is answered. -/

namespace Sys2Proof.Machine

/-! ## Bits and events -/

theorem setBit_testBit (n i j : Nat) : (setBit n i).testBit j = (n.testBit j || decide (i = j)) := by
  simp only [setBit, Nat.testBit_or, Nat.one_shiftLeft, Nat.testBit_two_pow]

theorem mod_testBit {n k i : Nat} (h : i < k) : (n % 2 ^ k).testBit i = n.testBit i := by simp [Nat.testBit_mod_two_pow, h]

/-- An event sets its ERR_STATUS bit and clears none. -/
theorem Dev.raise0_status (d : Dev) (b n c m : Nat) (hm : m < 32) (h : (d.rd (rkey c 0x020)).testBit m = true) :
    ((d.raise0 b n).rd (rkey c 0x020)).testBit m = true := by
  unfold Dev.raise0
  split
  · show (((d.wr (rkey b 0x020) _).count (rkey b 0x030)).rd (rkey c 0x020)).testBit m = true
    rw [Dev.rd_count_ne _ (by simp only [rkey]; omega)]
    by_cases hb : c = b
    · subst hb; rw [Dev.rd_wr_same, mod_testBit hm, setBit_testBit, h]; rfl
    · rw [Dev.rd_wr_ne _ _ (by simp only [rkey]; omega)]; exact h
  · exact h

theorem Dev.raise0_sets (d : Dev) (b n : Nat) (hn : n < 32) (h : d.domainOn b = true) :
    ((d.raise0 b n).rd (rkey b 0x020)).testBit n = true := by
  unfold Dev.raise0
  rw [if_pos h]
  show (((d.wr (rkey b 0x020) _).count (rkey b 0x030)).rd (rkey b 0x020)).testBit n = true
  rw [Dev.rd_count_ne _ (by simp only [rkey]; omega), Dev.rd_wr_same, mod_testBit hn, setBit_testBit]
  simp

theorem Dev.append_status (d : Dev) (k o c : Nat) (x : List Byte) (b m : Nat) (hm : m < 32)
    (h : (d.rd (rkey b 0x020)).testBit m = true) : ((d.append k o c x).rd (rkey b 0x020)).testBit m = true := by
  unfold Dev.append
  split
  · exact h
  · split
    · exact h
    · have hc : ((d.count Reg.REC_LOST_COUNT).count Reg.REC_LOST_PENDING).rd (rkey b 0x020) = d.rd (rkey b 0x020) := by
        rw [Dev.rd_count_ne, Dev.rd_count_ne] <;> simp only [rkey, Reg.REC_LOST_COUNT, Reg.REC_LOST_PENDING] <;> omega
      dsimp only
      split
      · exact hc ▸ h
      · exact Dev.raise0_status _ _ _ _ _ hm (hc ▸ h)

/-- An event of a powered page sets its ERR_STATUS bit (R48). -/
theorem Dev.raise_sets (d : Dev) (b n : Nat) (hn : n < 32) (h : d.domainOn b = true) :
    ((d.raise b n).rd (rkey b 0x020)).testBit n = true := by
  unfold Dev.raise
  split
  · have hw (v : Nat) : (((d.raise0 b n).wr Reg.TOC_OVERRUN_LAST v).rd (rkey b 0x020)).testBit n = true := by
      rw [Dev.rd_wr_ne _ _ (by simp only [rkey, Reg.TOC_OVERRUN_LAST]; omega)]
      exact Dev.raise0_sets d b n hn h
    refine Dev.append_status _ _ _ _ _ _ _ hn ?_
    split
    · exact hw _
    · exact Dev.raise0_status _ _ _ _ _ hn (hw _)
  · exact Dev.raise0_sets d b n hn h

/-- An event clears no ERR_STATUS bit. -/
theorem Dev.raise_status (d : Dev) (b n c m : Nat) (hm : m < 32) (h : (d.rd (rkey c 0x020)).testBit m = true) :
    ((d.raise b n).rd (rkey c 0x020)).testBit m = true := by
  unfold Dev.raise
  split
  · have hw (v : Nat) : (((d.raise0 b n).wr Reg.TOC_OVERRUN_LAST v).rd (rkey c 0x020)).testBit m = true := by
      rw [Dev.rd_wr_ne _ _ (by simp only [rkey, Reg.TOC_OVERRUN_LAST]; omega)]
      exact Dev.raise0_status _ _ _ _ _ hm h
    refine Dev.append_status _ _ _ _ _ _ _ hm ?_
    split
    · exact hw _
    · exact Dev.raise0_status _ _ _ _ _ hm (hw _)
  · exact Dev.raise0_status _ _ _ _ _ hm h

theorem Dev.raise_err (d : Dev) (b n : Nat) (hn : n < 32) (h : d.domainOn b = true) : (d.raise b n).err b n = true :=
  Dev.raise_sets d b n hn h
theorem Dev.raise_err_mono (d : Dev) (b n c m : Nat) (hm : m < 32) (h : d.err c m = true) : (d.raise b n).err c m = true :=
  Dev.raise_status d b n c m hm h

/-- Power is as before, so the same pages answer. -/
theorem Dev.domainOn_congr {d e : Dev} (h : e.powered = d.powered) (b : Nat) : e.domainOn b = d.domainOn b := by
  unfold Dev.domainOn; rw [h]
@[simp] theorem Dev.domainOn_wr (d : Dev) (k v b : Nat) : (d.wr k v).domainOn b = d.domainOn b := rfl
@[simp] theorem Dev.domainOn_countBy (d : Dev) (k n b : Nat) : (d.countBy k n).domainOn b = d.domainOn b := rfl
@[simp] theorem Dev.domainOn_count (d : Dev) (k b : Nat) : (d.count k).domainOn b = d.domainOn b := rfl
@[simp] theorem Dev.domainOn_send (d : Dev) (x : Sent) (b : Nat) : (d.send x).domainOn b = d.domainOn b := rfl
@[simp] theorem Dev.domainOn_raise (d : Dev) (k n b : Nat) : (d.raise k n).domainOn b = d.domainOn b := Dev.domainOn_congr (by simp) b
@[simp] theorem Dev.domainOn_append (d : Dev) (k o c : Nat) (x : List Byte) (b : Nat) : (d.append k o c x).domainOn b = d.domainOn b :=
  Dev.domainOn_congr (by simp) b

/-! ## Management accesses -/
/-- A write that passes its checks and does not wait for memory takes effect and completes at its master. -/
theorem mgmtWrite_taken {master addr width v : Nat} {s : State} (effect : State → Nat × State) (h : writeTaken s.dev master addr width v)
    (hw : (effect s).1 ≠ WAITS) :
    mgmtWrite master addr width v effect s = (effect s).2.onDev (fun d => d.complete master addr (effect s).1 0) := by
  have h1 := Bool.or_eq_false_iff.mp h.2
  have h2 := Bool.or_eq_false_iff.mp h1.2
  simp [mgmtWrite, issue, h.1, h1.1, h2.1, h2.2, hw]

theorem mgmtRead_taken {master addr width : Nat} {s : State} (effect : State → Nat × Nat × State) (h : readTaken s.dev master addr width) :
    mgmtRead master addr width effect s = (effect s).2.2.onDev (fun d => d.complete master addr (effect s).1 (effect s).2.1) := by
  have h1 := Bool.or_eq_false_iff.mp h.2
  have h2 := Bool.or_eq_false_iff.mp h1.2
  simp [mgmtRead, issue, h.1, h1.1, h2.1, h2.2]

/-- An access that completes OK is answered, and writes its master's status alone. -/
theorem Dev.complete_ok_out (d : Dev) (master addr data : Nat) :
    (d.complete master addr OK data).out = d.out ++ [.access master addr OK data] := by
  simp [Dev.complete, Dev.settleStatus, isRefusal]

theorem Dev.complete_ok_rd (d : Dev) (master addr data k : Nat) (h : k < 2 ^ 24) :
    (d.complete master addr OK data).rd k = d.rd k := by
  exact Dev.rd_wr_ne _ _ (by simp only [bankKey]; omega)

/-! ## What waits -/

/-- No flushed operation waits for its completion record where none is dead. -/
theorem flushDead_none (n : Nat) (s : State) (h : s.dev.arr.queue.all (fun op => !op.dead) = true) : flushDead n s = s := by
  cases n with
  | zero => rfl
  | succ n =>
    simp only [flushDead]
    split
    · next op rest _ _ hq =>
      rw [hq, List.all_cons, Bool.and_eq_true] at h
      simp [by simpa using h.1]
    · rfl

/-- Where nothing waits, nothing goes on. -/
theorem wake_asleep (s : State) (h : asleep s.dev) : s.wake = s := by
  obtain ⟨h1, h2, h3, h4⟩ := h
  have hr : releaseHeld s = s := by simp [releaseHeld, h1]
  have he : s.colEndsGo = s := by
    obtain ⟨m, d, p⟩ := s
    simp only [State.colEndsGo, State.onDev] at *
    rw [h3]; simp only [colEndsWrite]; rw [← h3]
  have hg : s.rdmaGo = s := by
    obtain ⟨m, d, p⟩ := s
    simp only [State.rdmaGo, State.onDev] at *
    rw [h4]; simp only [rdmaProceed]; rw [← h4]
  simp only [State.wake, hr, flushDead_none _ _ h2, he, hg]

theorem settle_quiet (s : State) (h : quiet s.dev) : s.settle = s := by
  simp only [State.settle, wake_asleep s h.2, h.1, List.length_nil, replayAccesses]

end Sys2Proof.Machine
end

