-- ==== Sys2Proof/Laws/Identity.lean ====
section
/-! SUPPORT. The bytes of a certificate read back as its fields, and two modules of one deployment accept each other's chains. -/

namespace Sys2Proof.Machine

/-! ## Fields of joined bytes -/

@[simp] theorem leBytes_length (k n : Nat) : (leBytes k n).length = k := by
  induction k generalizing n with
  | zero => rfl
  | succ k ih => simp [leBytes, ih]

theorem ofLE_leBytes (k n : Nat) : ofLE (leBytes k n) = n % 256 ^ k := by
  induction k generalizing n with
  | zero => simp [leBytes, ofLE, Nat.mod_one]
  | succ k ih =>
    have h : 256 ^ (k + 1) = 256 * 256 ^ k := by rw [Nat.pow_succ, Nat.mul_comm]
    rw [leBytes, ofLE, ih, BitVec.toNat_ofNat, h, Nat.mod_mul]

theorem slice_skip {xs : List Byte} {off : Nat} (ys : List Byte) (n : Nat) (h : xs.length ≤ off) :
    slice (xs ++ ys) off n = slice ys (off - xs.length) n := by
  simp [slice, List.drop_append, List.drop_eq_nil_of_le h]

theorem slice_head {xs : List Byte} {n : Nat} (ys : List Byte) (h : xs.length = n) : slice (xs ++ ys) 0 n = xs := by
  subst h; simp [slice]

theorem slice_left {xs : List Byte} {off n : Nat} (ys : List Byte) (h : off + n ≤ xs.length) :
    slice (xs ++ ys) off n = slice xs off n := by
  have h1 : off ≤ xs.length := by omega
  have h2 : n ≤ (xs.drop off).length := by simp; omega
  simp only [slice, List.drop_append_of_le_length h1, List.take_append_of_le_length h2]

theorem slice_all {xs : List Byte} {n : Nat} (h : xs.length = n) : slice xs 0 n = xs := by
  subst h; simp [slice]

/-! ## Certificates -/

/-- The key of a certificate, as its bytes. -/
abbrev certKey (pub : Nat) : List Byte := leBytes 1952 pub

theorem certBytes_fields (role lc issuer serial owner pub boot : Nat) :
    let c := certBytes role lc issuer serial owner pub boot
    c.length = 5325 ∧ field c 0 4 = 0x54434E4C ∧ field c 4 1 = role % 256 ∧ field c 6 1 = lc % 256 ∧ field c 7 1 = 0 ∧
      certSubject c = Config.shake256 (certKey pub) % 2 ^ 64 ∧ certIssuer c = issuer % 2 ^ 64 ∧ field c 24 8 = serial % 2 ^ 64 ∧
      field c 32 32 = owner % 2 ^ 256 ∧ slice c 64 1952 = certKey pub := by
  refine ⟨by simp [certBytes], ?_⟩
  simp (disch := simp) only [certBytes, certSubject, certIssuer, field, List.append_assoc, slice_skip, slice_head, ofLE_leBytes,
    leBytes_length, List.length_cons, List.length_nil, Nat.reduceAdd, Nat.reduceSub, Nat.zero_add, Nat.sub_self, Nat.reducePow, certKey]
  simp [ofLE]

/-- The chain of a module in another's deployment is accepted in link keying (R422). -/
theorem chainOf_accepted (d : Dev) (serial : Nat) (hl : d.sec.lc = lcDeploy) (hc : d.sec.certs = true) :
    peerAccepted d serial (chainOf d serial) = true := by
  have ho : ownerIdOf d % 2 ^ 256 = ownerIdOf d := by
    simp only [ownerIdOf, ownerSlot]; repeat' split
    all_goals simp
  have hb : bits (lcWord d % 256) 2 0 = 2 := by simp only [lcWord, hl, bits, lcDeploy, Nat.shiftRight_zero]; omega
  have ha := certBytes_fields 6 (lcWord d) (Config.shake256 (certKey (Config.dikPublic (seedOf d))) % 2 ^ 64) serial (ownerIdOf d)
    (Config.akPublic (seedOf d) (d.bel.extension.getD 0) (ownerIdOf d) (lcWord d)) d.sec.akem
  have hi := certBytes_fields 5 0 (Config.shake256 (certKey Config.mfgPublic) % 2 ^ 64) serial 0 (Config.dikPublic (seedOf d)) 0
  have hm := certBytes_fields 2 0 (Config.voheicRoot % 2 ^ 64) 0 0 Config.mfgPublic 0
  simp only [peerAccepted, attChainForm, chainOf, hc, if_true]
  generalize certBytes 6 _ _ _ _ _ _ = a at ha ⊢
  generalize certBytes 5 _ _ _ _ _ _ = i at hi ⊢
  generalize certBytes 2 _ _ _ _ _ _ = m at hm ⊢
  obtain ⟨la, a0, a4, a6, a7, as, ai, a24, a32, ak⟩ := ha
  obtain ⟨li, i0, i4, i6, i7, is, ii, i24, i32, ik⟩ := hi
  obtain ⟨lm, m0, m4, m6, m7, ms, mi, m24, m32, mk⟩ := hm
  have f24 : field (a ++ (i ++ m)) 24 8 = serial % 2 ^ 64 := by rw [field, slice_left _ (by omega), ← field, a24]
  have f6 : field (a ++ (i ++ m)) 6 1 = lcWord d % 256 := by rw [field, slice_left _ (by omega), ← field, a6]
  have f32 : field (a ++ (i ++ m)) 32 32 = ownerIdOf d := by rw [field, slice_left _ (by omega), ← field, a32, ho]
  have sa : slice (a ++ (i ++ m)) 0 5325 = a := slice_head _ la
  have si : slice (a ++ (i ++ m)) 5325 5325 = i := by rw [slice_skip _ _ (by omega), la]; exact slice_head _ li
  have sm : slice (a ++ (i ++ m)) 10650 5325 = m := by
    rw [slice_skip _ _ (by omega), slice_skip _ _ (by omega), la, li]; exact slice_all lm
  simp [sa, si, sm, f24, f6, f32, certForm, la, li, lm, a0, a4, a7, as, ai, a24, ak, i0, i4, i6, i7, is, ii, i24, i32, ik,
    m0, m4, m6, m7, ms, mi, m24, m32, mk, hl, hb, lcPairs]

end Sys2Proof.Machine
end

