-- ==== Sys2Proof/Laws/Memory.lean ====
section
/-! SUPPORT. The memories: bytes stored are read back and no other byte changes; every memory operation keeps the canonical form. -/

namespace Sys2Proof.Machine

theorem upFrom_length (a n : Nat) : (upFrom a n).length = n := by
  induction n generalizing a with
  | zero => rfl
  | succ n ih => simp [upFrom, ih]
theorem gdStore_out (g : List Host.Cell) (a : Nat) (bs : List Byte) (k : Nat) (h : k < a ∨ a + bs.length ≤ k) :
    SMap.get gdDefault (gdStore g a bs) k = SMap.get gdDefault g k := by
  induction bs generalizing g a with
  | nil => rfl
  | cons b bs ih =>
    simp only [List.length_cons] at h
    rw [gdStore, ih _ _ (by omega), SMap.get_put_ne _ _ _ (by omega)]

theorem gdStore_in (g : List Host.Cell) (a : Nat) (bs : List Byte) (i : Nat) (h : i < bs.length) :
    SMap.get gdDefault (gdStore g a bs) (a + i) = bs[i] := by
  induction bs generalizing g a i with
  | nil => simp at h
  | cons b bs ih =>
    cases i with
    | zero => rw [gdStore, gdStore_out _ _ _ _ (by omega)]; simpa using SMap.get_put_same gdDefault g a b
    | succ i =>
      rw [gdStore, show a + (i + 1) = a + 1 + i by omega, ih _ _ _ (by simpa using h)]; rfl

theorem gdStore_wf {g : List Host.Cell} (h : SMap.wf gdDefault g = true) (a : Nat) (bs : List Byte) : SMap.wf gdDefault (gdStore g a bs) = true := by
  induction bs generalizing g a with
  | nil => exact h
  | cons b bs ih => exact ih (SMap.wf_put _ _ _ h) _

theorem gdStore_inside {g : List Host.Cell} {a : Nat} {bs : List Byte} (h : ∀ e ∈ g, (gdWing e.1 1).isSome = true)
    (hb : ∀ i < bs.length, (gdWing (a + i) 1).isSome = true) : ∀ e ∈ gdStore g a bs, (gdWing e.1 1).isSome = true := by
  induction bs generalizing g a with
  | nil => exact h
  | cons b bs ih =>
    refine ih (fun e he => ?_) (fun i hi => ?_)
    · rcases SMap.put_mem _ he with h' | ⟨rfl, _⟩
      · exact h e h'
      · simpa using hb 0 (by simp)
    · rw [show a + 1 + i = a + (i + 1) by omega]; exact hb _ (by simpa using hi)

theorem gdWing_inside {a n i : Nat} (h : (gdWing a n).isSome = true) (hi : i < n) : (gdWing (a + i) 1).isSome = true := by
  unfold gdWing at h ⊢
  split at h
  · rename_i hh
    have hs : gdSize < 2 ^ 34 := by decide
    rw [if_pos]; · rfl
    omega
  · simp at h

theorem Mem.store_wf {m : Mem} (h : m.wf = true) {a : Nat} {bs : List Byte} {n : Nat} (hn : bs.length ≤ n) (ha : (gdWing a n).isSome = true ∨ bs = []) :
    (m.store a bs).wf = true := by
  simp only [Mem.wf, Mem.store, Bool.and_eq_true, List.all_eq_true] at h ⊢
  refine ⟨⟨gdStore_wf h.1.1 a bs, h.1.2⟩, ?_⟩
  rcases ha with ha | rfl
  · exact gdStore_inside h.2 (fun i hi => gdWing_inside ha (by omega))
  · exact h.2

theorem Mem.zero_wf {m : Mem} (h : m.wf = true) (a n : Nat) : (m.zero a n).wf = true := by
  simp only [Mem.wf, Mem.zero, Bool.and_eq_true, List.all_eq_true] at h ⊢
  exact ⟨⟨SMap.wf_erase _ _ h.1.1, h.1.2⟩, fun e he => h.2 e (List.mem_filter.1 he).1⟩

theorem Mem.erase_wf {m : Mem} (h : m.wf = true) (p : Nat → Bool) : ({ m with gd := SMap.erase p m.gd } : Mem).wf = true := by
  simp only [Mem.wf, Bool.and_eq_true, List.all_eq_true] at h ⊢
  exact ⟨⟨SMap.wf_erase _ _ h.1.1, h.1.2⟩, fun e he => h.2 e (List.mem_filter.1 he).1⟩

theorem Mem.eraseCel_wf {m : Mem} (h : m.wf = true) (p : Nat → Bool) : ({ m with cel := SMap.erase p m.cel } : Mem).wf = true := by
  simp only [Mem.wf, Bool.and_eq_true] at h ⊢
  exact ⟨⟨h.1.1, SMap.wf_erase _ _ h.1.2⟩, h.2⟩

theorem Mem.setUnit_wf {m : Mem} (h : m.wf = true) (p u : Nat) (x : CelUnit) : (m.setUnit p u x).wf = true := by
  simp only [Mem.wf, Mem.setUnit, Bool.and_eq_true] at h ⊢
  exact ⟨⟨h.1.1, SMap.wf_put _ _ _ h.1.2⟩, h.2⟩

theorem Mem.undefUnits_wf {m : Mem} (h : m.wf = true) (p : Nat) (us : List Nat) : (m.undefUnits p us).wf = true := by
  induction us generalizing m with
  | nil => exact h
  | cons u us ih => exact ih (Mem.setUnit_wf h p u _)

theorem gdCheck_wing {d : Dev} {u : MemUser} {a n : Nat} (h : gdCheck d u a n = OK) : (gdWing a n).isSome = true ∨ n = 0 := by
  unfold gdCheck at h
  split at h
  · right; assumption
  · split at h
    · cases h
    · rename_i hw; simp [hw]

/-- A write of GDDR7 that answers keeps the memories canonical. -/
theorem gdWriteNow_wf {s : State} (h : s.mem.wf = true) (u : MemUser) (a : Nat) (bs : List Byte) :
    (gdWriteNow s u a bs).2.mem.wf = true := by
  unfold gdWriteNow
  dsimp only
  split
  · exact h
  · split
    · exact h
    · rename_i h1 h2
      have h1 := gdCheck_wing (Decidable.not_not.1 h1)
      refine Mem.store_wf h (n := bs.length) (by simp <;> omega) (.inl ?_)
      rcases h1 with h1 | h1
      · exact h1
      · simp_all

/-- A write of GDDR7 keeps the memories canonical. -/
theorem gdWrite_wf {s : State} (h : s.mem.wf = true) (u : MemUser) (a : Nat) (bs : List Byte) : (gdWrite s u a bs).2.mem.wf = true := by
  unfold gdWrite
  split
  · exact h
  · exact gdWriteNow_wf h u a bs

/-- Memory that answers is read and written at once. -/
theorem gdRead_now {d : Dev} {u : MemUser} {a n : Nat} (h : gdHeld d a n = false) : gdRead d u a n = gdReadNow d u a n := by
  simp [gdRead, h]
theorem gdWrite_now {s : State} {u : MemUser} {a : Nat} {bs : List Byte} (h : gdHeld s.dev a bs.length = false) :
    gdWrite s u a bs = gdWriteNow s u a bs := by
  simp [gdWrite, h]

theorem State.havoc_wf {s : State} (h : s.mem.wf = true) (a n : Nat) : (s.havoc a n).mem.wf = true := by
  unfold State.havoc
  split
  · exact h
  · rename_i hh
    simp only [not_or] at hh
    exact Mem.store_wf h (n := n) (by simp [upFrom_length]) (.inl (by cases hg : gdWing a n <;> simp_all))

end Sys2Proof.Machine
end

