-- ==== Sys2Proof/WellFormed.lean ====
section
/-! DEFINITION. Well-formed commands: operands that their types leave wider than the spec's fields are within those fields. -/

namespace Sys2Proof

/-- The fields of a packet header fit their widths (R208), and the payload the largest LENGTH (R210). -/
def Packet.wf (p : Packet) : Bool :=
  decide (1 ≤ p.ptype ∧ p.ptype ≤ 10) && decide (p.cls < 4) && decide (p.dest < 2 ^ 15 ∧ p.via < 2 ^ 15 ∧ p.src < 2 ^ 15) &&
    decide (p.tenant < 512 ∧ p.window < 4096 ∧ p.channel < 256 ∧ p.offset < 2 ^ 48 ∧ p.opid < 2 ^ 16 ∧ p.seq < 2 ^ 16) &&
    decide (p.payload.length ≤ 4096)

/-- A source that names an address or a relay path (R320). -/
def MsgSrc.wf : MsgSrc → Bool
  | .host _ => true
  | .client _ => true
  | .fabric ma => decide (ma < 2 ^ 15)
  | .relay origin path tag => origin.all (fun o => decide (o < 2 ^ 15)) && path.all (fun p => decide (p < 6)) &&
      decide (1 ≤ path.length ∧ path.length ≤ 64 ∧ tag < 2 ^ 16)

/-- The header's fields fit their widths, and the body the largest message (R366). -/
def TMsg.wf (m : TMsg) : Bool :=
  m.src.wf && decide (m.family < 256 ∧ m.code < 256 ∧ m.seq < 2 ^ 32 ∧ m.rtag < 2 ^ 16 ∧ m.status < 256 ∧ m.body.length ≤ 1408)

/-- The bytes 8-279 of a frame and the payload its tag releases, at most 256 bytes (R173, R174). -/
def RxFrame.wf (f : RxFrame) : Bool := decide (f.body.length ≤ 272 ∧ f.payload.length ≤ 256)

/-- Every frame of a keying message is well-formed (R186). -/
def KeyMsg.wf (m : KeyMsg) : Bool := m.frames.all (·.wf)

/-- The fields of a CTRL payload (R191): 16 credits. -/
def CtrlFields.wf (c : CtrlFields) : Bool :=
  decide (c.ack < 2 ^ 40 ∧ c.credits.length = 16 ∧ c.gen < 2 ^ 32 ∧ c.nonce < 2 ^ 256) && c.credits.all (fun x => decide (x < 2 ^ 16))

/-- The fields of an introduction (R183). -/
def Intro.wf (i : Intro) : Bool :=
  decide (i.serial < 2 ^ 64 ∧ i.ma < 2 ^ 15 ∧ i.port < 6 ∧ i.proto < 2 ^ 16 ∧ i.digest < 2 ^ 128) &&
    decide (i.cap < 2 ^ 64 ∧ i.lanes < 2 ^ 24 ∧ i.attempt < 2 ^ 32)

/-- A VLAN identifier is 12 bits, and what a frame carries is well-formed. -/
def EthFrame.wf (f : EthFrame) : Bool :=
  f.vlan.all (fun v => decide (v < 4096)) && f.secured.all (fun x => decide (x.pn < 2 ^ 64)) && (match f.kind with
    | .tosto port m session seq _ _ => m.wf && decide (port < 2 ^ 16 ∧ session < 2 ^ 16 ∧ seq < 2 ^ 32)
    | .pfc _ quanta => decide (quanta < 2 ^ 16)
    | .otherUdp port => decide (port < 2 ^ 16)
    | _ => true)

/-- QPN and PSN are 24 bits (R379). -/
def RoceReq.wf (r : RoceReq) : Bool := decide (r.qpn < 2 ^ 24 ∧ r.psn < 2 ^ 24)

/-- The fields of a Knock frame (R384). -/
def Knock.wf (k : Knock) : Bool :=
  decide (k.version < 256 ∧ k.command < 256 ∧ k.serial < 2 ^ 64 ∧ k.counter < 2 ^ 64 ∧ k.arg < 2 ^ 64)

/-- A PTP header's fields: a 64-bit clock identity, an 8-bit domain, and one of the two transports (R382). -/
def PtpHdr.wf (h : PtpHdr) : Bool := decide (h.clock < 2 ^ 64 ∧ h.domain < 256 ∧ h.transport < 3)

/-- The tenant of a memory access is 9 bits (R142). -/
def MemUser.wf (u : MemUser) : Bool := decide (u.tenant < 512 ∧ u.port < 17)

/-- A KEY_ID, a digest and a key fit their fields (R430). -/
def KeyCall.wf : KeyCall → Bool
  | .session _ k => k.all (fun x => decide (x < 2 ^ 256))
  | .weight _ _ _ id digest k => decide (id < 2 ^ 64 ∧ digest < 2 ^ 256) && k.all (fun x => decide (x < 2 ^ 256))

/-- The block and the entry that a LOCK call names exist as numbers of their fields (R50, R55). -/
def LockWhat.wf : LockWhat → Bool
  | .wlock _ _ => true
  | .policy entry _ => decide (entry < 2 ^ 16)

/-- The operands of a command are within the spec's fields. -/
def Instr.wf (i : Instr) : Bool :=
  match i with
  | .hallRequest _ => true
  | .hallResponse _ _ _ _ => true
  | .hallTimeout _ _ _ => true
  | .ucieLost _ _ => true
  | .wingLost _ => true
  | .islandStop _ => true
  | .islandRestart _ => true
  | .registerWrite _ _ width _ => (width == 32 || width == 64)
  | .errForce _ _ _ => true
  | .errInvchk _ _ _ => true
  | .wlock _ _ _ => true
  | .policyEntryWrite _ _ _ _ => true
  | .accessTimeout _ _ => true
  | .pageAnswerLate _ _ => true
  | .kblockDone _ _ => true
  | .tileBlockDone _ => true
  | .operandTimeout _ => true
  | .tileClearDone _ => true
  | .clearFault _ => true
  | .pllUnlock _ => true
  | .park _ _ _ => true
  | .arrSubmit _ _ => true
  | .arrOpStart => true
  | .arrWindowEntry => true
  | .passDone => true
  | .arrOutputAck _ _ => true
  | .arrOpComplete => true
  | .arrCplTail _ _ => true
  | .cplWrite => true
  | .arrFlush _ _ => true
  | .arrHold _ _ => true
  | .arrTenantWrite _ _ => true
  | .arrStallTimeout => true
  | .arrFailDrained => true
  | .handshake _ => true
  | .gdTrainDone _ _ => true
  | .gdTrainTimeout _ _ => true
  | .gdRetrainPeriod _ => true
  | .gdRecalDone _ _ => true
  | .gdLineRead _ _ user => user.wf
  | .gdLineWrite _ bytes user => user.wf && !bytes.isEmpty
  | .gdPatrol _ _ _ => true
  | .wngRegionWrite _ _ _ _ _ => true
  | .cellarUnitAccess _ _ => true
  | .cxlTimeout _ _ => true
  | .retrain _ _ => true
  | .celPortTrained _ _ => true
  | .celPageGive _ _ _ _ _ => true
  | .celPageRelease _ _ _ => true
  | .celReleaseFillDone _ _ => true
  | .sweepUnitRead _ => true
  | .sweepJournalAck _ => true
  | .sweepUnitDone _ => true
  | .slotRetire _ => true
  | .copySubmit _ _ _ => true
  | .copyStart _ => true
  | .copyComplete _ => true
  | .copyFailDone _ => true
  | .copyFault _ => true
  | .celCeTenantWrite _ _ _ => true
  | .lnkRetryInterval _ => true
  | .detectDone _ _ _ => true
  | .equalizeDone _ _ => true
  | .alignDone _ _ _ => true
  | .introFrame _ f i => f.wf && i.wf
  | .introDone _ => true
  | .kx1 _ m => m.wf
  | .kx2 _ m => m.wf
  | .kx3 _ m => m.wf
  | .lnkTrainTimeout _ => true
  | .dataFrame _ f => f.wf
  | .ctrlFrame _ f c => f.wf && c.wf
  | .nakFrame _ f c => f.wf && c.wf
  | .rot _ f c => f.wf && c.wf
  | .rotack _ f c => f.wf && c.wf
  | .nakRepeat _ => true
  | .ctrlFrameDue _ => true
  | .laneBad _ _ => true
  | .laneChangeSet _ _ => true
  | .laneReady _ _ => true
  | .holdTimeout _ => true
  | .lockLost _ => true
  | .widen _ _ => true
  | .widenEqualizeDone _ _ => true
  | .rotate _ _ => true
  | .keyCountLimit _ => true
  | .rotResend _ => true
  | .keyLimit _ => true
  | .silence _ => true
  | .admitPort _ _ => true
  | .markMiswired _ _ => true
  | .linkRetrain _ _ => true
  | .enablePort _ _ _ _ => true
  | .packetInject o => o.all (·.wf)
  | .packetArrival _ => true
  | .writePkt o => o.all (·.wf)
  | .readReq o => o.all (·.wf)
  | .readResp o => o.all (·.wf)
  | .mcastPkt o => o.all (·.wf)
  | .ackPkt o => o.all (·.wf)
  | .mgmtPkt o _ => o.all (·.wf)
  | .mbxPostPacket o => o.all (·.wf)
  | .pealPkt o _ => o.all (·.wf)
  | .writeStored => true
  | .readDataReady => true
  | .ackDelay src opid => decide (src < 2 ^ 15 ∧ opid < 2 ^ 16)
  | .rtrOpTimeout _ => true
  | .windowEntryWrite _ _ _ _ => true
  | .rtrRaSubmit _ _ => true
  | .raStart => true
  | .raEntryTaken => true
  | .raComplete => true
  | .routeEntryWrite _ _ _ _ => true
  | .rtbSeal _ _ => true
  | .rtbUnseal _ _ => true
  | .rtbFlip _ _ => true
  | .drainTimer _ => true
  | .hopAge _ _ => true
  | .rtbParamWrite _ _ _ _ => true
  | .measureBoundary _ _ => true
  | .colSubmit _ _ => true
  | .colHeadCheck => true
  | .colEntryTaken => true
  | .colQuotaReserved => true
  | .groupEntryWrite _ _ _ _ => true
  | .grpDisable _ _ => true
  | .memberPoolWrite _ _ _ => true
  | .openChunk o => o.all (·.wf)
  | .verdictChunk o => o.all (·.wf)
  | .abortChunk o => o.all (·.wf)
  | .creditChunk o => o.all (·.wf)
  | .dataChunk o => o.all (·.wf)
  | .resultChunk o => o.all (·.wf)
  | .colOpenResend _ => true
  | .colInputReadDone _ => true
  | .colResultWriteAck _ => true
  | .colJoinTimeout _ => true
  | .colProgressTimeout _ => true
  | .colFlush _ _ => true
  | .colHold _ _ => true
  | .colTenantWrite _ _ => true
  | .arrayHandover => true
  | .abandonmentNotice => true
  | .verifyObject _ _ => true
  | .activateObject _ => true
  | .signClaim _ _ _ => true
  | .cellarKey _ _ key => key.all (fun k => decide (k < 2 ^ 512))
  | .attest _ nonce _ => decide (nonce < 2 ^ 256)
  | .keyDelivery _ what => what.wf
  | .lockCall _ what => what.wf
  | .callTimeout _ => true
  | .imageFetchTimeout => true
  | .imageFetchRetry => true
  | .imageGetResend piece off => decide (piece < 2 ^ 32 ∧ off < 4096)
  | .imageData kind piece off data _ _ => decide (kind < 256 ∧ piece < 2 ^ 32 ∧ off < 4096 ∧ data.length ≤ 1024)
  | .planFetchRetry => true
  | .claim o _ => o.all (·.wf)
  | .claimAck o => o.all (·.wf)
  | .termNotice o => o.all (·.wf)
  | .claimStagger => true
  | .standby _ _ => true
  | .heartbeat o => o.all (·.wf)
  | .heartbeatPeriod => true
  | .hbMiss => true
  | .probe o => o.all (·.wf)
  | .probeAck o => o.all (·.wf)
  | .probeTimeout => true
  | .fence => true
  | .belAlive _ _ => true
  | .votedWrite _ _ _ width _ => (width == 4 || width == 8)
  | .voteWindowEnd _ => true
  | .relay o _ => o.all (·.wf)
  | .discover o => o.all (·.wf)
  | .discoverReply o => o.all (·.wf)
  | .readyChange o => o.all (·.wf)
  | .agtPortPlanWrite _ _ => true
  | .rtrMaWrite _ _ => true
  | .pealPace => true
  | .pealEnd o => o.all (·.wf)
  | .pealNeed o => o.all (·.wf)
  | .pealNotHeld o => o.all (·.wf)
  | .pealIdleTimeout => true
  | .pealRepairTimeout => true
  | .pealCampaignTimeout => true
  | .pealActivate o => o.all (·.wf)
  | .routePrepare o => o.all (·.wf)
  | .routeReady o => o.all (·.wf)
  | .routePrepareResend _ => true
  | .routePrepareLost _ => true
  | .rtbGen _ _ => true
  | .genFault _ _ => true
  | .failureSettle => true
  | .policySet o => o.all (·.wf)
  | .policyDone o => o.all (·.wf)
  | .cmapSummaryDue => true
  | .cmapSummary o => o.all (·.wf)
  | .ethFrame f => f.wf
  | .openSession o nonce => o.all (·.wf) && decide (nonce < 2 ^ 256)
  | .prove o _ => o.all (·.wf)
  | .closeSession o => o.all (·.wf)
  | .proveTimeout _ => true
  | .sessionIdle _ => true
  | .ethSlotWrite _ _ _ => true
  | .regRead o => o.all (·.wf)
  | .regWrite o => o.all (·.wf)
  | .mbxPost o => o.all (·.wf)
  | .statusRead o => o.all (·.wf)
  | .pealPut o => o.all (·.wf)
  | .pealStart o _ => o.all (·.wf)
  | .pealQuery o => o.all (·.wf)
  | .pealCommit o => o.all (·.wf)
  | .sliceBegin o => o.all (·.wf)
  | .slicePart o => o.all (·.wf)
  | .sliceCommit o => o.all (·.wf)
  | .sliceQuery o => o.all (·.wf)
  | .sliceRelease o => o.all (·.wf)
  | .transitDrain o => o.all (·.wf)
  | .drainQuery o => o.all (·.wf)
  | .qpCreate o => o.all (·.wf)
  | .qpDestroy o => o.all (·.wf)
  | .mkaFrame _ => true
  | .sakPnLimit _ => true
  | .mkaLost => true
  | .rdmaWrite r rkey va _ => r.wf && decide (rkey < 2 ^ 32 ∧ va < 2 ^ 64)
  | .rdmaRead r rkey va len _ => r.wf && decide (rkey < 2 ^ 32 ∧ va < 2 ^ 64 ∧ len < 2 ^ 32)
  | .rdmaSend r _ => r.wf
  | .ptpSync h _ _ _ => h.wf
  | .followUp h _ => h.wf
  | .delayResp h _ _ => h.wf
  | .announce h _ => h.wf
  | .announceTimeout => true
  | .knockStatus k => k.wf
  | .recTail k => k.wf
  | .recFreeze k => k.wf
  | .switchCore k => k.wf
  | .knockErrN k => k.wf
  | .knockReset k => k.wf
  | .knockPower k => k.wf
  | .mbxTxPost _ _ => true
  | .mbxRx _ _ => true
  | .mbxData _ _ => true
  | .mbxLatch _ _ => true
  | .latchRelease _ _ => true
  | .receiverReset _ _ => true
  | .mbxLatchTimeout _ => true
  | .attRequest o _ => o.all (·.wf)
  | .attExtend o => o.all (·.wf)
  | .reportExpiry => true
  | .keyDeliver o _ _ _ _ => o.all (·.wf)
  | .deliveryPartTimeout _ => true
  | .unseal o _ => o.all (·.wf)
  | .unsealDone _ _ => true
  | .debugChallenge o => o.all (·.wf)
  | .debugUnlock o _ _ => o.all (·.wf)
  | .debugRelock o => o.all (·.wf)
  | .debugAccess o => o.all (·.wf)
  | .debugCore o => o.all (·.wf)
  | .leaseEnd => true
  | .dbgUnlock _ => true
  | .jtagInstruction _ => true
  | .tocsinEvent _ _ => true
  | .railEqual _ => true
  | .severityWindowEnd _ => true
  | .tocSrcCfgWrite _ _ _ => true
  | .tocErrnRelease _ _ => true
  | .errnPulseEnd => true
  | .tocRailtest _ _ => true
  | .feedLost _ => true
  | .feedReturn _ => true
  | .oring _ => true
  | .giveUp _ => true
  | .switchRequest _ => true
  | .belWatchdog => true
  | .belHealth _ _ => true
  | .healthStale => true
  | .recordSealed => true
  | .recSwAppend _ _ => true
  | .recFreezeWrite _ _ => true
  | .tostoRecFreeze o => o.all (·.wf)
  | .recFreezeLimit => true
  | .recRead o => o.all (·.wf)
  | .recTailRead o => o.all (·.wf)
  | .recClear o => o.all (·.wf)
  | .recClearDone => true
  | .recState o => o.all (·.wf)
  | .recReadSel _ _ => true
  | .recScanDone => true
  | .powerOn _ _ => true
  | .feedCheckDone _ _ => true
  | .romDone _ => true
  | .sramInitDone _ _ => true
  | .powerWave _ => true
  | .memtestDone _ _ => true
  | .tileTestDone _ => true
  | .linksDone => true
  | .resetTile _ _ => true
  | .resetCluster _ _ => true
  | .resetWing _ _ => true
  | .resetPort _ _ => true
  | .resetCore _ _ => true
  | .resetModule _ => true
  | .moduleResetBegin => true
  | .resetComplete _ _ _ => true
  | .resetTimeout _ _ => true
  | .resetN => true
  | .resetNRelease _ => true
  | .targetFull _ => true
  | .targetQuiet _ => true
  | .targetTransit _ => true
  | .targetStandby _ => true
  | .targetOff _ => true
  | .scrubStepDone => true
  | .undervolt => true
  | .overvolt _ => true
  | .converter => true
  | .overcurrent => true
  | .warn _ _ => true
  | .critical _ _ => true
  | .thermalTrip _ _ => true
  | .thermalCooled _ => true
  | .thermN => true
  | .thermNRelease _ => true
  | .sensor _ _ => true
  | .syncIn _ => true
  | .statusWord => true
  | .readVin _ _ => true
  | .readIin _ _ => true
  | .readTemperature1 _ => true
  | .readPin _ => true
  | .pmbusRevision => true
  | .mfrSerial => true
  | .smbusClockTimeout => true
  | .introResend _ => true
  | .laneDeskewDone _ => true
  | .c0TokenRefill _ => true
  | .mbxPostEntryTaken _ => true
  | .prechargeDone => true
  | .feedQualifyStart _ => true
  | .entryToOff => true
  | .ucieTrained _ _ => true
  | .celTrainFail _ => true
  | .hostLinkUp => true
  | .linkDown => true
  | .mkaHello => true
  | .refLost => true
  | .aonDrift => true
  | .coreFault _ => true
  | .gddr7ZeroFillDone => true

end Sys2Proof
end

