-- ==== Sys2Proof/Tests/Slice0.lean ====
section
/-! SUPPORT. Own tests: states in which the hypotheses of the statements hold, ill-formed commands that the check refuses, and small
runs of single commands. -/

namespace Sys2Proof.Tests

open Sys2Proof Sys2Proof.Machine

set_option maxRecDepth 100000

/-- A module whose switch core and wings are powered and whose wing ports are ACTIVE. -/
def up : State := State.reset.onDev (fun d =>
  ({ d with powered := ⟨true, true, 255, 65535⟩ } : Dev).wr Reg.HALL_WING_STATE 0x5555)

/-- `up` with Cellar port 0 ACTIVE, its page 0 given to SYSTEM under key 7, and a copy into it that holds a unit. -/
def cellar : State := up.onDev (fun d =>
  (({ (d.wr (Reg.CEL_CAPP) 8).setCelPort 0 2 with
      cel := { d.cel with sysKey := ⟨some 7, none, false, false, 0⟩ } } : Dev).setCelPage 0 0 ⟨true, false, true, 0, false, false, false⟩).setCopyEng 2
    ⟨[⟨[0x10000000, 4096, 0, 4, 0, 0x8000], 0x400000000⟩], true, 0, some [1], none, none⟩)

/-- A 1 x 1 x 1 GEMM of BF16 operands in wing 1 with an FP32 result. -/
def gemm : ArrOp := ⟨[0x11100000, 1, 1, 1, 0x00010000, 0, 0x10004, 0x1000, 0x10004, 0x2000, 0x10004], 5, 0, 0, false⟩

/-- `gemm` executing on tile 64. -/
def gemmExec : ArrExec := ⟨gemm, [64], [], some ⟨.main, [(64, ⟨0, 0, 0, false⟩)], 0, 0⟩, [64], [], 0, some 0, none, false, [], [], 0, 0, 0, 0, 0, [], [], [], none⟩

/-- A module with an operation executing, and with its tile at a number of K-blocks done. -/
def arrWith (e : ArrExec) (k : Nat) : State := up.onDev (fun d =>
  { d.setTile 64 ⟨.busy, false, some ⟨0, 0, 0, false⟩, k, [], [], [], [], [], [], []⟩ with arr := { d.arr with exec := some e } })

/-- `gemm` with its only write issued, and with nothing left to do. -/
def gemmWrote : ArrExec := { gemmExec with cur := none, left := [], unacked := [⟨0, 0, .loc 0x400002000 [1, 2, 3, 4]⟩], nextWrite := 1, nextBlock := 1 }
def gemmEnd : ArrExec := { gemmWrote with unacked := [], acked := 1 }

/-- A completion ring of 16 records in wing 1. -/
def ring (s : State) : State := s.onDev (fun d => ((d.wr Reg.ARR_CPL_SIZE 4).wr Reg.ARR_CPL_BASE_LO 0x4000).wr Reg.ARR_CPL_BASE_HI 4)

/-- `up` with fabric port 0 as given. -/
def port (x : Lnk) : State := up.onDev (fun d => d.setLnk 0 x)

/-- A port in a state, with keys of generation 0 and a peer. -/
def lnkIn (st : LnkSt) : Lnk := { Lnk.reset with st := st, reason := 0, tx := ⟨0, some ⟨5, 0⟩, none, 0, 0⟩, rx := ⟨0, some ⟨6, 0⟩, none, 0, 0⟩, good := 0xFFFFFF }

/-- The introduction of a peer with a serial, a good DATA frame of one unit, and the fields of a CTRL frame. -/
def peer (serial : Nat) : Intro := ⟨serial, false, 0, 1, 0x200, 0, 0, 0xFFFFFF, 0⟩
def frameOf (ftype count : Nat) : RxFrame :=
  let b : List Byte := List.replicate 272 0
  ⟨[], BitVec.ofNat 64 (hdrWord 0 ftype 0 false 31 count), b,
    BitVec.ofNat 32 (crc32c (leBytes 8 (BitVec.ofNat 64 (hdrWord 0 ftype 0 false 31 count)).toNat ++ b)), some 0, [1, 2, 3]⟩
def goodFrame : RxFrame := frameOf 0 1
def ctrlRx : RxFrame := frameOf 1 5

/-- A message of the keying exchange from a module of a serial in the same deployment. -/
def keyFrom (serial : Nat) : KeyMsg := ⟨[frameOf 4 16], List.replicate 1568 0 ++ chainOf State.reset.dev serial, true, 9⟩
def fields : CtrlFields := ⟨0, false, false, false, [1, 2, 3, 4, 5, 6, 7, 8, 9, 10, 11, 12, 13, 14, 15, 16], 1, 9⟩

theorem frame_crc : goodFrame.crcOk = true ∧ ctrlRx.crcOk = true ∧ (frameOf 4 16).crcOk = true ∧ (frameOf 4 16).start = 31 := by decide +kernel

theorem keyFrom_accepted {d : Dev} (serial : Nat) (hl : d.sec = State.reset.dev.sec) (hx : d.bel.extension = none)
    (hr : State.reset.dev.bel.extension = none) : peerAccepted d serial (keyChain (keyFrom serial)) = true := by
  have e : keyChain (keyFrom serial) = chainOf d serial := by
    simp [keyChain, keyFrom, chainOf, ownerIdOf, ownerSlot, ownerFuse, lcWord, seedOf, hl, hx, hr]
  rw [e]
  exact chainOf_accepted d serial (by rw [hl]; rfl) (by rw [hl]; rfl)

theorem keyFrom_frames {s : State} (n : Nat) (h : s.dev.rxFec 0 (frameOf 4 16) = (true, s.dev) ∧ s.dev.armedFirst (lnkPage 0) [2] = none) :
    s.dev.keyFrames 0 (keyFrom n).frames = (0, s.dev) := by
  have k : ([0, 1, 3, 4].contains (frameOf 4 16).ftype && decide ((frameOf 4 16).count ≤ 16)) = true := by decide +kernel
  simp_all [keyFrom, Dev.keyFrames, Dev.rxCheck, frameFieldsOk, frame_crc]

/-- A port whose key has sealed a number of DATA frames. -/
def wornKey (n : Nat) : Lnk := { lnkIn .up with tx := ⟨0, some ⟨5, 0⟩, none, n, 0⟩ }

/-- A frame in a retry buffer. -/
def sentFrame : TxFrame := ⟨1, 2, 0, 31, 1, [7], [7]⟩

/-- A module at MA 5 with bank 1 LIVE in epoch 1, a route to itself, ports 0 and 1 UP, and a policy that lets every master access every page. -/
def live : State := up.onDev (fun d =>
  let d := (((d.wr Reg.RTR_MA (2 ^ 15 + 5)).wr Reg.RTB_EPOCH1 1).setBankState 1 2).wr Reg.RTB_LIVE_EPOCH 1
  let d : Dev := { d with rtr := { d.rtr with routes := [(2 ^ 15 + 5, 2 ^ 31 + 6 * 2 ^ 28), (2 ^ 15 + 6, 2 ^ 31)], windows := [(3, 0x400000000 + 0x1000 * 2 ^ 64 + 7 * 2 ^ 117 + 2 ^ 116)] } }
  let d : Dev := { d with acc := { d.acc with policy := [(0, 0xFF02FFF00000F000)] } }
  (d.setLnk 0 (lnkIn .up)).setLnk 1 (lnkIn .up))

/-- A MGMT packet for MA 5, one addressed to a port, and a SYSTEM packet of a type into window 3. -/
def mgmtTo5 : Packet := ⟨ptMgmt, 0, false, true, false, 5, 5, 6, 0, true, 0, 0, 0, 0, 0, [1, 2]⟩
def mgmtToPort : Packet := ⟨ptMgmt, 0, false, false, false, 0, 4, 5, 0, true, 0, 0, 0, 0, 0, [1, 2]⟩
def toWindow (ptype cls : Nat) (opid : Nat) (bs : List Byte) : Packet := ⟨ptype, cls, true, true, false, 5, 5, 6, 0, true, 3, 1, 64, opid, 0, bs⟩

/-- A remote-access read of 8 bytes, and `live` with it queued, or with it sent under entry 0. -/
def raJob : RaJob := ⟨[0x28000000, 8, 0, 4, 6 * 2 ^ 17, 0, 0, 0], 0x400000000, none, false, none⟩
def raQueued : State := live.onDev (fun d => { d with rtr := { d.rtr with ra := [raJob] } })
def raLive : State := live.onDev (fun d =>
  { d.setOpt 0 ⟨2, 0, 0, 2, 0, 0, 0, 4, 6, 1, 4, 0, false⟩ with rtr := { d.rtr with ra := [{ raJob with entry := some 0 }] } })
def raWaiting : State := live.onDev (fun d => { d with rtr := { d.rtr with ra := [{ raJob with waiting := true }] } })

/-- `live` with group 0 of this module and MA 6, its collectives SYSTEM's; an ALL_REDUCE of four FP32 values, and a barrier. -/
def colBase : State := live.onDev (fun d =>
  { d.wr Reg.COL_TENANT 0x200 with col := { d.col with groups := [(0, ⟨true, true, 0, 0, 2, 0, 0, 0⟩)], pool := [(0, 5), (1, 6)] } })
def colJob : ColJob := ⟨[0x10002000, 4, 0, 0x00300004, 0x1000, 4], 0x400008000⟩
def colBarrier : ColJob := ⟨[0x70002000, 0, 0, 4], 0x400008000⟩
def colPart (j : ColJob) : ColPart := ⟨j, 0, none, 0, 4, 4, [], none, false, false, 0, false, false, [], [], 0, 0, false, false⟩
def colIn (x : ColPart) : State := colBase.onDev (fun d =>
  { d.setOpt 0 ⟨4, 0, 0, 2, 0, 0, 0, 1, 0, 0, 0, 0, false⟩ with col := { d.col with parts := [x] } })
def colQueued (j : ColJob) : State := colBase.onDev (fun d => { d with col := { d.col with queue := [j] } })
def colChunk : ColChunk := { ColChunk.empty with own := true, granted := [1] }
def colGo (c : ColChunk) : ColPart := { colPart colJob with go := true, passed := true, chunks := [(0, c)] }

/-- A participation whose tree is rotated by one: its own node asks member 1 for its input. -/
def colRotated : ColPart := { colPart colJob with cseq := 1, go := true, passed := true, chunks := [(0, { colChunk with granted := [], inAsked := true })] }

/-- A collective packet from member 1 of group 0. -/
def fromMember (kind cno lo pkts crc arg arg2 : Nat) (bs : List Byte) : Packet :=
  ⟨if kind = 6 then ptResult else ptContrib, 1, true, true, false, 5, 5, 6, 0, true, 3, 0, 64, 16, 0,
    subHeader 0 kind 0 cno lo 2 0 0 pkts crc arg arg2 ++ bs⟩

/-- A block of the array for the collective in entry 0. -/
def handWrite : ArrOut := ⟨0, 0, .collective [(0, [1, 2])]⟩

/-- `live` with mailbox 3 enabled for local and remote posts, SYSTEM its owner, and core 0 its consumer. -/
def mbox (x : Mbx) : State := live.onDev (fun d => (d.wr (mbxKey Reg.MBXM_CFG 3) 0xC0020200).setMbox 3 x)
def mbxMsg : MbxMsg := ⟨[1, 2, 3, 4, 5], false, true, 2, true, 0, 0⟩
def mbxOut : MbxOut := ⟨⟨ptMbxPost, 0, false, false, false, 6, 0, 0, 0, true, 3, 0, 0, 0, 0, [1]⟩, none⟩

/-- `live` with an open owner session in slot 0, and messages from it, from the manager (MA 6) and from a client. -/
def host : State := live.onDev (fun d =>
  ((d.setSess 0 { Session.empty with st := 2, seen := 1 }).wr (slotKey 0) 0x80000000).wr Reg.AGT_MANAGER 0x8006)
def fromHost (body : List Byte) : TMsg := ⟨.host 0, 0, 0, false, 1, 2, 0, body⟩
def fromManager (body : List Byte) : TMsg := ⟨.fabric 6, 0, 0, false, 1, 2, 0, body⟩
def fromClient (body : List Byte) : TMsg := ⟨.client 7, 0, 0, false, 1, 2, 0, body⟩

/-- The recorder with a scan done, and with one record waiting. -/
def recReady (q : List RecBody) : State := host.onDev (fun d => { d with recd := { d.recd with ready := true, queue := q } })
def record (n : Nat) : RecBody := ⟨5, n, 1, 0, false, false, 9, List.replicate 22 0⟩

/-- `live` in a stage of bring-up, with a PWR_STATE and a PWR_TARGET. -/
def boot (stage state target : Nat) : State := live.onDev (fun d =>
  ((d.setStage stage).wr Reg.PWR_STATE state).wr Reg.PWR_TARGET target)

/-- `live` with core A active and core B healthy. -/
def cores : State := live.onDev (fun d => { d.wr Reg.BEL_HEALTH 0x80000000 with bel := { d.bel with active := some false } })

/-- Frames of the host port, and the PTP header of the clock that `ptpOn` follows. -/
def frame (k : EthKind) : EthFrame := ⟨100, none, none, k⟩
def hdr : PtpHdr := ⟨9, 0, 0⟩
def ptpOn : State := host.onDev (fun d => { d with host := { d.host with gm := some 9, sync := some 1000, gap := 50, inLock := 15 } })

/-- A queue pair of SYSTEM into mailbox 3, and requests of it. -/
def qp : Qp := ⟨0, true, 1024, 3, 5, 7, 0x99, 4, List.replicate 16 0, none⟩
def roce : State := (mbox Mbx.empty).onDev (fun d => { d with host := { d.host with qps := [(0x100, some qp)] } })
def roceReq : RoceReq := ⟨0x100, true, true, 4, false⟩

/-- `host` as the active manager. -/
def manager : State := host.onDev (fun d => d.setRole roActive)

/-- `live` with no feed present, with feed A qualifying, and with THERM_N asserted. -/
def noFeed : State := live.onDev (fun d => d.wr Reg.PWR_FEED_STATE 0x84)
def hot : State := live.onDev (fun d => { d.wr Reg.THM_STATE 1 with pwr := { d.pwr with thermN := true } })

/-- A relay packet of MA 6 whose path is ports 0, 1, ..., of a length, with the next element to use; it carries DISCOVER. -/
def relayPkt (len next : Nat) : Packet :=
  { mgmtTo5 with payload := [0xB1, BitVec.ofNat 8 len, BitVec.ofNat 8 next, 0, 6, 0x80, 7, 0, 8] ++ List.replicate 23 0 ++ [1, 11, 7, 0, 128] ++ List.replicate 27 0, via := 4 }

/-- A plan of 8 x 2 x 2 positions whose candidates of rank 0 and 3 are this module and a module at MA 8; `live` with it as a
candidate that waits to claim, as the standby of MA 6 with what it keeps of that, and as voter 0 of three. -/
def plan : Plan := ⟨false, false, 8, 2, 2, 1, 1, 0, [(Config.serial, 5, 0), (9, 8, 3)], [], [], [], 0⟩
def planned (s : State) : State := s.onDev (fun d => { d with agt := { d.agt with plan := some plan } })
def candidate : State := (planned live).onDev (fun d =>
  ({ d with bel := { d.bel with stagger := true } } : Dev).setRole roCandidate)
def standingBy (x : HbPeer) : State := (planned live).onDev (fun d =>
  ({ d with bel := { d.bel with mate := some 6 } } : Dev).setRole roStandby |>.setHbPeer 6 x)
def voter : State := (planned live).onDev (fun d =>
  (((d.wr Reg.AGT_MODE 1).wr Reg.AGT_VOTER01 (2 ^ 31 + 6 * 2 ^ 16 + 2 ^ 15 + 5)).wr Reg.AGT_VOTER2 (2 ^ 15 + 7)).setRole roVoter)

/-- The active manager, with the plan, without standby, and with records; a ROUTE_PREPARE to a member. -/
def managing (x : Manager) : State := (planned manager).onDev (fun d => { d with mgr := x })
def prepSend (ma : Nat) : MgrSend := ⟨ma, famBelfry, 13, []⟩

/-- A fetch of an extension over the host port in its first attempt, and `host` with a fetch and an image server named. -/
def fetch : Fetch := ⟨1, [], [], true, false, 1, 0⟩
def ownerCfg : OwnerConfig := ⟨11, 12, 13, 0, List.replicate 16 0, 5, [], [], []⟩
def fetching (f : Fetch) : State := host.onDev (fun d =>
  { d with host := { d.host with fetch := some f }, sec := { d.sec with config := some ownerCfg } })

/-- `live` receiving campaign 9 with what it holds, its manager MA 6; a piece of a campaign that does not go on. -/
def rx (x : PealRx) (st : Nat) : State := live.onDev (fun d =>
  { (d.wr Reg.AGT_MANAGER 0x8006).setPeal 9 0 st with agt := { d.agt with peal := x } })
def piecePkt (num seq : Nat) : Packet := { mgmtTo5 with ptype := ptPeal, src := 32, opid := num, seq := seq, channel := 3, payload := [7] }

/-- A plan of 2 x 2 x 2 positions, and manifest piece 0 of its object. -/
def planData : List Byte :=
  [0x4D, 0x42, 0x50, 0x4C, 1, 0, 0, 0, 2, 2, 2, 1] ++ List.replicate 16 0 ++ [1, 0, 0, 0, 0, 0, 0, 0, 1] ++ List.replicate 27 0 ++
    ([9] ++ List.replicate 15 0) ++ ([9] ++ List.replicate 127 0) ++ List.replicate 16 0
def planHead : List Byte :=
  [0x50, 0x45, 0x41, 0x4C, 3, 0, 0, 0, 224, 0, 0, 0, 1] ++ List.replicate 115 0

/-- `host` scrubbing tenants, at a step. -/
def scrubbingAt (step : Nat) (ts : List Nat) : State := host.onDev (fun d =>
  { (d.wr Reg.PWR_SCRUB (2 ^ 31 + step * 2 ^ 24 + ts.headD 0)).wr Reg.PWR_STATE (setBit (d.rd Reg.PWR_STATE) 8) with
    pwr := { d.pwr with scrubs := ts } })

/-- A state in which a call of a code waits in core A's record; `host` in DEPLOY with nothing bound. -/
def calling (code : Nat) (s : State) : State := s.onDev (fun d => d.wr Reg.BEL_CALL_A (2 ^ 31 + code * 2 ^ 16))
def deployed : State := host.onDev (fun d => { d with sec := { d.sec with lc := 2 } })

/-- A weight key of SYSTEM, a sealed object under it at 0x400001000 whose plaintext is 64 bytes, and its UNSEAL. -/
def weight : WeightKey := ⟨3, 0, true, true, 0, 77⟩
def sealedState : State :=
  let s := deployed.onDev (fun d => { d with sec := { d.sec with weights := [weight] } })
  { s with mem := s.mem.store 0x400001000 ([0, 0, 0, 0, 0, 0, 0, 0, 3, 0, 0, 0, 0, 0, 0, 0, 1, 0, 0, 0, 0, 0, 0, 0, 64] ++ List.replicate 119 0) }
def unsealMsg : TMsg := fromHost (leBytes 6 0x400001000 ++ leBytes 6 0x400002000 ++ leBytes 8 3 ++ leBytes 4 224 ++ leBytes 4 0)

/-- `host` with a knock key, and a Knock frame with an argument that it takes. -/
def knocking : State := host.onDev (fun d => { d with sec := { d.sec with config := some ownerCfg } })
def knock (arg : Nat) : Knock := ⟨false, 1, 1, true, Config.serial % 2 ^ 64, 5, arg, true, 9⟩
theorem knock_taken' {d : Dev} {arg : Nat}
    (h : d.powered.aon = true ∧ d.armed 0x059 0 = false ∧ (d.sec.config.map (·.knock)).getD 0 ≠ 0) (c : knkCounter d < 5) :
    knockTaken d (knock arg) := ⟨h.1, rfl, by simp [knock], by simp [knock], rfl, rfl, rfl, rfl, c, by simp [knock], h.2.1, h.2.2⟩
theorem knock_taken {P : Prop} {arg : Nat} (h : P) : knockTaken knocking.dev (knock arg) ∧ P :=
  ⟨knock_taken' (by decide) (by decide), h⟩

/-- A certificate of an owner's role under the owner root 5 whose key is zeros. -/
def certOf (role : Byte) : List Byte :=
  [0x4C, 0x4E, 0x43, 0x54, role, 0, 0, 0] ++ leBytes 8 (Config.shake256 (List.replicate 1952 0)) ++ leBytes 8 5 ++
    List.replicate 8 0 ++ [5] ++ List.replicate 31 0 ++ List.replicate 5261 0

/-- A WITHDRAW package for this module, gathered but for its last part, and that part. -/
def pkgBytes : List Byte :=
  [0x4C, 0x4E, 0x4B, 0x44, 6, 1, 1, 0] ++ leBytes 8 Config.serial ++ List.replicate 32 0 ++ [12, 0, 0, 0] ++ List.replicate 12 0 ++
    List.replicate 1568 0 ++ List.replicate 28 0 ++ certOf 7 ++ List.replicate 3309 0
def pkgState : State := deployed.onDev (fun d => { d with sec := { d.sec with
  owners := [(0, some (.claimed 5))], reports := [⟨0, [], false⟩],
  deliveries := [⟨.host 0, 1, 11, (upFrom 0 10).map (fun i => (i, some ((pkgBytes.drop (1024 * i)).take 1024))), false⟩] } })
def pkgMsg : TMsg := fromHost ([1, 0, 10, 0, 11, 0, 0, 0] ++ pkgBytes.drop 10240)

theorem cert_subject (role : Byte) : field (certOf role) 8 8 = Config.shake256 (slice (certOf role) 64 1952) % 2 ^ 64 := by
  have h : slice (certOf role) 8 8 = leBytes 8 (Config.shake256 (List.replicate 1952 0)) := rfl
  have k : slice (certOf role) 64 1952 = List.replicate 1952 0 := rfl
  rw [field, h, k, ofLE_leBytes, show (256 : Nat) ^ 8 = 2 ^ 64 from by decide]
theorem pkg_serial : field pkgBytes 8 8 = Config.serial % 2 ^ 64 := by
  have h : slice pkgBytes 8 8 = leBytes 8 Config.serial := rfl
  rw [field, h, ofLE_leBytes, show (256 : Nat) ^ 8 = 2 ^ 64 from by decide]
theorem pkg_cert : slice pkgBytes 1660 5325 = certOf 7 := rfl
theorem pkg_ok : pkgOk pkgBytes = true := by
  simp only [pkgOk, pkg_serial, beq_self_eq_true, Bool.and_true]
  decide
theorem pkg_chain : chainOk (pkgState.dev.partIn (reqOf pkgMsg famKey 1) false).2.2 6 pkgBytes (padTo 12 [4]) true = true := by
  have r : roleFor (pkgState.dev.partIn (reqOf pkgMsg famKey 1) false).2.2 6 = some 7 := rfl
  have c : slice pkgBytes (certsAt 6 (padTo 12 [4]).length) 5325 = certOf 7 := rfl
  simp only [chainOk, r, c, certOk, certForm, certSubject, cert_subject, beq_self_eq_true, Bool.and_true]
  decide
theorem pkgStatus_pkg : pkgStatus (pkgState.dev.partIn (reqOf pkgMsg famKey 1) false).2.2 pkgBytes (padTo 12 [4]) true true true = OK := by
  have k : field pkgBytes 4 1 = 6 := by decide
  simp only [pkgStatus, pkg_ok, k, pkg_chain]
  decide

/-- An unlock token for OBSERVE in DEPLOY, gathered but for its last part, and that part. -/
def tokenBytes : List Byte :=
  [0x4C, 0x4E, 0x44, 0x55, 1, 1, 0, 0] ++ leBytes 8 Config.serial ++ leBytes 32 (Config.free host.dev.sec.challenge) ++ [60, 0, 0, 0] ++
    List.replicate 12 0 ++ certOf 9 ++ List.replicate 3309 0
def tokenState : State := deployed.onDev (fun d => { d with sec := { d.sec with
  owners := [(0, some (.claimed 5))],
  deliveries := [⟨.host 0, 1, 9, (upFrom 0 8).map (fun i => (i, some ((tokenBytes.drop (1024 * i)).take 1024))), true⟩] } })
def tokenMsg : TMsg := fromHost ([1, 0, 8, 0, 9, 0, 0, 0] ++ tokenBytes.drop 8192)

theorem token_serial : field tokenBytes 8 8 = Config.serial % 2 ^ 64 := by
  have h : slice tokenBytes 8 8 = leBytes 8 Config.serial := rfl
  rw [field, h, ofLE_leBytes, show (256 : Nat) ^ 8 = 2 ^ 64 from by decide]
theorem token_challenge : field tokenBytes 16 32 = dbgChallenge (tokenState.dev.partIn (reqOf tokenMsg famDebug 2) true).2.2 := by
  have h : slice tokenBytes 16 32 = leBytes 32 (Config.free host.dev.sec.challenge) := rfl
  rw [field, h, ofLE_leBytes]
  rfl
theorem tokenStatus_token : tokenStatus (tokenState.dev.partIn (reqOf tokenMsg famDebug 2) true).2.2 tokenBytes true true = OK := by
  have c : slice tokenBytes 64 5325 = certOf 9 := rfl
  have l : (tokenState.dev.partIn (reqOf tokenMsg famDebug 2) true).2.2.sec.lc = 2 := rfl
  simp only [tokenStatus, token_serial, token_challenge, c, l, certOk, certForm, certSubject, cert_subject, beq_self_eq_true, Bool.and_true, ne_eq, not_true_eq_false,
    false_or, if_false]
  decide

/-! ## Well-formed commands: one ill-formed operand for each check -/

/-- A message, a frame, an introduction, a request and a Knock frame whose fields all fit. -/
def okMsg : TMsg := ⟨.fabric 6, 7, 1, false, 1, 2, 0, []⟩
def okFrame : RxFrame := ⟨[], 5 * 2 ^ 24, List.replicate 272 0, 0, some 0, []⟩
def okFields : CtrlFields := ⟨0, false, false, false, List.replicate 16 0, 0, 0⟩
def okIntro : Intro := ⟨1, true, 5, 0, 1, 0, 0, 1, 0⟩
def okReq : RoceReq := ⟨1, true, true, 0, false⟩
def okKnock : Knock := ⟨false, 1, 1, true, 0, 1, 0, true, 0⟩
def okPacket : Packet := ⟨1, 1, false, false, false, 5, 0, 6, 0, true, 0, 0, 0, 0, 0, []⟩

theorem test_wf_accepts : (Instr.writePkt (some okPacket)).wf && (Instr.discover (some okMsg)).wf && (Instr.ctrlFrame 0 okFrame okFields).wf &&
    (Instr.introFrame 0 okFrame okIntro).wf && (Instr.rdmaSend okReq []).wf && (Instr.knockStatus okKnock).wf &&
    (Instr.gdLineWrite 0 [1] ⟨0, true, false, 0⟩).wf = true := by decide
theorem test_wf_packet_ptype : (Instr.writePkt (some { okPacket with ptype := 11 })).wf = false := by decide
theorem test_wf_packet_dest : (Instr.writePkt (some { okPacket with dest := 2 ^ 15 })).wf = false := by decide
theorem test_wf_packet_tenant : (Instr.mcastPkt (some { okPacket with tenant := 512 })).wf = false := by decide
theorem test_wf_packet_class : (Instr.mcastPkt (some { okPacket with cls := 4 })).wf = false := by decide
theorem test_wf_message_code : (Instr.discover (some { okMsg with code := 256 })).wf = false := by decide
theorem test_wf_message_source : (Instr.discover (some { okMsg with src := .fabric (2 ^ 15) })).wf = false := by decide
theorem test_wf_relay_path : (Instr.discover (some { okMsg with src := .relay none [6] 0 })).wf = false := by decide
theorem test_wf_frame_body : (Instr.dataFrame 0 { okFrame with body := List.replicate 273 0 }).wf = false := by decide
theorem test_wf_frame_payload : (Instr.dataFrame 0 { okFrame with payload := List.replicate 257 0 }).wf = false := by decide
theorem test_wf_credits : (Instr.ctrlFrame 0 okFrame { okFields with credits := [] }).wf = false := by decide
theorem test_wf_intro : (Instr.introFrame 0 okFrame { okIntro with lanes := 2 ^ 24 }).wf = false := by decide
theorem test_wf_vlan : (Instr.ethFrame ⟨64, some 4096, none, .knock⟩).wf = false := by decide
theorem test_wf_session : (Instr.ethFrame ⟨64, none, none, .tosto 0 okMsg (2 ^ 16) 0 true true⟩).wf = false := by decide
theorem test_wf_udp_port : (Instr.ethFrame ⟨64, none, none, .otherUdp 65536⟩).wf = false := by decide
theorem test_wf_qpn : (Instr.rdmaSend { okReq with qpn := 2 ^ 24 } []).wf = false := by decide
theorem test_wf_rkey : (Instr.rdmaWrite okReq (2 ^ 32) 0 []).wf = false := by decide
theorem test_wf_read_length : (Instr.rdmaRead okReq 0 0 (2 ^ 32) 0).wf = false := by decide
theorem test_wf_knock : (Instr.knockStatus { okKnock with command := 256 }).wf = false := by decide
theorem test_wf_ptp_domain : (Instr.followUp ⟨0, 256, 0⟩ 0).wf = false := by decide
theorem test_wf_tenant : (Instr.gdLineRead 0 .clean ⟨512, false, false, 0⟩).wf = false := by decide
theorem test_wf_no_bytes : (Instr.gdLineWrite 0 [] ⟨0, true, false, 0⟩).wf = false := by decide
theorem test_wf_width : (Instr.registerWrite 0 0 16 0).wf = false := by decide
theorem test_wf_voted_width : (Instr.votedWrite 0 0 0 2 0).wf = false := by decide
theorem test_wf_opid : (Instr.ackDelay 0 (2 ^ 16)).wf = false := by decide
theorem test_wf_cellar_key : (Instr.cellarKey false 0 (some (2 ^ 512))).wf = false := by decide +kernel
theorem test_wf_nonce : (Instr.attest true (2 ^ 256) true).wf = false := by decide
theorem test_wf_session_key : (Instr.keyDelivery true (.session 0 (some (2 ^ 256)))).wf = false := by decide
theorem test_wf_weight_id : (Instr.keyDelivery true (.weight 0 false false (2 ^ 64) 0 none)).wf = false := by decide
theorem test_wf_policy_entry : (Instr.lockCall true (.policy (2 ^ 16) 0)).wf = false := by decide
theorem test_wf_image_piece : (Instr.imageGetResend (2 ^ 32) 0).wf = false := by decide
theorem test_wf_open_nonce : (Instr.openSession (some okMsg) (2 ^ 256)).wf = false := by decide

/-! ## The spec's own examples -/

/-- R139's example. -/
theorem test_gddr7_example : gdWing 0x400000300 1 = some 1 ∧ gdDevice 0x400000300 = 0 ∧ gdAddress 1 0 0x100 = 0x400000300 := by decide
/-- R6: MA = z<<10 | y<<5 | x. -/
theorem test_ma_coordinates : coord (3 * 1024 + 2 * 32 + 1) 0 = 1 ∧ coord (3 * 1024 + 2 * 32 + 1) 1 = 2 ∧ coord (3 * 1024 + 2 * 32 + 1) 2 = 3 := by decide
/-- R340 on a ring of 4 with link 0 out: from x = 0 to x = 1 the detour N is taken, to x = 3 the way N is clear. -/
theorem test_generator_detour : genEntry 0 (fun _ => 4) (fun _ => 1) 1 = 2 ^ 31 + 1 * 2 ^ 28 + 2 ^ 27 := by decide
theorem test_generator_prefers_n : genEntry 0 (fun _ => 4) (fun _ => 1) 3 = 2 ^ 31 + 1 * 2 ^ 28 := by decide
/-- R340: a tie goes P. -/
theorem test_generator_tie : genEntry 0 (fun _ => 4) (fun _ => 0) 2 = 2 ^ 31 := by decide
/-- R251: the defaults of VCA_WEIGHT and VCA_C0_LIMIT. -/
theorem test_reset_weight : State.reset.dev.rd Reg.VCA_WEIGHT = 0x10102040 := by decide
theorem test_reset_c0_limit : State.reset.dev.rd Reg.VCA_C0_LIMIT = 0x23 := by decide
/-- R440: a page of the switch core answers POWER_OFF right after a reset of kind P. -/
theorem test_power_off : accessCheck State.reset.dev 1 (mAddr Reg.RTR_MA) 32 false 0 = POWER_OFF := by decide

/-- The worked example of 03_tile_array.md: the element is 0x4040_0010. -/
theorem test_kblock_example :
    (cellNarrow (cellNarrow 0 (ksum (KSum.zero false) ([0x7E, 0x01, 0xFE].map (colVal 3)) ([0x7E, 0x01, 0x7E].map (colVal 3))) 0x7F 0x7F).1
      (ksum (KSum.zero false) [colVal 3 0x38] [colVal 3 0x3C]) 0x80 0x7F).1 = 0x40400010 := by decide +kernel
/-- The worked example of 08_collectives_pantry.md: five BF16 inputs along the fixed tree give 2^-7, 0x3C00. -/
theorem test_tree_example :
    let add (a b : Nat) : Nat := (combineCodes 1 0 false a b).code
    add (add (add 0x3F80 0x3B80) (add 0x3B80 0xBF80)) 0x3B80 = 0x3C00 := by decide +kernel
/-- The example of R58: session 0x12 sets LNK3's severity to 8 events in 10 s; under a HEADER lock the same write is refused and
MOD_ACCESS_LAST reads 0x1213_0230. -/
theorem test_severity_example :
    (regWrite 0x12 0x0100023034 32 0x009C4008 live).dev.rd (rkey 0x023 0x034) = 0x009C4008 ∧
    (regWrite 0x12 0x0100023034 32 0x009C4008 (live.onDev (fun d => d.wr (rkey 0x023 0x018) 0x80000000))).dev.rd Reg.MOD_ACCESS_LAST =
      0x12130230 := by decide +kernel

theorem witness_HallRuns_hallRequest : ∃ (r : HallReq) (s : State),
    s.dev.powered.core = true ∧ crossingHeld s.dev r.src.val = false ∧ crossingHeld s.dev r.dst.val = false ∧ 8 ≤ r.src.val ∧ 8 ≤ r.dst.val :=
  ⟨⟨9, 10, 5⟩, up, by decide⟩

theorem witness_HallRuns_hallResponse : ∃ (src dst : Fin 17) (tag status : Nat) (s : State),
    crossingHeld s.dev src.val = false ∧ crossingHeld s.dev dst.val = false ∧ 8 ≤ src.val ∧ s.dev.hall.fwd.contains ⟨src, dst, tag⟩ = true :=
  ⟨9, 10, 5, 0, up.onDev (fun d => { d with hall := { d.hall with fwd := [⟨9, 10, 5⟩] } }), by decide⟩

theorem witness_HallRuns_hallTimeout : ∃ (src dst : Fin 17) (tag : Nat) (s : State),
    s.dev.powered.core = true ∧ 8 ≤ src.val ∧ s.dev.hall.fwd.contains ⟨src, dst, tag⟩ = true ∧ s.dev.stopped.contains .hall = false ∧ quiet s.dev :=
  ⟨9, 10, 5, up.onDev (fun d => { d with hall := { d.hall with fwd := [⟨9, 10, 5⟩] } }), by decide⟩

theorem witness_HallRuns_hallTimeout_2 : ∃ (src dst : Fin 17) (tag : Nat) (s : State),
    s.dev.stopped.contains .hall = true :=
  ⟨9, 10, 5, up.onDev (fun d => { d with stopped := [.hall] }), by decide⟩

theorem witness_HallRuns_ucieLost : ∃ (w : Fin 8) (m : Fin 2) (s : State),
    s.dev.powered.wings.testBit w.val = true ∧ ucieOut s.dev w.val m.val = false ∧ ucieOut s.dev w.val (1 - m.val) = false :=
  ⟨1, 0, up, by decide⟩

theorem witness_HallRuns_wingLost : ∃ (w : Fin 8) (s : State),
    s.dev.powered.wings.testBit w.val = true ∧ s.dev.powered.core = true ∧ wingState s.dev w.val = 1 ∧ ucieOut s.dev w.val 0 = false ∧ ucieOut s.dev w.val 1 = false :=
  ⟨1, up, by decide⟩

theorem witness_MemoryRuns_gdRetrainPeriod : ∃ (w : Fin 8) (n : Fin 3) (s : State),
    SMap.get (fun _ => 0) s.dev.gddr.recal w.val = n.val ∧ gdState s.dev w.val n.val = 1 ∧ ∀ i : Fin 3, gdState s.dev w.val i.val ≠ 2 :=
  ⟨1, 0, up.onDev (fun d => d.setGdState 1 0 1), by decide⟩

theorem witness_MemoryRuns_gdRecalDone : ∃ (w : Fin 8) (dev : Fin 3) (s : State),
    gdState s.dev w.val dev.val = 2 ∧ s.dev.gdStopped w.val dev.val = false ∧ SMap.get (fun _ => []) s.dev.gddr.waits (w.val * 3 + dev.val) = [] ∧ quiet s.dev :=
  ⟨1, 0, up.onDev (fun d => d.setGdState 1 0 2), by decide⟩

theorem witness_MemoryRuns_gdLineRead : ∃ (addr : BitVec 48) (u : MemUser) (s : State),
    rangeWaits s.dev (addr.toNat / 64 * 64) 64 = none ∧ gdCheck s.dev u (addr.toNat / 64 * 64) 64 = OK ∧ s.dev.gddr.bad = [] ∧ s.dev.armedFirst (0x090 + addr.toNat / 64 * 64 / 2 ^ 34) [0, 1] = none :=
  ⟨0x400000040, ⟨0, true, false, 16⟩, up, by decide⟩

theorem witness_MemoryRuns_gdLineWrite : ∃ (addr : BitVec 48) (bytes : List Byte) (u : MemUser) (s : State),
    bytes ≠ [] ∧ rangeWaits s.dev addr.toNat bytes.length = none ∧ gdCheck s.dev u addr.toNat bytes.length = OK ∧ s.dev.gddr.bad = [] ∧ s.dev.armedFirst (0x090 + addr.toNat / 2 ^ 34) [0, 1] = none :=
  ⟨0x400000043, [1, 2, 3], ⟨0, true, false, 16⟩, up, by decide⟩

theorem witness_MemoryRuns_gdPatrol : ∃ (w : Fin 8) (dev : Fin 3) (err : LineErr) (s : State),
    s.dev.rd (rkey (0x090 + w.val) 0x0A0) ≠ 0 ∧ gdState s.dev w.val dev.val = 1 ∧ s.dev.gdStopped w.val dev.val = false :=
  ⟨1, 0, .uncorrectable, up.onDev (fun d => (d.setGdState 1 0 1).wr (rkey 0x091 0x0A0) 5), by decide⟩

theorem witness_MemoryRuns_wngRegionWrite : ∃ (master : Byte) (w : Fin 8) (n : Fin 16) (value : Word) (s : State),
    writeTaken s.dev master.toNat (mAddr (rkey (0x008 + w.val) (0x080 + 8 * n.val))) 32 value.toNat :=
  ⟨1, 1, 2, 0x00010001, up, by decide⟩

theorem witness_CopyRuns_copySubmit : ∃ (master : Byte) (n : Fin 8) (value : Word) (s : State),
    writeTaken s.dev master.toNat (mAddr (ceKey Reg.CEL_CE_SUBMIT n.val)) 32 value.toNat ∧ (copyEng s.dev n.val).queue.length < 16 ∧ gdSound s.dev (ceUser s.dev n.val) (value.toNat * 64) 64 :=
  ⟨1, 2, 0x10000001, up, by decide⟩

theorem witness_CopyRuns_celCeTenantWrite : ∃ (master : Byte) (n : Fin 8) (value : Word) (s : State),
    writeTaken s.dev master.toNat (mAddr (ceKey Reg.CEL_CE_TENANT n.val)) 32 value.toNat ∧ (copyEng s.dev n.val).queue = [] :=
  ⟨1, 2, 5, up, by decide⟩

theorem witness_CopyRuns_copyStart : ∃ (n : Fin 8) (op : CopyOp) (rest : List CopyOp) (s : State),
    (copyEng s.dev n.val).running = false ∧ (copyEng s.dev n.val).queue = op :: rest ∧ copyWaits s n.val op = false ∧ gdHeld s.dev op.addr 64 = false ∧ copyInvalid s.dev op = false ∧ op.total ≠ 0 ∧ ((cellarPort op.dst).isSome = true ∨ (op.code = 1 ∧ (cellarPort op.src).isSome = true) ∨ (copyMove (s.onDev (fun d => d.setCopyEng n.val { copyEng d n.val with running := true })) op (ceUser s.dev n.val) (op.total / 64) 0).1 = OK) :=
  ⟨2, ⟨[0x30000000, 64, 0, 0, 0x40, 4, 0xABCD], 0x400000000⟩, [], (up.onDev (fun d => d.setCopyEng 2 ⟨[⟨[0x30000000, 64, 0, 0, 0x40, 4, 0xABCD], 0x400000000⟩], false, 0, none, none, none⟩)), by decide⟩

theorem witness_CopyRuns_cellarUnitAccess : ∃ (n : Fin 8) (op : CopyOp) (rest : List CopyOp) (p key : Nat) (data : List Byte) (s : State),
    copyEng s.dev n.val = ⟨op :: rest, true, (copyEng s.dev n.val).moved, some data, none, none⟩ ∧ (copyEng s.dev n.val).moved < op.total ∧ portsStopped s.dev op = false ∧ copyWaits s n.val op = false ∧ cellarPort op.dst = some p ∧ stale s.dev (celPage s.dev p (cellarUnit (op.dst + (copyEng s.dev n.val).moved) / 512)) = false ∧ s.dev.celCheck p (cellarUnit (op.dst + (copyEng s.dev n.val).moved)) (ceUser s.dev n.val) true .clean = (OK, some key, s.dev) :=
  ⟨2, ⟨[0x10000000, 4096, 0, 4, 0, 0x8000], 0x400000000⟩, [], 0, 7, [1], cellar, by decide⟩

theorem witness_CopyRuns_cxlTimeout : ∃ (p : Fin 4) (n : Fin 8) (s : State),
    s.dev.powered.core = true ∧ (copyEng s.dev n.val).running = true ∧ (copyEng s.dev n.val).failed = none :=
  ⟨0, 2, cellar, by decide⟩

theorem witness_CopyRuns_copyComplete : ∃ (n : Fin 8) (op : CopyOp) (rest : List CopyOp) (s : State),
    (copyEng s.dev n.val).running = true ∧ (copyEng s.dev n.val).failed = none ∧ (copyEng s.dev n.val).queue = op :: rest ∧ op.total ≤ (copyEng s.dev n.val).moved ∧ gdHeld s.dev op.addr 64 = false ∧ gdSound s.dev (ceUser s.dev n.val) (op.addr + 60) 4 :=
  ⟨2, ⟨[0x10000000, 4096, 0, 4, 0, 0x8000], 0x400000000⟩, [], cellar.onDev (fun d => d.setCopyEng 2 { copyEng d 2 with moved := 4096 }), by decide⟩

theorem witness_CopyRuns_copyFailDone : ∃ (n : Fin 8) (op : CopyOp) (rest : List CopyOp) (st : Nat) (s : State),
    (copyEng s.dev n.val).running = true ∧ (copyEng s.dev n.val).failed = some st ∧ (copyEng s.dev n.val).queue = op :: rest ∧ cellarPort op.dst = none ∧ gdHeld s.dev op.addr 64 = false ∧ gdSound s.dev (ceUser s.dev n.val) (op.addr + 60) 4 :=
  ⟨2, ⟨[0x10000000, 4096, 0, 4, 0, 4], 0x400000000⟩, [], MEM_UE, up.onDev (fun d => d.setCopyEng 2 ⟨[⟨[0x10000000, 4096, 0, 4, 0, 4], 0x400000000⟩], true, 0, none, none, some MEM_UE⟩), by decide⟩

theorem witness_CopyRuns_copyFailDone_2 : ∃ (n : Fin 8) (op : CopyOp) (rest : List CopyOp) (st p : Nat) (s : State),
    (copyEng s.dev n.val).running = true ∧ (copyEng s.dev n.val).failed = some st ∧ (copyEng s.dev n.val).queue = op :: rest ∧ cellarPort op.dst = some p ∧ gdHeld s.dev op.addr 64 = false ∧ gdSound s.dev (ceUser s.dev n.val) (op.addr + 60) 4 :=
  ⟨2, ⟨[0x10000000, 8192, 0, 4, 0, 0x8000], 0x400000000⟩, [], MEM_UE, 0, up.onDev (fun d => d.setCopyEng 2 ⟨[⟨[0x10000000, 8192, 0, 4, 0, 0x8000], 0x400000000⟩], true, 4096, none, none, some MEM_UE⟩), by decide⟩

theorem witness_CopyRuns_copyFault : ∃ (n : Fin 8) (op : CopyOp) (rest : List CopyOp) (s : State),
    (copyEng s.dev n.val).running = true ∧ (copyEng s.dev n.val).queue = op :: rest ∧ s.dev.powered.core = true ∧ ((op.total ≤ (copyEng s.dev n.val).moved ∧ (copyEng s.dev n.val).failed = none) ∨ ((copyEng s.dev n.val).failed.isSome = true ∧ cellarPort op.dst = none)) :=
  ⟨2, ⟨[0x10000000, 4096, 0, 4, 0, 0x8000], 0x400000000⟩, [], cellar.onDev (fun d => d.setCopyEng 2 { copyEng d 2 with moved := 4096 }), by decide⟩

theorem witness_CellarRuns_retrain : ∃ (master : Byte) (mask : BitVec 4) (p : Fin 4) (s : State),
    writeTaken s.dev master.toNat (mAddr (rkey 0x04C 0x010)) 32 mask.toNat ∧ mask.toNat.testBit p.val = true ∧ celPort s.dev p.val = 4 :=
  ⟨1, 2, 1, up.onDev (fun d => d.setCelPort 1 4), by decide⟩

theorem witness_CellarRuns_celPortTrained : ∃ (p : Fin 4) (how : CelTrained) (s : State),
    how ≠ .failed ∧ celPort s.dev p.val = 1 ∧ s.dev.powered.core = true ∧ s.dev.cxlStopped p.val = false ∧ (celSweep s.dev p.val).resume = false :=
  ⟨1, .full, up.onDev (fun d => d.setCelPort 1 1), by decide⟩

theorem witness_CellarRuns_celPortTrained_2 : ∃ (p : Fin 4) (s : State),
    celPort s.dev p.val = 1 ∧ s.dev.powered.core = true ∧ s.dev.cxlStopped p.val = false :=
  ⟨1, up.onDev (fun d => d.setCelPort 1 1), by decide⟩

theorem witness_CellarRuns_celPageGive : ∃ (master : Byte) (p : Fin 4) (n : BitVec 20) (system : Bool) (tenant : Fin 512) (s : State),
    writeTaken s.dev master.toNat (celEntryAddr p.val n.toNat) 32 (2 ^ 31 + b2n system * 2 ^ 29 + tenant.val * 2 ^ 20) ∧ n.toNat + 1 < celCap s.dev p.val ∧ (celPage s.dev p.val n.toNat).scrubbing = false ∧ (celPage s.dev p.val n.toNat).valid = false :=
  ⟨1, 0, 1, false, 5, cellar, by decide⟩

theorem witness_CellarRuns_celPageRelease : ∃ (master : Byte) (p : Fin 4) (n : BitVec 20) (s : State),
    writeTaken s.dev master.toNat (celEntryAddr p.val n.toNat) 32 0 ∧ n.toNat + 1 < celCap s.dev p.val :=
  ⟨1, 0, 0, cellar, by decide⟩

theorem witness_CellarRuns_celReleaseFillDone : ∃ (p : Fin 4) (n : BitVec 20) (s : State),
    (celPage s.dev p.val n.toNat).scrubbing = true ∧ celUp s.dev p.val = true ∧ s.dev.cxlStopped p.val = false :=
  ⟨0, 1, cellar.onDev (fun d => d.setCelPage 0 1 ⟨false, false, true, 0, false, true, false⟩), by decide⟩

theorem witness_CellarRuns_sweepUnitRead : ∃ (p : Fin 4) (page unit : Nat) (s : State),
    celUp s.dev p.val = true ∧ s.dev.cxlStopped p.val = false ∧ page < 2 ^ 20 ∧ unit < 512 ∧ sweepReg s.dev p.val = 2 ^ 31 + page * 2 ^ 9 + unit ∧ stale s.dev (celPage s.dev p.val page) = true :=
  ⟨0, 1, 3, cellar.onDev (fun d => d.setSweepReg 0 true false 1 3 |>.setCelPage 0 1 ⟨true, true, true, 0, true, false, false⟩), by decide⟩

theorem witness_CellarRuns_sweepUnitRead_2 : ∃ (p : Fin 4) (page unit : Nat) (s : State),
    celUp s.dev p.val = true ∧ s.dev.powered.core = true ∧ s.dev.cxlStopped p.val = false ∧ page < 2 ^ 20 ∧ unit < 512 ∧ sweepReg s.dev p.val = 2 ^ 31 + page * 2 ^ 9 + unit ∧ stale s.dev (celPage s.dev p.val page) = true :=
  ⟨0, 1, 3, cellar.onDev (fun d => d.setSweepReg 0 true false 1 3 |>.setCelPage 0 1 ⟨true, true, true, 0, true, false, false⟩), by decide⟩

theorem witness_CellarRuns_sweepJournalAck : ∃ (p : Fin 4) (page unit old new : Nat) (data : List Byte) (s : State),
    s.dev.cxlStopped p.val = false ∧ page < 2 ^ 20 ∧ unit < 512 ∧ sweepReg s.dev p.val = 2 ^ 31 + page * 2 ^ 9 + unit ∧ (celSweep s.dev p.val).staging = some (.enc old (celTweak p.val (page * 512 + unit)) data) ∧ s.mem.unit p.val (page * 512 + unit) = .enc old (celTweak p.val (page * 512 + unit)) data ∧ celKeyOf s.dev (celPage s.dev p.val page).system (celPage s.dev p.val page).tenant = ⟨some old, some new, true, true, 1⟩ :=
  ⟨0, 0, 3, 7, 8, [1], { cellar with mem := cellar.mem.setUnit 0 3 (.enc 7 3 [1]), dev := ({ cellar.dev with cel := { cellar.dev.cel with sysKey := ⟨some 7, some 8, true, true, 1⟩ } } : Dev).setSweepReg 0 true false 0 3 |>.setCelSweep 0 ⟨some (.enc 7 3 [1]), [], none, false⟩ }, by decide⟩

theorem witness_CellarRuns_sweepUnitDone : ∃ (p : Fin 4) (page unit : Nat) (s : State),
    s.dev.cxlStopped p.val = false ∧ page < 2 ^ 20 ∧ unit < 511 ∧ sweepReg s.dev p.val = 2 ^ 31 + 2 ^ 30 + page * 2 ^ 9 + unit ∧ stale s.dev (celPage s.dev p.val page) = true :=
  ⟨0, 0, 3, cellar.onDev (fun d => ({ d with cel := { d.cel with sysKey := ⟨some 7, some 8, true, true, 1⟩ } } : Dev).setSweepReg 0 true true 0 3), by decide⟩

theorem witness_CellarRuns_slotRetire : ∃ (s : State),
    s.dev.cel.sysKey.rotating = true ∧ s.dev.cel.sysKey.count = 0 :=
  ⟨up.onDev (fun d => { d with cel := { d.cel with sysKey := ⟨some 7, some 8, true, true, 0⟩ } }), by decide⟩

theorem witness_CellarRuns_slotRetire_2 : ∃ (tenant : Fin 512) (s : State),
    (celKeyOf s.dev false tenant.val).rotating = true ∧ (celKeyOf s.dev false tenant.val).count = 0 :=
  ⟨5, up.onDev (fun d => d.setCelKey false 5 ⟨some 7, some 8, true, true, 0⟩), by decide⟩

theorem witness_TilesRun_kblockDone : ∃ (i : Fin 512) (e : ArrExec) (b : BlkPos) (l : List LandRow × List LandRow × ArrExec × Rd) (s : State),
    s.dev.arr.exec = some e ∧ (tile s.dev i.val).blk = some b ∧ e.failed = none ∧ tileStopped s.dev i.val = false ∧ portsRun s.dev i.val = true ∧ (tile s.dev i.val).kdone < kBlocks e.op.d b ∧ (∀ n : Fin 3, s.dev.armedFirst (0x400 + i.val) [n.val] = none) ∧ l = landBlock s.mem e i.val b (tile s.dev i.val).kdone (Rd.start s.dev) ∧ l.2.2.2.wait = false ∧ l.2.2.2.st = OK :=
  ⟨64, gemmExec, ⟨0, 0, 0, false⟩, landBlock up.mem gemmExec 64 ⟨0, 0, 0, false⟩ 0 (Rd.start (arrWith gemmExec 0).dev), arrWith gemmExec 0, by decide, by decide, by decide, by decide, by decide, by decide, by decide, rfl, by decide, by decide⟩

theorem witness_TilesRun_tileBlockDone : ∃ (i : Fin 512) (e : ArrExec) (b : BlkPos) (s : State),
    s.dev.arr.exec = some e ∧ (tile s.dev i.val).blk = some b ∧ e.failed = none ∧ tileStopped s.dev i.val = false ∧ kBlocks e.op.d b ≤ (tile s.dev i.val).kdone ∧ ¬ (e.op.d.code = 4 ∧ b.second = false) ∧ (∀ n : Fin 3, s.dev.armedFirst (0x400 + i.val) [n.val] = none) ∧ (epiIn s.mem e.op b (Rd.start s.dev)).2.wait = false ∧ (epiIn s.mem e.op b (Rd.start s.dev)).2.st = OK :=
  ⟨64, gemmExec, ⟨0, 0, 0, false⟩, arrWith gemmExec 1, by decide⟩

theorem witness_TilesRun_tileBlockDone_2 : ∃ (i : Fin 512) (e : ArrExec) (b : BlkPos) (s : State),
    s.dev.arr.exec = some e ∧ (tile s.dev i.val).blk = some b ∧ e.failed = none ∧ tileStopped s.dev i.val = false ∧ kBlocks e.op.d b ≤ (tile s.dev i.val).kdone ∧ (∀ n : Fin 3, s.dev.armedFirst (0x400 + i.val) [n.val] = none) ∧ e.op.d.code = 4 ∧ b.second = false :=
  ⟨64, { gemmExec with op := { gemm with words := 0x41100000 :: gemm.words.tail } }, ⟨0, 0, 0, false⟩, arrWith { gemmExec with op := { gemm with words := 0x41100000 :: gemm.words.tail } } 1, by decide⟩

theorem witness_TilesRun_operandTimeout : ∃ (i : Fin 512) (e : ArrExec) (s : State),
    s.dev.arr.exec = some e ∧ e.failed = none ∧ (tile s.dev i.val).blk.isSome = true ∧ tileStopped s.dev i.val = false ∧ s.dev.domainOn (0x400 + i.val) = true :=
  ⟨64, gemmExec, arrWith gemmExec 0, by decide⟩

theorem witness_TilesRun_tileClearDone : ∃ (i : Fin 512) (s : State),
    (tile s.dev i.val).st = .clearing ∧ tileStopped s.dev i.val = false :=
  ⟨64, up.onDev (fun d => d.setTile 64 ⟨.clearing, false, none, 0, [], [], [], [], [], [], []⟩), by decide⟩

theorem witness_TilesRun_clearFault : ∃ (i : Fin 512) (s : State),
    (tile s.dev i.val).st = .clearing ∧ s.dev.domainOn (0x400 + i.val) = true :=
  ⟨64, up.onDev (fun d => d.setTile 64 ⟨.clearing, false, none, 0, [], [], [], [], [], [], []⟩), by decide⟩

theorem witness_TilesRun_pllUnlock : ∃ (c : Fin 64) (s : State),
    s.dev.domainOn (0x600 + c.val) = true :=
  ⟨9, up, by decide⟩

theorem witness_TilesRun_park : ∃ (master : Byte) (i : Fin 512) (value : Bool) (s : State),
    writeTaken s.dev master.toNat (mAddr (rkey (0x400 + i.val) 0x010)) 32 (b2n value) :=
  ⟨1, 64, true, up, by decide⟩

theorem witness_ArrayRuns_arrSubmit : ∃ (master : Byte) (value : Word) (s : State),
    writeTaken s.dev master.toNat (mAddr Reg.ARR_SUBMIT) 32 value.toNat ∧ value.toNat.testBit 31 = false ∧ value.toNat.testBit 30 = false ∧ arrQueued s.dev < 64 ∧ gdSound s.dev (arrUser s.dev false) (value.toNat * 128) 128 :=
  ⟨1, 0x8000001, up, by decide⟩

theorem witness_ArrayRuns_arrOpStart : ∃ (op : ArrOp) (rest : List ArrOp) (d : Dev) (s : State),
    s.dev.arr.exec = none ∧ s.dev.arr.held = none ∧ s.dev.arr.queue = op :: rest ∧ (s.dev.rd (rkey 0x080 0x010)).testBit 1 = false ∧ (s.dev.rd Reg.ARR_CPL_SIZE = 0 ∨ ringFull s.dev = false) ∧ cplWaits s.dev = false ∧ d = { s.dev.fixParking with arr := { s.dev.arr with queue := rest } } ∧ arrDetail d op = 0 ∧ op.d.noOutput = false ∧ op.d.dest ≠ 1 ∧ (upFrom 0 512).all (tileHole d) = false :=
  ⟨gemm, [], { up.dev.fixParking with arr := { up.dev.arr with queue := [] }, tiles := [(64, ⟨.idle, false, none, 0, [], [], [], [], [], [], []⟩)] }, up.onDev (fun d => { d.setTile 64 ⟨.idle, false, none, 0, [], [], [], [], [], [], []⟩ with arr := { d.arr with queue := [gemm] } }), by decide +kernel⟩

theorem witness_ArrayRuns_passDone : ∃ (e : ArrExec) (p : ArrPass) (s : State),
    s.dev.arr.exec = some e ∧ e.cur = some p ∧ e.left = [] :=
  ⟨{ gemmExec with left := [] }, ⟨.main, [(64, ⟨0, 0, 0, false⟩)], 0, 0⟩, arrWith { gemmExec with left := [] } 0, by decide⟩

theorem witness_ArrayRuns_arrWindowEntry : ∃ (e : ArrExec) (i : Nat) (d : Dev) (s : State),
    s.dev.arr.exec = some e ∧ e.waitEntry = true ∧ e.failed = none ∧ arrTakeEntry s.dev e.op = some (i, d) :=
  ⟨{ gemmExec with waitEntry := true }, 0, ((arrTakeEntry (arrWith { gemmExec with waitEntry := true } 0).dev gemm).get (by decide)).2, arrWith { gemmExec with waitEntry := true } 0, by decide⟩

theorem witness_ArrayRuns_arrOutputAck : ∃ (n a : Nat) (bs : List Byte) (w : ArrOut) (e : ArrExec) (s : State),
    s.dev.arr.exec = some e ∧ e.unacked.find? (fun w => w.n == n) = some w ∧ w.what = .loc a bs ∧ bs ≠ [] ∧ gdSound s.dev (arrUser s.dev false) a bs.length :=
  ⟨0, 0x400002000, [1, 2, 3, 4], ⟨0, 0, .loc 0x400002000 [1, 2, 3, 4]⟩, gemmWrote, arrWith gemmWrote 1, by decide⟩

theorem witness_ArrayRuns_arrOutputAck_2 : ∃ (n a : Nat) (bs : List Byte) (w : ArrOut) (e : ArrExec) (s : State),
    s.dev.arr.exec = some e ∧ e.unacked.find? (fun w => w.n == n) = some w ∧ w.what = .window a bs ∧ e.entry = none :=
  ⟨0, 0x100, [1], ⟨0, 0, .window 0x100 [1]⟩, { gemmWrote with unacked := [⟨0, 0, .window 0x100 [1]⟩] }, arrWith { gemmWrote with unacked := [⟨0, 0, .window 0x100 [1]⟩] } 1, by decide⟩

theorem witness_ArrayRuns_arrOutputAck_3 : ∃ (n a i : Nat) (bs : List Byte) (w : ArrOut) (e : ArrExec) (s : State),
    s.dev.arr.exec = some e ∧ e.unacked.find? (fun w => w.n == n) = some w ∧ w.what = .window a bs ∧ e.entry = some i ∧ (optEntry s.dev i).bad = false ∧ s.dev.armedFirst 0x038 [0, 1] = none ∧ (optEntry s.dev i).owner = 1 ∧ (optEntry s.dev i).done ≤ n ∧ n < (optEntry s.dev i).done + 65535 ∧ n + 1 ≤ (optEntry s.dev i).sent :=
  ⟨0, 0x100, 0, [1], ⟨0, 0, .window 0x100 [1]⟩, { gemmWrote with unacked := [⟨0, 0, .window 0x100 [1]⟩], entry := some 0 }, (arrWith { gemmWrote with unacked := [⟨0, 0, .window 0x100 [1]⟩], entry := some 0 } 1).onDev (fun d => d.setOpt 0 ⟨1, 0, 0, 2, 0, 0, 0, 4, 6, 1, 4, 1, false⟩), by decide⟩

theorem witness_ArrayRuns_arrOpComplete : ∃ (e : ArrExec) (a : Nat) (s : State),
    s.dev.arr.exec = some e ∧ e.complete = true ∧ s.dev.arr.queue.all (fun o => !o.dead) = true ∧ s.dev.rd Reg.ARR_CPL_SIZE ≠ 0 ∧ ringFull s.dev = false ∧ a = s.dev.rd Reg.ARR_CPL_BASE_LO + bits (s.dev.rd Reg.ARR_CPL_BASE_HI) 15 0 * 2 ^ 32 + 32 * (s.dev.rd Reg.ARR_CPL_HEAD % 2 ^ s.dev.rd Reg.ARR_CPL_SIZE) ∧ gdSound s.dev (arrUser s.dev false) a 32 :=
  ⟨gemmEnd, 0x400004000, ring (arrWith gemmEnd 1), by decide⟩

theorem witness_ArrayRuns_arrCplTail : ∃ (master : Byte) (value : Word) (s : State),
    writeTaken s.dev master.toNat (mAddr Reg.ARR_CPL_TAIL) 32 value.toNat ∧ s.dev.arr.held = none :=
  ⟨1, 0, up, by decide⟩

theorem witness_ArrayRuns_cplWrite : ∃ (e : ArrExec) (s : State),
    s.dev.powered.core = true ∧ s.dev.arr.exec = some e ∧ e.complete = true ∧ s.dev.arr.queue.all (fun o => !o.dead) = true ∧ s.dev.rd Reg.ARR_CPL_SIZE ≠ 0 ∧ ringFull s.dev = false :=
  ⟨gemmEnd, ring (arrWith gemmEnd 1), by decide⟩

theorem witness_ArrayRuns_arrFlush : ∃ (master : Byte) (hold : Bool) (e : ArrExec) (s : State),
    writeTaken s.dev master.toNat (mAddr (rkey 0x080 0x010)) 32 (1 + 2 * b2n hold) ∧ s.dev.arr.exec = some e ∧ e.failed = none :=
  ⟨1, true, gemmExec, arrWith gemmExec 0, by decide⟩

theorem witness_ArrayRuns_arrHold : ∃ (master : Byte) (hold : Bool) (s : State),
    writeTaken s.dev master.toNat (mAddr (rkey 0x080 0x010)) 32 (2 * b2n hold) :=
  ⟨1, true, up, by decide⟩

theorem witness_ArrayRuns_arrTenantWrite : ∃ (master : Byte) (value : Word) (s : State),
    writeTaken s.dev master.toNat (mAddr Reg.ARR_TENANT) 32 value.toNat ∧ arrState s.dev = 0 ∧ s.dev.arr.queue = [] :=
  ⟨1, 5, up, by decide⟩

theorem witness_ArrayRuns_arrStallTimeout : ∃ (e : ArrExec) (s : State),
    s.dev.powered.core = true ∧ s.dev.arr.exec = some e ∧ e.failed = none ∧ e.began.isSome = true :=
  ⟨gemmExec, arrWith gemmExec 0, by decide⟩

theorem witness_ArrayRuns_arrFailDrained : ∃ (e : ArrExec) (st : Nat) (s : State),
    s.dev.arr.exec = some e ∧ e.failed = some st ∧ e.unacked = [] ∧ s.dev.arr.queue.all (fun o => !o.dead) = true ∧ (s.dev.rd Reg.ARR_CPL_SIZE = 0 ∨ ringFull s.dev = true) :=
  ⟨{ gemmEnd with failed := some TIMEOUT, waitEntry := true }, TIMEOUT, arrWith { gemmEnd with failed := some TIMEOUT, waitEntry := true } 1, by decide⟩

theorem witness_ArrayRuns_handshake : ∃ (part : HandshakePart) (e : ArrExec) (s : State),
    s.dev.arr.exec = some e ∧ e.failed = none ∧ s.dev.powered.core = true ∧ s.dev.domainOn (match part with | .tile i => 0x400 + i.val | _ => 0x080) = true :=
  ⟨.tile 64, gemmExec, arrWith gemmExec 0, by decide⟩

theorem witness_LinkTrainingRuns_lnkRetryInterval : ∃ (p : Fin 6) (s : State),
    (portOf s.dev p.val).st = .down ∧ lnkEnabled s.dev p.val = true ∧ portsBarred s.dev = false ∧ s.dev.domainOn (lnkPage p.val) = true :=
  ⟨0, port Lnk.reset, by decide⟩

theorem witness_LinkTrainingRuns_detectDone : ∃ (p : Fin 6) (rates : BitVec 2) (s : State),
    (portOf s.dev p.val).st = .detect ∧ (if compatAllow s.dev p.val then 3 else 2) &&& rates.toNat ≠ 0 :=
  ⟨0, 3, port (lnkIn .detect), by decide⟩

theorem witness_LinkTrainingRuns_equalizeDone : ∃ (p : Fin 6) (lanes : BitVec 24) (m : Nat) (s : State),
    (portOf s.dev p.val).st = .equalize ∧ m = (if (portOf s.dev p.val).slow then lanes.toNat % 2 ^ 16 else lanes.toNat) ∧ s.dev.rd (lnkReg p.val 0x088) ≤ popCount 24 m :=
  ⟨0, 0xFFFFFF, 0xFFFFFF, port (lnkIn .equalize), by decide⟩

theorem witness_LinkTrainingRuns_alignDone : ∃ (p : Fin 6) (delay : BitVec 16) (peer : BitVec 24) (s : State),
    (portOf s.dev p.val).st = .align ∧ delay.toNat ≤ 250 :=
  ⟨0, 100, 0xFFFFFF, port (lnkIn .align), by decide⟩

theorem witness_LinkTrainingRuns_introResend : ∃ (p : Fin 6) (s : State),
    (portOf s.dev p.val).st = .intro :=
  ⟨0, port (lnkIn .intro), by decide⟩

theorem witness_LinkTrainingRuns_introFrame : ∃ (p : Fin 6) (f : RxFrame) (i : Intro) (s : State),
    (portOf s.dev p.val).st = .intro ∧ portRuns s.dev p.val = true ∧ s.dev.rxCheck p.val f = (0, s.dev) ∧ ((portOf s.dev p.val).intro = none ∨ (portOf s.dev p.val).intro = some i) :=
  ⟨0, goodFrame, peer 7, port (lnkIn .intro), by decide⟩

theorem witness_LinkTrainingRuns_introDone : ∃ (p : Fin 6) (i : Intro) (s : State),
    (portOf s.dev p.val).st = .intro ∧ (portOf s.dev p.val).intro = some i ∧ (portOf s.dev p.val).echoed = true ∧ i.serial ≠ Config.serial :=
  ⟨0, peer (Config.serial + 1), port { lnkIn .intro with intro := some (peer (Config.serial + 1)), echoed := true }, by decide, rfl, by decide, by simp [peer]⟩

theorem witness_LinkTrainingRuns_introDone_2 : ∃ (p : Fin 6) (i : Intro) (s : State),
    (portOf s.dev p.val).st = .intro ∧ (portOf s.dev p.val).intro = some i ∧ (portOf s.dev p.val).echoed = true ∧ i.serial = Config.serial ∧ s.dev.domainOn (lnkPage p.val) = true :=
  ⟨0, peer Config.serial, port { lnkIn .intro with intro := some (peer Config.serial), echoed := true }, by decide, rfl, by decide, rfl, by decide⟩

theorem witness_LinkTrainingRuns_kx1 : ∃ (p : Fin 6) (m : KeyMsg) (i : Intro) (s : State),
    (portOf s.dev p.val).st = .keying ∧ (portOf s.dev p.val).intro = some i ∧ ¬ Config.serial < i.serial ∧ m.valid = true ∧ peerAccepted s.dev i.serial (keyChain m) = true ∧ keyingAllowed s.dev = true ∧ portRuns s.dev p.val = true ∧ s.dev.keyFrames p.val m.frames = (0, s.dev) :=
  ⟨0, keyFrom 0, peer 0, port { lnkIn .keying with intro := some (peer 0) }, by decide, rfl, by simp [peer], rfl, keyFrom_accepted (d := (port { lnkIn .keying with intro := some (peer 0) }).dev) 0 rfl rfl rfl, by decide, by decide, keyFrom_frames 0 ⟨rfl, rfl⟩⟩

theorem witness_LinkTrainingRuns_kx2 : ∃ (p : Fin 6) (m : KeyMsg) (i : Intro) (s : State),
    (portOf s.dev p.val).st = .keying ∧ (portOf s.dev p.val).intro = some i ∧ Config.serial < i.serial ∧ m.valid = true ∧ peerAccepted s.dev i.serial (keyChain m) = true ∧ keyingAllowed s.dev = true ∧ portRuns s.dev p.val = true ∧ s.dev.keyFrames p.val m.frames = (0, s.dev) :=
  ⟨0, keyFrom (Config.serial + 1), peer (Config.serial + 1), port { lnkIn .keying with intro := some (peer (Config.serial + 1)) }, by decide, rfl, by simp [peer], rfl, keyFrom_accepted (d := (port { lnkIn .keying with intro := some (peer (Config.serial + 1)) }).dev) _ rfl rfl rfl, by decide, by decide, keyFrom_frames _ ⟨rfl, rfl⟩⟩

theorem witness_LinkTrainingRuns_kx3 : ∃ (p : Fin 6) (m : KeyMsg) (i : Intro) (k : Nat) (s : State),
    (portOf s.dev p.val).st = .keying ∧ (portOf s.dev p.val).intro = some i ∧ (portOf s.dev p.val).secret = some k ∧ m.valid = true ∧ keyingAllowed s.dev = true ∧ portRuns s.dev p.val = true ∧ s.dev.keyFrames p.val m.frames = (0, s.dev) :=
  ⟨0, keyFrom 0, peer 0, 9, port { lnkIn .keying with intro := some (peer 0), secret := some 9 }, by decide, by decide, by decide, rfl, by decide, by decide, keyFrom_frames 0 ⟨rfl, rfl⟩⟩

theorem witness_LinkTrainingRuns_lnkTrainTimeout : ∃ (p : Fin 6) (s : State),
    (portOf s.dev p.val).st.training = true :=
  ⟨0, port (lnkIn .align), by decide⟩

theorem witness_LinkTrainingRuns_admitPort : ∃ (master : Byte) (p : Fin 6) (s : State),
    writeTaken s.dev master.toNat (mAddr (lnkReg p.val 0x0BC)) 32 1 ∧ ((portOf s.dev p.val).st = .held ∨ (portOf s.dev p.val).st = .miswired) :=
  ⟨1, 0, port (lnkIn .held), by decide⟩

theorem witness_LinkTrainingRuns_markMiswired : ∃ (master : Byte) (p : Fin 6) (s : State),
    writeTaken s.dev master.toNat (mAddr (lnkReg p.val 0x0BC)) 32 2 ∧ (portOf s.dev p.val).st = .held :=
  ⟨1, 0, port (lnkIn .held), by decide⟩

theorem witness_LinkTrainingRuns_linkRetrain : ∃ (master : Byte) (p : Fin 6) (s : State),
    writeTaken s.dev master.toNat (mAddr (lnkReg p.val 0x010)) 32 (lnkCtrlKept s.dev p.val + 2) ∧ lnkEnabled s.dev p.val = true ∧ portsBarred s.dev = false :=
  ⟨1, 0, port (lnkIn .up), by decide⟩

theorem witness_LinkTrainingRuns_enablePort : ∃ (master : Byte) (p : Fin 6) (enable compat : Bool) (s : State),
    writeTaken s.dev master.toNat (mAddr (lnkReg p.val 0x010)) 32 (b2n enable + 16 * b2n compat) :=
  ⟨1, 0, false, true, port (lnkIn .up), by decide⟩

theorem witness_LinkFramesRun_dataFrame : ∃ (p : Fin 6) (f : RxFrame) (s : State),
    framesPass s.dev p.val ∧ s.dev.rxCheck p.val f = (0, s.dev) ∧ frameTagged f = true ∧ s.dev.armed (lnkPage p.val) 3 = false ∧ keyHeld (portOf s.dev p.val) f = true ∧ f.seq = (portOf s.dev p.val).expect :=
  ⟨0, goodFrame, port (lnkIn .up), by decide, by decide +kernel, by decide, by decide, by decide, by decide⟩

theorem witness_LinkFramesRun_ctrlFrame : ∃ (p : Fin 6) (f : RxFrame) (c : CtrlFields) (s : State),
    (portOf s.dev p.val).carries = true ∧ portRuns s.dev p.val = true ∧ (s.dev.acceptCtrl p.val f c).1 = true :=
  ⟨0, ctrlRx, fields, port (lnkIn .up), by decide, by decide, by decide +kernel⟩

theorem witness_LinkFramesRun_nakFrame : ∃ (p : Fin 6) (f : RxFrame) (c : CtrlFields) (s : State),
    (portOf s.dev p.val).carries = true ∧ portRuns s.dev p.val = true ∧ (s.dev.acceptCtrl p.val f c).1 = true ∧ (portOf s.dev p.val).replaying = none :=
  ⟨0, ctrlRx, fields, port { lnkIn .up with retry := [sentFrame] }, by decide, by decide, by decide +kernel, by decide⟩

theorem witness_LinkFramesRun_rot : ∃ (p : Fin 6) (f : RxFrame) (c : CtrlFields) (k : LinkKey) (s : State),
    (portOf s.dev p.val).carries = true ∧ portRuns s.dev p.val = true ∧ (s.dev.acceptCtrl p.val f c).1 = true ∧ (portOf s.dev p.val).rx.slot ((portOf s.dev p.val).rx.gen + 1) = none ∧ (portOf s.dev p.val).rx.cur = some k ∧ c.gen = (portOf s.dev p.val).rx.gen + 1 :=
  ⟨0, ctrlRx, fields, ⟨6, 0⟩, port (lnkIn .up), by decide, by decide, by decide +kernel, by decide, by decide, by decide⟩

theorem witness_LinkFramesRun_rotack : ∃ (p : Fin 6) (f : RxFrame) (c : CtrlFields) (k : LinkKey) (nt : Nat) (s : State),
    (portOf s.dev p.val).carries = true ∧ portRuns s.dev p.val = true ∧ (s.dev.acceptCtrl p.val f c).1 = true ∧ (portOf s.dev p.val).rot = some (c.gen, nt) ∧ (portOf s.dev p.val).tx.cur = some k :=
  ⟨0, ctrlRx, fields, ⟨5, 0⟩, 3, port { lnkIn .up with rot := some (1, 3) }, by decide, by decide, by decide +kernel, by decide, by decide⟩

theorem witness_LinkFramesRun_nakRepeat : ∃ (p : Fin 6) (s : State),
    (portOf s.dev p.val).carries = true ∧ (portOf s.dev p.val).nak = true ∧ (portOf s.dev p.val).events + 1 ≤ s.dev.rd (lnkReg p.val 0x094) :=
  ⟨0, port { lnkIn .up with nak := true }, by decide⟩

theorem witness_LinkFramesRun_ctrlFrameDue : ∃ (p : Fin 6) (s : State),
    (portOf s.dev p.val).carries = true ∧ portRuns s.dev p.val = true :=
  ⟨0, port (lnkIn .up), by decide⟩

theorem witness_LinkFramesRun_rotate : ∃ (master : Byte) (p : Fin 6) (s : State),
    writeTaken s.dev master.toNat (mAddr (lnkReg p.val 0x010)) 32 (lnkCtrlKept s.dev p.val + 8) ∧ lnkEnabled s.dev p.val = true ∧ (portOf s.dev p.val).rot = none ∧ (portOf s.dev p.val).tx.cur.isSome = true ∧ (portOf s.dev p.val).carries = true :=
  ⟨1, 0, port (lnkIn .up), by decide⟩

theorem witness_LinkFramesRun_keyCountLimit : ∃ (p : Fin 6) (s : State),
    (portOf s.dev p.val).keyFrames (2 ^ keyLimit s.dev p.val) = true ∧ (portOf s.dev p.val).rot = none ∧ (portOf s.dev p.val).tx.cur.isSome = true ∧ (portOf s.dev p.val).carries = true :=
  ⟨0, port (wornKey (2 ^ 36)), by decide⟩

theorem witness_LinkFramesRun_rotResend : ∃ (p : Fin 6) (g n : Nat) (s : State),
    (portOf s.dev p.val).rot = some (g, n) ∧ (portOf s.dev p.val).carries = true :=
  ⟨0, 1, 3, port { lnkIn .up with rot := some (1, 3) }, by decide⟩

theorem witness_LinkFramesRun_keyLimit : ∃ (p : Fin 6) (s : State),
    (portOf s.dev p.val).carries = true ∧ (portOf s.dev p.val).keyFrames (2 ^ 39) = true :=
  ⟨0, port (wornKey (2 ^ 39)), by decide⟩

theorem witness_LinkFramesRun_silence : ∃ (p : Fin 6) (s : State),
    (portOf s.dev p.val).carries = true :=
  ⟨0, port (lnkIn .up), by decide⟩

theorem witness_LaneChangesRun_laneBad : ∃ (p : Fin 6) (lane : Fin 24) (s : State),
    ((portOf s.dev p.val).st.carries = true ∨ (portOf s.dev p.val).st = .hold) ∧ (s.dev.rd (lnkReg p.val 0x084)).testBit lane.val = true ∧ (portOf s.dev p.val).bad.testBit lane.val = false ∧ s.dev.domainOn (lnkPage p.val) = true :=
  ⟨0, 2, (port (lnkIn .up)).onDev (fun d => d.wr (lnkReg 0 0x084) 0xFFFFFF), by decide⟩

theorem witness_LaneChangesRun_laneChangeSet : ∃ (p : Fin 6) (mask : BitVec 24) (both : Nat) (s : State),
    ((portOf s.dev p.val).st.carries = true ∨ (portOf s.dev p.val).st = .hold) ∧ both = (portOf s.dev p.val).lanes &&& (0xFFFFFF ^^^ (((portOf s.dev p.val).bad ||| mask.toNat) % 2 ^ 24)) ∧ s.dev.rd (lnkReg p.val 0x088) ≤ chooseWidth (portOf s.dev p.val).slow both :=
  ⟨0, 1, 0xFFFFFE, (port (lnkIn .up)).onDev (fun d => d.wr (lnkReg 0 0x080) 0xFFFFFF), by decide⟩

theorem witness_LaneChangesRun_laneDeskewDone : ∃ (p : Fin 6) (s : State),
    (portOf s.dev p.val).st = .hold ∧ (portOf s.dev p.val).change = .chosen :=
  ⟨0, port { lnkIn .hold with change := .chosen }, by decide⟩

theorem witness_LaneChangesRun_laneReady : ∃ (p : Fin 6) (ack : BitVec 40) (s : State),
    (portOf s.dev p.val).st = .hold ∧ (portOf s.dev p.val).change = .ready :=
  ⟨0, 0, port { lnkIn .hold with change := .ready, saved := .up, retry := [sentFrame] }, by decide⟩

theorem witness_LaneChangesRun_holdTimeout : ∃ (p : Fin 6) (s : State),
    (portOf s.dev p.val).st = .hold :=
  ⟨0, port (lnkIn .hold), by decide⟩

theorem witness_LaneChangesRun_lockLost : ∃ (p : Fin 6) (s : State),
    (portOf s.dev p.val).st.carries = true ∨ (portOf s.dev p.val).st = .hold :=
  ⟨0, port (lnkIn .up), by decide⟩

theorem witness_LaneChangesRun_widen : ∃ (master : Byte) (p : Fin 6) (s : State),
    writeTaken s.dev master.toNat (mAddr (lnkReg p.val 0x010)) 32 (lnkCtrlKept s.dev p.val + 4) ∧ lnkEnabled s.dev p.val = true ∧ (portOf s.dev p.val).st.carries = true :=
  ⟨1, 0, port (lnkIn .up), by decide⟩

theorem witness_LaneChangesRun_widenEqualizeDone : ∃ (p : Fin 6) (lanes : BitVec 24) (m : Nat) (s : State),
    (portOf s.dev p.val).widening = true ∧ (portOf s.dev p.val).st.carries = true ∧ m = (if (portOf s.dev p.val).slow then lanes.toNat % 2 ^ 16 else lanes.toNat) :=
  ⟨0, 0xFFFFFF, 0xFFFFFF, port { lnkIn .up with widening := true }, by decide⟩

theorem witness_RouterRuns_packetInject : ∃ (p : Packet) (s : State),
    s.dev.stopped.contains .router = false ∧ p.ptype = ptMgmt ∧ p.phase = true ∧ p.allowed = true ∧ anyLive s.dev = true ∧ s.dev.lookup (b2n (liveBit s.dev)) p.dest = (.here, s.dev) :=
  ⟨mgmtTo5, live, by decide⟩

theorem witness_RouterRuns_packetInject_2 : ∃ (p : Packet) (q : Packet) (i : Fin 6) (s : State),
    s.dev.stopped.contains .router = false ∧ p.portAddressed = some i.val ∧ p.allowed = true ∧ q = { p with src := myMa s.dev, epoch := liveBit s.dev, dateline := (s.dev.rd Reg.RTR_DATELINE).testBit i.val } ∧ portTakes s.dev i.val q = true ∧ tokensLeft s.dev i.val ≠ 0 ∧ c0Wait s.dev i.val = [] ∧ c0Queued s.dev i.val < 35 ∧ SMap.get (fun _ => []) s.dev.rtr.c0in i.val = [] ∧ hasCredit (portOf s.dev i.val) q.vc = false :=
  ⟨mgmtToPort, { mgmtToPort with epoch := true }, 1, live, by decide⟩

theorem witness_RouterRuns_packetArrival : ∃ (p : Fin 6) (v : Fin 16) (pkt : Packet) (s : State),
    s.dev.stopped.contains .router = false ∧ pkt.length ≤ 4096 ∧ 1 ≤ pkt.ptype ∧ pkt.ptype ≤ 10 ∧ s.dev.armedFirst 0x028 [1, 2] = none ∧ pkt.phase = true ∧ pkt.passAlong = false ∧ bankState s.dev (b2n pkt.epoch) ≠ 0 ∧ s.dev.lookup (b2n pkt.epoch) pkt.dest = (.here, s.dev) ∧ (pkt.ptype = ptContrib ∨ pkt.ptype = ptResult → badKind pkt = false) :=
  ⟨0, 2, toWindow ptWrite 2 0 [1, 2], live, by decide⟩

theorem witness_RouterRuns_c0TokenRefill : ∃ (p : Fin 6) (s : State),
    c0Wait s.dev p.val = [] :=
  ⟨0, live, by decide⟩

theorem witness_RouterRuns_c0TokenRefill_2 : ∃ (p : Fin 6) (pkt : Packet) (rest : List Packet) (s : State),
    c0Wait s.dev p.val = pkt :: rest ∧ portTakes s.dev p.val pkt = true ∧ c0Queued s.dev p.val < 35 ∧ SMap.get (fun _ => []) s.dev.rtr.c0in p.val = [] ∧ hasCredit (portOf s.dev p.val) pkt.vc = false :=
  ⟨0, mgmtTo5, [], live.onDev (fun d => d.setC0Wait 0 [mgmtTo5]), by decide⟩

theorem witness_RouterRuns_hopAge : ∃ (p : Fin 6) (vc : Fin 16) (x : QPkt) (s : State),
    (outQ s.dev p.val vc.val).find? (fun x => !x.started) = some x ∧ s.dev.powered.core = true :=
  ⟨0, 2, ⟨mgmtTo5, none, [], false⟩, live.onDev (fun d => d.setOutQ 0 2 [⟨mgmtTo5, none, [], false⟩]), by decide⟩

theorem witness_RouterRuns_rtbSeal : ∃ (master : Byte) (value : Word) (s : State),
    writeTaken s.dev master.toNat (mAddr Reg.RTB_SEAL) 32 value.toNat ∧ bankState s.dev (value.toNat % 2) = 0 ∧ ((anyLive s.dev = true ∧ value.toNat = s.dev.rd Reg.RTB_LIVE_EPOCH + 1) ∨ (anyLive s.dev = false ∧ 1 ≤ value.toNat)) :=
  ⟨1, 2, live, by decide⟩

theorem witness_RouterRuns_rtbUnseal : ∃ (master : Byte) (value : Word) (s : State),
    writeTaken s.dev master.toNat (mAddr Reg.RTB_UNSEAL) 32 value.toNat ∧ bankState s.dev (value.toNat % 2) = 1 ∧ bankEpoch s.dev (value.toNat % 2) = value.toNat ∧ bankPending s.dev = false :=
  ⟨1, 2, live.onDev (fun d => (d.setBankState 0 1).setBankEpoch 0 2), by decide⟩

theorem witness_RouterRuns_rtbFlip : ∃ (master : Byte) (value : Word) (s : State),
    writeTaken s.dev master.toNat (mAddr Reg.RTB_FLIP) 32 value.toNat ∧ bankState s.dev (value.toNat % 2) = 1 ∧ bankEpoch s.dev (value.toNat % 2) = value.toNat :=
  ⟨1, 2, live.onDev (fun d => (d.setBankState 0 1).setBankEpoch 0 2), by decide⟩

theorem witness_RouterRuns_rtbParamWrite : ∃ (master : Byte) (hops : Bool) (bank : Fin 2) (value : Word) (s : State),
    writeTaken s.dev master.toNat (mAddr ((if hops then Reg.RTB_MAX_HOPS0 else Reg.RTB_SALT0) + 4 * bank.val)) 32 value.toNat ∧ bankState s.dev bank.val = 0 ∧ (hops = true → 1 ≤ value.toNat % 256) :=
  ⟨1, true, 0, 7, live, by decide⟩

theorem witness_RouterRuns_routeEntryWrite : ∃ (master : Byte) (bank : Fin 2) (m : BitVec 15) (value : Word) (s : State),
    writeTaken s.dev master.toNat (0x0200000000 + bank.val * 0x10000000 + 4 * m.toNat) 32 value.toNat ∧ bankState s.dev bank.val = 0 ∧ bits value.toNat 30 28 ≠ 7 ∧ (bits value.toNat 30 28 = 6 ↔ (maValid s.dev = true ∧ m.toNat = myMa s.dev)) :=
  ⟨1, 0, 7, 0x90000000, live, by decide⟩

theorem witness_RouterRuns_windowEntryWrite : ∃ (master : Byte) (w : BitVec 12) (wide : Bool) (value : BitVec 64) (o n m new : Nat) (st : Nat × Nat) (s : State),
    o = (if wide then 8 else 12) ∧ n = (if wide then 8 else 4) ∧ writeTaken s.dev master.toNat (0x0230000000 + 16 * w.toNat + o) (8 * n) value.toNat ∧ st = SMap.get (fun _ => (0, 0)) s.dev.rtr.staged w.toNat ∧ m = (2 ^ (8 * n) - 1) * 2 ^ (8 * o) ∧ new = (windowEntry s.dev w.toNat - (windowEntry s.dev w.toNat &&& (st.1 ||| m)) + (st.2 - (st.2 &&& m) + value.toNat % 2 ^ (8 * n) * 2 ^ (8 * o))) &&& windowMask ∧ windowOk new = true :=
  ⟨1, 3, false, 0, 12, 4, 0xFFFFFFFF000000000000000000000000, 0x400000000 + 0x1000 * 2 ^ 64, (0, 0), live, by decide⟩

theorem witness_RemoteAccessRuns_writePkt : ∃ (p : Packet) (s : State),
    windowCheck s.dev p.window p.tenant p.system 117 p.offset p.length = OK ∧ p.payload ≠ [] ∧ gdSound s.dev (windowUser s.dev 8 p.window) (windowAddr s.dev p.window p.offset) p.length :=
  ⟨toWindow ptWrite 2 0 [1, 2], live, by decide⟩

theorem witness_RemoteAccessRuns_writeStored : ∃ (p : Packet) (rest : List Packet) (s : State),
    s.dev.rtr.stored = p :: rest ∧ s.dev.rtr.pairs.find? (fun a => a.src == p.src && a.opid == p.opid) = none ∧ 1 < bits (s.dev.rd Reg.RTR_ACK) 7 0 ∧ s.dev.rtr.pairs.length < 1024 :=
  ⟨toWindow ptWrite 2 0 [1, 2], [], live.onDev (fun d => { d with rtr := { d.rtr with stored := [toWindow ptWrite 2 0 [1, 2]] } }), by decide⟩

theorem witness_RemoteAccessRuns_readReq : ∃ (p : Packet) (n : Nat) (s : State),
    n = bits (field p.payload 8 2) 12 0 ∧ n ≤ 4096 ∧ windowCheck s.dev p.window p.tenant p.system 118 p.offset n = OK ∧ gdSound s.dev (windowUser s.dev 8 p.window) (windowAddr s.dev p.window p.offset) n :=
  ⟨toWindow ptReadReq 2 0 [0, 0, 0, 0, 0, 0, 0, 0, 4, 0, 0, 0, 0, 0, 0, 0], 4, live, by decide⟩

theorem witness_RemoteAccessRuns_readDataReady : ∃ (p : Packet) (x : List Byte) (rest : List (Packet × List Byte)) (s : State),
    s.dev.rtr.reads = (p, x) :: rest :=
  ⟨toWindow ptReadResp 3 0 [1], [], [], live.onDev (fun d => { d with rtr := { d.rtr with reads := [(toWindow ptReadResp 3 0 [1], [])] } }), by decide⟩

theorem witness_RemoteAccessRuns_readResp : ∃ (p : Packet) (i : Nat) (s : State),
    windowCheck s.dev p.window p.tenant p.system 117 p.offset p.length = OK ∧ p.payload ≠ [] ∧ gdSound s.dev (windowUser s.dev 8 p.window) (windowAddr s.dev p.window p.offset) p.length ∧ liveEntry s.dev p.opid = some i ∧ (optEntry s.dev i).bad = false ∧ s.dev.armedFirst 0x038 [0, 1] = none ∧ (optEntry s.dev i).owner ≠ 1 ∧ (optEntry s.dev i).done + 1 ≤ (optEntry s.dev i).sent ∧ (optEntry s.dev i).done + 1 < (optEntry s.dev i).total :=
  ⟨toWindow ptReadResp 3 0 [1, 2], 0, raLive, by decide⟩

theorem witness_RemoteAccessRuns_mcastPkt : ∃ (p : Packet) (s : State),
    windowCheck s.dev p.window p.tenant p.system 119 p.offset p.length = OK ∧ p.payload ≠ [] ∧ gdSound s.dev (windowUser s.dev 8 p.window) (windowAddr s.dev p.window p.offset) p.length :=
  ⟨toWindow ptMcast 0 0 [1, 2], live, by decide⟩

theorem witness_RemoteAccessRuns_ackPkt : ∃ (p : Packet) (i n : Nat) (s : State),
    liveEntry s.dev p.opid = some i ∧ (optEntry s.dev i).bad = false ∧ s.dev.armedFirst 0x038 [0, 1] = none ∧ field p.payload 0 1 = OK ∧ p.src = (optEntry s.dev i).dest ∧ (optEntry s.dev i).owner ≠ 1 ∧ (optEntry s.dev i).done < n ∧ n < (optEntry s.dev i).done + 2 ^ 16 ∧ n ≤ (optEntry s.dev i).sent ∧ n < (optEntry s.dev i).total ∧ p.seq % 2 ^ 16 = (n - 1) % 2 ^ 16 :=
  ⟨{ toWindow ptAck 0 0 [0, 1, 0, 0, 0, 0, 0, 0] with seq := 2 }, 0, 3, raLive, by decide⟩

theorem witness_RemoteAccessRuns_ackPkt_2 : ∃ (p : Packet) (i st : Nat) (s : State),
    liveEntry s.dev p.opid = some i ∧ (optEntry s.dev i).bad = false ∧ s.dev.armedFirst 0x038 [0, 1] = none ∧ field p.payload 0 1 = st ∧ st ≠ OK ∧ (optEntry s.dev i).owner = 0 :=
  ⟨{ toWindow ptAck 0 0 [3, 1, 0, 0, 0, 0, 0, 0] with seq := 2 }, 0, 3, raLive, by decide⟩

theorem witness_RemoteAccessRuns_ackDelay : ∃ (src opid : Nat) (a : AckPair) (rest : List AckPair) (s : State),
    takeFirst (fun a => a.src == src && a.opid == opid) s.dev.rtr.pairs = some (a, rest) :=
  ⟨6, 16, ⟨6, 16, 1, 0, 1, 1, 0, true⟩, [], live.onDev (fun d => { d with rtr := { d.rtr with pairs := [⟨6, 16, 1, 0, 1, 1, 0, true⟩] } }), by decide⟩

theorem witness_RemoteAccessRuns_rtrOpTimeout : ∃ (i : BitVec 12) (s : State),
    (optEntry s.dev i.toNat).kind ≠ 0 ∧ (optEntry s.dev i.toNat).owner = 0 :=
  ⟨0, raLive, by decide⟩

theorem witness_RemoteAccessRuns_rtrOpTimeout_2 : ∃ (i : BitVec 12) (e : ArrExec) (s : State),
    (optEntry s.dev i.toNat).kind ≠ 0 ∧ (optEntry s.dev i.toNat).owner = 1 ∧ s.dev.arr.exec = some e ∧ e.failed = none :=
  ⟨0, gemmExec, (arrWith gemmExec 0).onDev (fun d => d.setOpt 0 ⟨1, 0, 0, 2, 0, 0, 0, 4, 6, 1, 4, 1, false⟩), by decide⟩

theorem witness_RemoteAccessRuns_rtrRaSubmit : ∃ (master : Byte) (value : Word) (s : State),
    writeTaken s.dev master.toNat (mAddr Reg.RTR_RA_SUBMIT) 32 value.toNat ∧ s.dev.rtr.ra.length < 64 ∧ gdSound s.dev (raUser s.dev) (value.toNat * 64) 64 :=
  ⟨1, 0x10000001, live, by decide⟩

theorem witness_RemoteAccessRuns_raStart : ∃ (j : RaJob) (i : Nat) (d : Dev) (s : State),
    s.dev.rtr.ra.find? (fun j => j.fresh) = some j ∧ raSent s.dev = true ∧ raWaits s.dev j = false ∧ j.invalid = false ∧ s.dev.optTake j.op 0 (bits (j.word 4) 31 17) (bits (j.word 5) 19 12) j.packets 0 2 = some (i, d) ∧ (j.op = 2 ∨ ∀ k, k < j.packets → gdSound s.dev (raUser s.dev) (j.localAt + 4096 * k) (min 4096 (j.len - 4096 * k))) :=
  ⟨raJob, 0, ((raQueued.dev.optTake 2 0 6 0 1 0 2).get (by decide)).2, raQueued, by decide⟩

theorem witness_RemoteAccessRuns_raEntryTaken : ∃ (j : RaJob) (i : Nat) (d : Dev) (s : State),
    s.dev.rtr.ra.find? (fun j => j.waiting) = some j ∧ raWaits s.dev j = false ∧ s.dev.optTake j.op 0 (bits (j.word 4) 31 17) (bits (j.word 5) 19 12) j.packets 0 2 = some (i, d) ∧ (j.op ≠ 1 ∨ ∀ k, k < j.packets → gdSound s.dev (raUser s.dev) (j.localAt + 4096 * k) (min 4096 (j.len - 4096 * k))) :=
  ⟨{ raJob with waiting := true }, 0, ((raWaiting.dev.optTake 2 0 6 0 1 0 2).get (by decide)).2, raWaiting, by decide⟩

theorem witness_RemoteAccessRuns_raComplete : ∃ (j : RaJob) (rest : List RaJob) (st : Nat) (s : State),
    s.dev.rtr.ra = j :: rest ∧ j.ended = some st ∧ gdSound s.dev (raUser s.dev) (j.addr + 60) 4 :=
  ⟨{ raJob with ended := some 0 }, [], 0, live.onDev (fun d => { d with rtr := { d.rtr with ra := [{ raJob with ended := some 0 }] } }), by decide⟩

theorem witness_CollectiveSetupRuns_colSubmit : ∃ (master : Byte) (value : Word) (s : State),
    writeTaken s.dev master.toNat (mAddr Reg.COL_SUBMIT) 32 value.toNat ∧ s.dev.col.queue.length < 64 ∧ gdSound s.dev (colUser s.dev) (value.toNat * 64) 64 :=
  ⟨1, 0x10000001, colBase, by decide⟩

theorem witness_CollectiveSetupRuns_colHeadCheck : ∃ (j : ColJob) (rest : List ColJob) (s : State),
    s.dev.col.queue = j :: rest ∧ s.dev.col.checked = false ∧ (s.dev.rd (rkey 0x030 0x010)).testBit 1 = false ∧ s.dev.armedFirst 0x032 [0, 1] = none ∧ (grp s.dev j.group).valid = true ∧ (grp s.dev j.group).system = (colUser s.dev).system ∧ (grp s.dev j.group).tenant = (colUser s.dev).tenant :=
  ⟨colJob, [], colQueued colJob, by decide⟩

theorem witness_CollectiveSetupRuns_colHeadCheck_2 : ∃ (j : ColJob) (rest : List ColJob) (s : State),
    s.dev.col.queue = j :: rest ∧ s.dev.col.checked = false ∧ (s.dev.rd (rkey 0x030 0x010)).testBit 1 = false ∧ s.dev.armedFirst 0x032 [0, 1] = none ∧ (grp s.dev j.group).valid = false ∧ gdSound s.dev (colUser s.dev) (j.addr + 56) 8 ∧ s.dev.col.ends = [] :=
  ⟨{ colJob with words := [0x10002000, 4, 0x100000, 4] }, [], colQueued { colJob with words := [0x10002000, 4, 0x100000, 4] }, by decide⟩

theorem witness_CollectiveSetupRuns_colEntryTaken : ∃ (j : ColJob) (rest : List ColJob) (i : Nat) (d : Dev) (s : State),
    s.dev.col.queue = j :: rest ∧ s.dev.col.checked = true ∧ s.dev.col.entry = none ∧ s.dev.optTake 4 1000 0 0 (if s.dev.col.detail.isSome then 0 else j.nch * j.trees (grp s.dev j.group).count) j.group 0 = some (i, d) :=
  ⟨colJob, [], 0, (((colQueued colJob).onDev (fun d => { d with col := { d.col with checked := true } })).dev.optTake 4 1000 0 0 1 0 0).get (by decide) |>.2, (colQueued colJob).onDev (fun d => { d with col := { d.col with checked := true } }), by decide⟩

theorem witness_CollectiveSetupRuns_colQuotaReserved : ∃ (j : ColJob) (rest : List ColJob) (i e : Nat) (s : State),
    s.dev.col.queue = j :: rest ∧ s.dev.col.entry = some i ∧ s.dev.col.detail = some e ∧ gdHeld s.dev (j.addr + 52) 4 = false :=
  ⟨colJob, [], 0, 3, (colQueued colJob).onDev (fun d => { d.setOpt 0 ⟨4, 0, 0, 2, 0, 0, 0, 1, 0, 0, 0, 0, false⟩ with col := { d.col with checked := true, entry := some 0, detail := some 3 } }), by decide⟩

theorem witness_CollectiveSetupRuns_colQuotaReserved_2 : ∃ (j : ColJob) (rest : List ColJob) (i : Nat) (s : State),
    s.dev.col.queue = j :: rest ∧ s.dev.col.entry = some i ∧ s.dev.col.detail = none ∧ colQuota s.dev j * j.bufSlots ≤ panFree s.dev ∧ gdHeld s.dev (j.addr + 52) 4 = false :=
  ⟨colJob, [], 0, (colQueued colJob).onDev (fun d => { d.setOpt 0 ⟨4, 0, 0, 2, 0, 0, 0, 1, 0, 0, 0, 0, false⟩ with col := { d.col with checked := true, entry := some 0 } }), by decide⟩

theorem witness_CollectiveSetupRuns_groupEntryWrite : ∃ (master : Byte) (g : BitVec 12) (value : BitVec 64) (x : Grp) (s : State),
    writeTaken s.dev master.toNat (0x0220000000 + 32 * g.toNat) 64 value.toNat ∧ groupCheck s.dev g.toNat value.toNat = (OK, x) ∧ s.dev.armedFirst 0x032 [0, 1] = none :=
  ⟨1, 2, 0xC000000000020000, (groupCheck colBase.dev 2 0xC000000000020000).2, colBase, by decide⟩

theorem witness_CollectiveSetupRuns_groupEntryWrite_2 : ∃ (master : Byte) (g : BitVec 12) (value : BitVec 64) (x : Grp) (s : State),
    writeTaken s.dev master.toNat (0x0220000000 + 32 * g.toNat + 4) 32 value.toNat ∧ SMap.get (fun _ => 0) s.dev.col.staged g.toNat ≠ 0 ∧ groupCheck s.dev g.toNat (value.toNat % 2 ^ 32 * 2 ^ 32 + (SMap.get (fun _ => 0) s.dev.col.staged g.toNat - 1)) = (OK, x) ∧ s.dev.armedFirst 0x032 [0, 1] = none :=
  ⟨1, 2, 0xC0000000, (groupCheck colBase.dev 2 0xC000000000020000).2, colBase.onDev (fun d => { d with col := { d.col with staged := [(2, 0x20001)] } }), by decide⟩

theorem witness_CollectiveSetupRuns_memberPoolWrite : ∃ (master : Byte) (i : BitVec 17) (value : Word) (s : State),
    writeTaken s.dev master.toNat (0x0220020000 + 4 * i.toNat) 32 value.toNat ∧ poolBusy s.dev (2 * i.toNat) = false ∧ poolBusy s.dev (2 * i.toNat + 1) = false :=
  ⟨1, 9, 0x00070003, colBase, by decide⟩

theorem witness_CollectiveSetupRuns_grpDisable : ∃ (master : Byte) (value : Word) (s : State),
    writeTaken s.dev master.toNat (mAddr Reg.GRP_DISABLE) 32 value.toNat ∧ groupUsed s.dev (value.toNat % 4096) = false :=
  ⟨1, 0, colBase, by decide⟩

theorem witness_CollectiveSetupRuns_colFlush : ∃ (master : Byte) (hold : Bool) (s : State),
    writeTaken s.dev master.toNat (mAddr (rkey 0x030 0x010)) 32 (1 + 2 * b2n hold) :=
  ⟨1, true, colIn (colPart colJob), by decide⟩

theorem witness_CollectiveSetupRuns_colHold : ∃ (master : Byte) (hold : Bool) (s : State),
    writeTaken s.dev master.toNat (mAddr (rkey 0x030 0x010)) 32 (2 * b2n hold) :=
  ⟨1, true, colBase, by decide⟩

theorem witness_CollectiveSetupRuns_colTenantWrite : ∃ (master : Byte) (value : Word) (s : State),
    writeTaken s.dev master.toNat (mAddr Reg.COL_TENANT) 32 value.toNat ∧ s.dev.col.queue = [] ∧ s.dev.col.parts = [] :=
  ⟨1, 7, colBase, by decide⟩

theorem witness_CollectiveChunksRun_openChunk : ∃ (p : Packet) (s : State),
    s.dev.col.parts.any (fun x => x.job.group == colGroupOf p && x.cseq == colCseqOf p) = false ∧ (colCseqOf p + 2 ^ 16 - (grp s.dev (colGroupOf p)).nextSeq) % 2 ^ 16 < 2 ^ 15 ∧ badKind p = false ∧ p.tenant = (colUser s.dev).tenant ∧ p.system = (colUser s.dev).system ∧ (s.dev.col.held.filter (fun q => !(colGroupOf q == colGroupOf p && colCseqOf q == colCseqOf p && q.src == p.src))).length < 1024 :=
  ⟨fromMember 1 0 1 1 0 0 0xFFFF [], colBase, by decide⟩

theorem witness_CollectiveChunksRun_openChunk_2 : ∃ (p : Packet) (x : ColPart) (a : Adv) (s : State),
    colMatch s.dev p = some x ∧ badKind p = false ∧ readable s.dev x.entry ∧ a = (⟨s.dev, x, none⟩ : Adv).takeOpens (grp s.dev x.job.group) [p] :=
  ⟨fromMember 1 0 1 1 0 0 0xFFFF ((colPart colJob).signature (grp colBase.dev 0) (colUser colBase.dev)), colPart colJob, (⟨(colIn (colPart colJob)).dev, colPart colJob, none⟩ : Adv).takeOpens (grp colBase.dev 0) [fromMember 1 0 1 1 0 0 0xFFFF ((colPart colJob).signature (grp colBase.dev 0) (colUser colBase.dev))], colIn (colPart colJob), by decide⟩

theorem witness_CollectiveChunksRun_openChunk_3 : ∃ (p : Packet) (s : State),
    s.dev.col.parts.any (fun x => x.job.group == colGroupOf p && x.cseq == colCseqOf p) = false ∧ badKind p = false ∧ ¬ (colCseqOf p + 2 ^ 16 - (grp s.dev (colGroupOf p)).nextSeq) % 2 ^ 16 < 2 ^ 15 ∧ (SMap.get (fun _ => []) s.dev.col.opened (colGroupOf p * 2 ^ 16 + colCseqOf p)).contains (field p.payload 8 2) = true :=
  ⟨fromMember 1 0 1 1 0 0 0xFFFF [], colBase.onDev (fun d => { d.setGrp 0 ⟨true, true, 0, 0, 2, 1, 0, 0⟩ with col := { (d.setGrp 0 ⟨true, true, 0, 0, 2, 1, 0, 0⟩).col with opened := [(0, [1])] } }), by decide⟩

theorem witness_CollectiveChunksRun_verdictChunk : ∃ (p : Packet) (x : ColPart) (a : Adv) (s : State),
    colMatch s.dev p = some x ∧ badKind p = false ∧ readable s.dev x.entry ∧ bits (field p.payload 24 4) 31 24 = OK ∧ a = (⟨s.dev, x, none⟩ : Adv).verdict (grp s.dev x.job.group) OK (bits (field p.payload 24 4) 14 0) :=
  ⟨fromMember 2 0 0 1 0 0 0 [], colPart colJob, (⟨(colIn (colPart colJob)).dev, colPart colJob, none⟩ : Adv).verdict (grp colBase.dev 0) OK 0, colIn (colPart colJob), by decide⟩

theorem witness_CollectiveChunksRun_verdictChunk_2 : ∃ (p : Packet) (x : ColPart) (s : State),
    colMatch s.dev p = some x ∧ badKind p = false ∧ readable s.dev x.entry ∧ bits (field p.payload 24 4) 31 24 = MISMATCH ∧ x.detail = none :=
  ⟨fromMember 2 0 0 1 0 0x04000001 0 [], colPart colJob, colIn (colPart colJob), by decide⟩

theorem witness_CollectiveChunksRun_verdictChunk_3 : ∃ (p : Packet) (s : State),
    colMatch s.dev p = none :=
  ⟨fromMember 2 0 0 1 0 0 0 [], colBase, by decide⟩

theorem witness_CollectiveChunksRun_abortChunk : ∃ (p : Packet) (x : ColPart) (s : State),
    colMatch s.dev p = some x ∧ badKind p = false ∧ readable s.dev x.entry ∧ bits (field p.payload 24 4) 31 24 = TIMEOUT :=
  ⟨fromMember 3 0 0 1 0 0x02000001 0 [], colPart colJob, colIn (colPart colJob), by decide⟩

theorem witness_CollectiveChunksRun_abortChunk_2 : ∃ (p : Packet) (rot : Nat) (s : State),
    colMatch s.dev p = none ∧ badKind p = false ∧ SMap.get (fun _ => 0) s.dev.col.ended (colGroupOf p * 2 ^ 16 + colCseqOf p) = rot + 1 :=
  ⟨{ fromMember 3 0 0 1 0 0x02000001 0 [] with src := 9 }, 0, colBase.onDev (fun d => { d with col := { d.col with ended := [(0, 1)] } }), by decide⟩

theorem witness_CollectiveChunksRun_creditChunk : ∃ (p : Packet) (x : ColPart) (s : State),
    colMatch s.dev p = some x ∧ badKind p = false ∧ readable s.dev x.entry ∧ field p.payload 4 4 = 0xFFFFFFFF :=
  ⟨fromMember 4 0xFFFFFFFF 0 1 0 0xFFFFFFFF 0 [], colPart colJob, colIn (colPart colJob), by decide⟩

theorem witness_CollectiveChunksRun_creditChunk_2 : ∃ (p : Packet) (x : ColPart) (m : Nat) (s : State),
    colMatch s.dev p = some x ∧ badKind p = false ∧ readable s.dev x.entry ∧ field p.payload 4 4 ≠ 0xFFFFFFFF ∧ senderOf s.dev (grp s.dev x.job.group) p = some m :=
  ⟨fromMember 4 0 0 1 0 0 0 [], colGo colChunk, 1, colIn (colGo colChunk), by decide⟩

theorem witness_CollectiveChunksRun_dataChunk : ∃ (p : Packet) (x : ColPart) (m lo q : Nat) (r : ColRx) (s : State),
    colMatch s.dev p = some x ∧ badKind p = false ∧ readable s.dev x.entry ∧ senderOf s.dev (grp s.dev x.job.group) p = some m ∧ lo = field p.payload 8 2 ∧ x.job.up = true ∧ field p.payload 4 4 < x.job.nch ∧ (x.chunk q).ended = false ∧ field p.payload 10 2 ≠ lo ∧ q = field p.payload 4 4 * x.job.trees (grp s.dev x.job.group).count + treeOf x (grp s.dev x.job.group) m lo ∧ (x.chunk q).granted.contains lo = true ∧ ((x.chunk q).granted.take (x.chunk q).got).contains lo = false ∧ SMap.get (fun _ => none) (x.chunk q).parts lo = none ∧ r = (SMap.get (fun _ => (⟨[], 0, 0⟩ : ColRx)) (x.chunk q).rx lo).take p ∧ r.pkts.length < r.need :=
  ⟨fromMember 5 0 1 2 0 16 0 [1, 2], colGo colChunk, 1, 1, 0, (⟨[], 0, 0⟩ : ColRx).take (fromMember 5 0 1 2 0 16 0 [1, 2]), colIn (colGo colChunk), by decide⟩

theorem witness_CollectiveChunksRun_dataChunk_2 : ∃ (p : Packet) (x z : ColPart) (m lo q : Nat) (r : ColRx) (s : State),
    colMatch s.dev p = some x ∧ badKind p = false ∧ readable s.dev x.entry ∧ senderOf s.dev (grp s.dev x.job.group) p = some m ∧ lo = field p.payload 8 2 ∧ x.job.up = true ∧ field p.payload 4 4 < x.job.nch ∧ (x.chunk q).ended = false ∧ field p.payload 10 2 ≠ lo ∧ q = field p.payload 4 4 * x.job.trees (grp s.dev x.job.group).count + treeOf x (grp s.dev x.job.group) m lo ∧ (x.chunk q).granted.contains lo = true ∧ ((x.chunk q).granted.take (x.chunk q).got).contains lo = false ∧ SMap.get (fun _ => none) (x.chunk q).parts lo = none ∧ r = (SMap.get (fun _ => (⟨[], 0, 0⟩ : ColRx)) (x.chunk q).rx lo).take p ∧ r.need ≤ r.pkts.length ∧ crc64 (r.pkts.map (·.2)).flatten = r.crc ∧ s.dev.armed 0x030 2 = false ∧ z = x.setChunk q { x.chunk q with rx := SMap.put (fun _ => ⟨[], 0, 0⟩) (x.chunk q).rx lo ⟨[], 0, 0⟩ } :=
  ⟨fromMember 5 0 1 1 (crc64 [1, 2]) 16 0 [1, 2], colGo colChunk, (colGo colChunk).setChunk 0 { colChunk with rx := [] }, 1, 1, 0, (⟨[], 0, 0⟩ : ColRx).take (fromMember 5 0 1 1 (crc64 [1, 2]) 16 0 [1, 2]), colIn (colGo colChunk), by decide⟩

theorem witness_CollectiveChunksRun_dataChunk_3 : ∃ (p : Packet) (x z : ColPart) (m lo q : Nat) (r : ColRx) (s : State),
    colMatch s.dev p = some x ∧ badKind p = false ∧ readable s.dev x.entry ∧ senderOf s.dev (grp s.dev x.job.group) p = some m ∧ lo = field p.payload 8 2 ∧ x.job.up = true ∧ field p.payload 4 4 < x.job.nch ∧ (x.chunk q).ended = false ∧ field p.payload 10 2 = lo ∧ q = field p.payload 4 4 * x.job.trees (grp s.dev x.job.group).count + lentTree x (grp s.dev x.job.group) (grp s.dev x.job.group).self lo ∧ x.lends (grp s.dev x.job.group) q = true ∧ (x.chunk q).inAsked = true ∧ (x.chunk q).data = none ∧ (x.chunk q).sent = false ∧ (x.chunk q).closed = false ∧ m = lo ∧ lo = logicalOf (grp s.dev x.job.group) (x.rotOf (grp s.dev x.job.group) q) (grp s.dev x.job.group).self ∧ r = (SMap.get (fun _ => (⟨[], 0, 0⟩ : ColRx)) (x.chunk q).rx lo).take p ∧ r.need ≤ r.pkts.length ∧ crc64 (r.pkts.map (·.2)).flatten = r.crc ∧ s.dev.armed 0x030 2 = false ∧ z = x.setChunk q { x.chunk q with rx := SMap.put (fun _ => ⟨[], 0, 0⟩) (x.chunk q).rx lo ⟨[], 0, 0⟩ } :=
  ⟨fromMember 5 0 1 1 (crc64 [1, 2]) 16 0 [1, 2] |> fun p => { p with payload := subHeader 0 5 1 0 1 1 0 0 1 (crc64 [1, 2]) 16 0 ++ [1, 2] }, colRotated, colRotated.setChunk 0 { colChunk with granted := [], inAsked := true, rx := [] }, 1, 1, 0, (⟨[], 0, 0⟩ : ColRx).take { fromMember 5 0 1 1 (crc64 [1, 2]) 16 0 [1, 2] with payload := subHeader 0 5 1 0 1 1 0 0 1 (crc64 [1, 2]) 16 0 ++ [1, 2] }, colIn colRotated, by decide⟩

theorem witness_CollectiveChunksRun_resultChunk : ∃ (p : Packet) (x z : ColPart) (a : Adv) (q : Nat) (r : ColRx) (s : State),
    colMatch s.dev p = some x ∧ badKind p = false ∧ readable s.dev x.entry ∧ windowCheck s.dev p.window p.tenant p.system 117 p.offset p.length = OK ∧ a = (if x.go then ⟨s.dev, x, none⟩ else (⟨s.dev, x, none⟩ : Adv).verdict (grp s.dev x.job.group) OK 0) ∧ q = (if x.job.coll = 6 then x.total (grp s.dev x.job.group) + field p.payload 4 4 * (grp s.dev x.job.group).count + field p.payload 8 2 % (grp s.dev x.job.group).count else field p.payload 4 4 * x.job.trees (grp s.dev x.job.group).count + treeOf x (grp s.dev x.job.group) (grp s.dev x.job.group).self (field p.payload 8 2)) ∧ field p.payload 4 4 < x.job.nch ∧ (x.chunk q).ended = false ∧ (x.chunk q).final = false ∧ (x.chunk q).asked = true ∧ r = (SMap.get (fun _ => (⟨[], 0, 0⟩ : ColRx)) (x.chunk q).rx 0xFFFF).take p ∧ r.need ≤ r.pkts.length ∧ crc64 (r.pkts.map (·.2)).flatten = r.crc ∧ s.dev.armed 0x030 2 = false ∧ z = a.x.setChunk q { x.chunk q with rx := SMap.put (fun _ => ⟨[], 0, 0⟩) (x.chunk q).rx 0xFFFF ⟨[], 0, 0⟩ } :=
  ⟨fromMember 6 0 0 1 (crc64 [1, 2]) 16 0 [1, 2], colGo { colChunk with asked := true }, (colGo { colChunk with asked := true }).setChunk 0 { colChunk with asked := true, rx := [] }, ⟨(colIn (colGo { colChunk with asked := true })).dev, colGo { colChunk with asked := true }, none⟩, 0, (⟨[], 0, 0⟩ : ColRx).take (fromMember 6 0 0 1 (crc64 [1, 2]) 16 0 [1, 2]), colIn (colGo { colChunk with asked := true }), by decide⟩

theorem witness_CollectiveChunksRun_resultChunk_2 : ∃ (p : Packet) (x : ColPart) (st : Nat) (s : State),
    colMatch s.dev p = some x ∧ badKind p = false ∧ readable s.dev x.entry ∧ windowCheck s.dev p.window p.tenant p.system 117 p.offset p.length = st ∧ st ≠ OK :=
  ⟨{ fromMember 6 0 0 1 (crc64 [1, 2]) 16 0 [1, 2] with window := 4 }, colGo { colChunk with asked := true }, WINDOW_FAULT, colIn (colGo { colChunk with asked := true }), by decide⟩

theorem witness_CollectiveEventsRun_colOpenResend : ∃ (i : BitVec 12) (x : ColPart) (s : State),
    partAt s.dev i.toNat = some x ∧ x.opened = true ∧ x.answered = false ∧ x.ctl (grp s.dev x.job.group) ≠ 0 :=
  ⟨0, { colPart colJob with opened := true }, (colIn { colPart colJob with opened := true }).onDev (fun d => d.setGrp 0 ⟨true, true, 0, 0, 2, 0, 1, 0⟩), by decide⟩

theorem witness_CollectiveEventsRun_colInputReadDone : ∃ (i : BitVec 12) (x : ColPart) (q a n : Nat) (s : State),
    partAt s.dev i.toNat = some x ∧ x.job.array = false ∧ ((x.job.coll ≠ 2 ∧ x.job.coll ≠ 6) ∨ x.job.count * colBits x.job.ty % 8 = 0) ∧ x.lowest (x.awaitsInput (grp s.dev x.job.group)) = some q ∧ a = x.inputAt (grp s.dev x.job.group) q ∧ n = x.job.chunkLen (x.cno (grp s.dev x.job.group) q) ∧ gdSound s.dev (colUser s.dev) a n :=
  ⟨0, colGo colChunk, 0, (colGo colChunk).inputAt (grp colBase.dev 0) 0, 16, colIn (colGo colChunk), by decide⟩

theorem witness_CollectiveEventsRun_colResultWriteAck : ∃ (i : BitVec 12) (x : ColPart) (q off : Nat) (data : List Byte) (s : State),
    partAt s.dev i.toNat = some x ∧ x.lowest (fun _ c => c.wrote == 1) = some q ∧ (x.chunk q).data = some data ∧ data ≠ [] ∧ off = x.job.resOff (x.tree (grp s.dev x.job.group) q) (x.cno (grp s.dev x.job.group) q) ∧ s.dev.armedFirst 0x031 [0, 1] = none ∧ windowCheck s.dev x.job.rwin (colUser s.dev).tenant (colUser s.dev).system 117 off data.length = OK ∧ gdSound s.dev (windowUser s.dev 9 x.job.rwin) (windowAddr s.dev x.job.rwin off) data.length :=
  ⟨0, colGo { colChunk with data := some [1, 2], final := true, wrote := 1 }, 0, 0, [1, 2], colIn (colGo { colChunk with data := some [1, 2], final := true, wrote := 1 }), by decide⟩

theorem witness_CollectiveEventsRun_colJoinTimeout : ∃ (i : BitVec 12) (x : ColPart) (s : State),
    partAt s.dev i.toNat = some x ∧ x.go = false :=
  ⟨0, colPart colJob, colIn (colPart colJob), by decide⟩

theorem witness_CollectiveEventsRun_colProgressTimeout : ∃ (i : BitVec 12) (x : ColPart) (m : Nat) (s : State),
    partAt s.dev i.toNat = some x ∧ x.go = true ∧ (if (optEntry s.dev i.toNat).bad then some (grp s.dev x.job.group).self else x.chunks.findSome? (fun e => x.awaited (grp s.dev x.job.group) e.1)) = some m :=
  ⟨0, colGo colChunk, 1, colIn (colGo colChunk), by decide⟩

theorem witness_CollectiveEventsRun_arrayHandover : ∃ (e : ArrExec) (w : ArrOut) (rs : List (Nat × List Nat)) (x y : ColPart) (s : State),
    s.dev.arr.exec = some e ∧ e.unacked.find? (fun w => match w.what with | .collective _ => true | _ => false) = some w ∧ w.what = .collective rs ∧ (liveEntry s.dev (bits (dw e.op.words 9) 15 0)).bind (partAt s.dev) = some x ∧ e.op.d.oscaled = false ∧ (runElems rs).any (fun p => decide (x.arrayElems (grp s.dev x.job.group) ≤ p.1)) = false ∧ y = { x with asm := (runElems rs).foldl (fun m (p : Nat × Nat) => SMap.put (fun _ => 0) m p.1 (p.2 + 1)) x.asm, handed := x.handed + ((runElems rs).filter (fun p => SMap.get (fun _ => 0) x.asm p.1 == 0)).length } :=
  ⟨{ gemmExec with op := { gemm with words := [0x11100000, 1, 1, 1, 0x00010000, 0, 0x10004, 0x1000, 0x10004, 0] }, unacked := [handWrite] }, handWrite, [(0, [1, 2])], colPart { colJob with words := [0x10082000, 4, 0, 0x00300004] }, { colPart { colJob with words := [0x10082000, 4, 0, 0x00300004] } with asm := [(0, 2), (1, 3)], handed := 2 }, (colIn (colPart { colJob with words := [0x10082000, 4, 0, 0x00300004] })).onDev (fun d => { d with arr := { d.arr with exec := some { gemmExec with op := { gemm with words := [0x11100000, 1, 1, 1, 0x00010000, 0, 0x10004, 0x1000, 0x10004, 0] }, unacked := [handWrite] } } }), by decide⟩

theorem witness_CollectiveEventsRun_abandonmentNotice : ∃ (opid st : Nat) (rest : List (Nat × Nat)) (x : ColPart) (s : State),
    s.dev.arr.notices = (opid, st) :: rest ∧ (liveEntry s.dev opid).bind (partAt s.dev) = some x ∧ st ≠ OK ∧ st ≠ MISMATCH ∧ st ≠ COL_INVALID ∧ st < 256 :=
  ⟨0, 0x23, [], colPart colJob, (colIn (colPart colJob)).onDev (fun d => { d with arr := { d.arr with notices := [(0, 0x23)] } }), by decide⟩

theorem witness_MailboxRuns_mbxPostPacket : ∃ (p : Packet) (s : State),
    p.system = true ∧ bits p.offset 47 14 = 0 ∧ p.window < 64 ∧ (mbxCfg s.dev p.window).testBit 31 = true ∧ (mbxCfg s.dev p.window).testBit 30 = true ∧ (mbxCfg s.dev p.window).testBit 9 = true ∧ p.payload ≠ [] ∧ (s.dev.mbox p.window).fifo.length < 16 :=
  ⟨{ toWindow ptMbxPost 0 0 [1, 2] with offset := 0x2101 }, mbox Mbx.empty, by decide⟩

theorem witness_MailboxRuns_mbxTxPost : ∃ (master : Byte) (value : Word) (s : State),
    writeTaken s.dev master.toNat (mAddr Reg.MBX_TX_POST) 32 value.toNat ∧ quiet s.dev ∧ mbxSender master.toNat = true ∧ 0 < bits value.toNat 8 0 ∧ bits value.toNat 8 0 ≤ 256 ∧ (s.dev.rd (bankKey master.toNat Reg.MBX_TX_REMOTE)).testBit 31 = false ∧ (s.dev.rd (bankKey master.toNat Reg.MBX_TX_STATUS)).testBit 30 = false ∧ (mbxCfg s.dev (bits value.toNat 29 24)).testBit 31 = true ∧ (s.dev.mbox (bits value.toNat 29 24)).fifo.length < 16 :=
  ⟨2, 0x03000005, mbox Mbx.empty, by decide⟩

theorem witness_MailboxRuns_mbxTxPost_2 : ∃ (master : Byte) (value : Word) (s : State),
    writeTaken s.dev master.toNat (mAddr Reg.MBX_TX_POST) 32 value.toNat ∧ quiet s.dev ∧ mbxSender master.toNat = true ∧ bits value.toNat 8 0 ≤ 224 ∧ (s.dev.rd (bankKey master.toNat Reg.MBX_TX_REMOTE)).testBit 31 = true ∧ (s.dev.rd (bankKey master.toNat Reg.MBX_TX_STATUS)).testBit 30 = false :=
  ⟨2, 0x03000005, (mbox Mbx.empty).onDev (fun d => d.wr (bankKey 2 Reg.MBX_TX_REMOTE) 0x80000006), by decide⟩

theorem witness_MailboxRuns_mbxPostEntryTaken : ∃ (master : Byte) (o : MbxOut) (i : Nat) (d : Dev) (s : State),
    SMap.get (fun _ => none) s.dev.mbx.remote master.toNat = some o ∧ o.entry = none ∧ s.dev.optTake 3 (2 + master.toNat) o.pkt.dest o.pkt.channel 1 0 2 = some (i, d) :=
  ⟨2, mbxOut, 0, ((mbox Mbx.empty).dev.optTake 3 4 6 0 1 0 2).get (by decide) |>.2 |> (fun d => { d with mbx := { d.mbx with remote := [(2, some mbxOut)] } }), (mbox Mbx.empty).onDev (fun d => { d with mbx := { d.mbx with remote := [(2, some mbxOut)] } }), by decide⟩

theorem witness_MailboxRuns_mbxRx : ∃ (master : Byte) (m : Fin 64) (x : MbxMsg) (rest : List MbxMsg) (s : State),
    readTaken s.dev master.toNat (mAddr (mbxKey Reg.MBXM_RX m.val)) 32 ∧ quiet s.dev ∧ mbxReader master.toNat = true ∧ mbxLatched s.dev master.toNat m.val = false ∧ latchMasked s.dev m.val master.toNat = none ∧ (s.dev.mbox m.val).fifo = x :: rest ∧ (s.dev.mbox m.val).waits = [] :=
  ⟨2, 3, mbxMsg, [], mbox { Mbx.empty with fifo := [mbxMsg] }, by decide⟩

theorem witness_MailboxRuns_mbxRx_2 : ∃ (master : Byte) (m : Fin 64) (s : State),
    readTaken s.dev master.toNat (mAddr (mbxKey Reg.MBXM_RX m.val)) 32 ∧ quiet s.dev ∧ mbxReader master.toNat = true ∧ mbxLatched s.dev master.toNat m.val = false ∧ latchMasked s.dev m.val master.toNat = none ∧ (s.dev.mbox m.val).fifo = [] :=
  ⟨2, 3, mbox Mbx.empty, by decide⟩

theorem witness_MailboxRuns_mbxData : ∃ (master : Byte) (m : Fin 64) (x : MbxMsg) (s : State),
    readTaken s.dev master.toNat (mAddr (mbxKey Reg.MBXM_DATA m.val)) 32 ∧ quiet s.dev ∧ mbxReader master.toNat = true ∧ mbxLatched s.dev master.toNat m.val = false ∧ latchMasked s.dev m.val master.toNat = none ∧ (s.dev.mbox m.val).cur = some x ∧ (s.dev.mbox m.val).cursor < 64 ∧ (s.dev.mbox m.val).bad = false ∧ s.dev.armedFirst 0x050 [0, 1] = none :=
  ⟨2, 3, mbxMsg, mbox { Mbx.empty with cur := some mbxMsg, cursor := 1 }, by decide⟩

theorem witness_MailboxRuns_mbxLatch : ∃ (m : Fin 64) (readers : List Byte) (w : Nat) (s : State),
    (s.dev.mbox m.val).holder = 0 ∧ (∀ r ∈ readers, readTaken s.dev r.toNat (mAddr (mbxKey Reg.MBXM_LATCH m.val)) 32) ∧ latchOrder (s.dev.mbox m.val).ptr ((readers.map (·.toNat)).filter (fun r => mbxReader r && r != 1 && (latchMasked s.dev m.val r).isNone)) = some w :=
  ⟨3, [2, 3], 2, mbox Mbx.empty, by decide⟩

theorem witness_MailboxRuns_latchRelease : ∃ (master : Byte) (m : Fin 64) (s : State),
    writeTaken s.dev master.toNat (mAddr (mbxKey Reg.MBXM_CFG m.val)) 32 (setBit (mbxCfg s.dev m.val) 28) ∧ quiet s.dev ∧ (mbxCfg s.dev m.val).testBit 29 = false ∧ (mbxLatched s.dev master.toNat m.val = false ∧ latchMasked s.dev m.val master.toNat = none ∨ master = 1) :=
  ⟨2, 3, mbox { Mbx.empty with holder := 2, fifo := [mbxMsg] }, by decide⟩

theorem witness_MailboxRuns_receiverReset : ∃ (master : Byte) (m : Fin 64) (s : State),
    writeTaken s.dev master.toNat (mAddr (mbxKey Reg.MBXM_CFG m.val)) 32 (setBit (mbxCfg s.dev m.val) 29) ∧ quiet s.dev ∧ (mbxLatched s.dev master.toNat m.val = false ∧ latchMasked s.dev m.val master.toNat = none ∨ master = 1) :=
  ⟨2, 3, mbox { Mbx.empty with holder := 2, fifo := [mbxMsg] }, by decide⟩

theorem witness_MailboxRuns_mbxLatchTimeout : ∃ (m : Fin 64) (s : State),
    (s.dev.mbox m.val).holder ≠ 0 ∧ s.dev.domainOn 0x050 = true :=
  ⟨3, mbox { Mbx.empty with holder := 2 }, by decide⟩

theorem witness_TocsinRuns_tocsinEvent : ∃ (b : BitVec 12) (n : Fin 32) (src p : Nat) (s : State),
    sourceOf b.toNat n.val = some src ∧ SMap.get (fun _ => 0) s.dev.toc.pend (b.toNat * 32 + n.val) = p + 1 ∧ s.dev.domainOn b.toNat = true ∧ (tocSrc s.dev src).st ≠ .rail ∧ (s.dev.rd (rkey b.toNat 0x024)).testBit n.val = true :=
  ⟨0x030, 3, (sourceOf 0x030 3).getD 0, 0, (live.onDev (fun d => d.raise 0x030 3)).onDev (fun d => d.wr (rkey 0x030 0x024) 8), by decide⟩

theorem witness_TocsinRuns_tocsinEvent_2 : ∃ (b : BitVec 12) (n : Fin 32) (src p : Nat) (s : State),
    sourceOf b.toNat n.val = some src ∧ SMap.get (fun _ => 0) s.dev.toc.pend (b.toNat * 32 + n.val) = p + 1 ∧ s.dev.domainOn b.toNat = true ∧ (tocSrc s.dev src).st ≠ .rail ∧ (tocSrc s.dev src).st ≠ .severe ∧ (s.dev.rd (rkey b.toNat 0x024)).testBit n.val = false ∧ clearingRuns s.dev src = false ∧ s.dev.toc.cfgBad.contains src = false ∧ s.dev.armed 0x060 1 = false ∧ bits (cfgByte s.dev src) 2 0 = 1 ∧ (windowNext s.dev src (tocSrc s.dev src).win).1 < (windowNext s.dev src (tocSrc s.dev src).win).2.1 :=
  ⟨0x031, 1, 337, 0, live.onDev (fun d => d.raise 0x031 1), by decide⟩

theorem witness_TocsinRuns_railEqual : ∃ (src : Fin 1024) (s : State),
    sourceKnown src.val = true ∧ (tocSrc s.dev src.val).st ≠ .rail ∧ s.dev.domainOn (sourcePage src.val).1 = true ∧ s.dev.domainOn 0x060 = true ∧ s.dev.toc.cfgBad.contains src.val = false ∧ s.dev.armed 0x060 1 = false ∧ bits (cfgByte s.dev src.val) 6 4 = 1 :=
  ⟨323, live, by decide⟩

theorem witness_TocsinRuns_tocSrcCfgWrite : ∃ (master i : Byte) (value : Word) (s : State),
    writeTaken s.dev master.toNat (mAddr (Reg.TOC_SRC_CFG + 4 * i.toNat)) 32 value.toNat ∧ (∀ k, k < 4 → cfgOk (4 * i.toNat + k) (bits value.toNat (8 * k + 7) (8 * k)) = true) :=
  ⟨1, 75, 0x22222222, live, by decide⟩

theorem witness_TocsinRuns_tocErrnRelease : ∃ (master : Byte) (hold : Bool) (s : State),
    writeTaken s.dev master.toNat (mAddr Reg.TOC_ERRN) 32 (1 + b2n hold * 2 ^ 16) :=
  ⟨1, true, live.onDev (fun d => d.wr Reg.TOC_ERRN 0x20000000), by decide⟩

theorem witness_TocsinRuns_errnPulseEnd : ∃ (hold : Bool) (s : State),
    s.dev.toc.pulse = some hold :=
  ⟨true, live.onDev (fun d => { d with toc := { d.toc with pulse := some true } }), by decide⟩

theorem witness_TocsinRuns_tocRailtest : ∃ (master : Byte) (value : Word) (s : State),
    writeTaken s.dev master.toNat (mAddr Reg.TOC_RAILTEST) 32 value.toNat ∧ value.toNat.testBit 31 = true ∧ sourceKnown (bits value.toNat 9 0) = true ∧ (tocSrc s.dev (bits value.toNat 9 0)).st ≠ .rail ∧ s.dev.domainOn (sourcePage (bits value.toNat 9 0)).1 = true ∧ s.dev.domainOn 0x060 = true ∧ s.dev.toc.cfgBad.contains (bits value.toNat 9 0) = false ∧ s.dev.armed 0x060 1 = false ∧ bits (cfgByte s.dev (bits value.toNat 9 0)) 6 4 = 1 :=
  ⟨1, 0x80000143, live, by decide⟩

theorem witness_TocsinRuns_belAlive : ∃ (master : Byte) (value : Word) (s : State),
    writeTaken s.dev master.toNat (mAddr Reg.BEL_ALIVE) 32 value.toNat ∧ s.dev.bel.active.map coreMaster = some master.toNat :=
  ⟨2, 0, live.onDev (fun d => { d.wr Reg.BEL_SWITCH_STATE 0x80000000 with bel := { d.bel with active := some false, silent := 9 }, toc := { d.toc with traps := [9] } }), by decide⟩

theorem witness_RecorderRuns_recordSealed : ∃ (b : RecBody) (rest : List RecBody) (s : State),
    s.dev.recd.queue = b :: rest ∧ s.dev.recd.held = [] ∧ s.dev.recd.frozen = false ∧ s.dev.recd.ready = true ∧ clearAtHead s.dev = false ∧ (rest ≠ [] ∨ s.dev.rd Reg.REC_LOST_PENDING = 0) :=
  ⟨record 4, [], recReady [record 4], by decide⟩

theorem witness_RecorderRuns_recSwAppend : ∃ (master : Byte) (value : Word) (s : State),
    writeTaken s.dev master.toNat (mAddr Reg.REC_SW_APPEND) 32 value.toNat ∧ ((master = 2 ∨ master = 3) ∧ 0x80 ≤ bits value.toNat 7 0 ∨ master = 1 ∧ 0x10 ≤ bits value.toNat 7 0 ∧ bits value.toNat 7 0 ≤ 0x16) ∧ s.dev.recd.queue.length < 48 ∧ s.dev.recd.held = [] ∧ s.dev.recd.stopped = false ∧ s.dev.recd.flushing = false :=
  ⟨2, 0x81, recReady [], by decide⟩

theorem witness_RecorderRuns_recFreezeWrite : ∃ (master : Byte) (s : State),
    writeTaken s.dev master.toNat (mAddr (rkey 0x061 0x010)) 32 1 ∧ s.dev.recd.frozen = false ∧ s.dev.recd.freezeAt = none ∧ s.dev.recd.stopped = false ∧ s.dev.recd.flushing = false :=
  ⟨1, recReady [], by decide⟩

theorem witness_RecorderRuns_recFreezeWrite_2 : ∃ (master : Byte) (s : State),
    writeTaken s.dev master.toNat (mAddr (rkey 0x061 0x010)) 32 0 ∧ (s.dev.recd.frozen = true ∨ s.dev.recd.freezeAt.isSome = true) :=
  ⟨1, (recReady []).onDev (fun d => { d with recd := { d.recd with frozen := true } }), by decide⟩

theorem witness_RecorderRuns_tostoRecFreeze : ∃ (m : TMsg) (s : State),
    served s.dev m famRec 3 ∧ recCheck s.dev (reqOf m famRec 3) true = OK ∧ m.body.length = 4 ∧ field m.body 0 1 = 1 ∧ field m.body 1 3 = 0 ∧ s.dev.recd.frozen = false ∧ s.dev.recd.freezeAt = none ∧ s.dev.recd.stopped = false ∧ s.dev.recd.flushing = false :=
  ⟨fromHost [1, 0, 0, 0], recReady [], by decide⟩

theorem witness_RecorderRuns_recFreezeLimit : ∃ (s : State),
    s.dev.recd.frozen = true :=
  ⟨(recReady []).onDev (fun d => { d with recd := { d.recd with frozen := true } }), by decide⟩

theorem witness_RecorderRuns_recRead : ∃ (m : TMsg) (area slot n : Nat) (s : State),
    served s.dev m famRec 1 ∧ recCheck s.dev (reqOf m famRec 1) false = OK ∧ m.body.length = 8 ∧ field m.body 0 1 = area ∧ field m.body 2 2 = slot ∧ field m.body 4 1 = n ∧ field m.body 1 1 = 0 ∧ field m.body 5 3 = 0 ∧ area ≤ 1 ∧ slot < (if area = 0 then permSlots else circSlots) ∧ (area = 0 → slot + n ≤ permSlots) ∧ n ≤ recLimit (reqOf m famRec 1) :=
  ⟨fromHost [1, 0, 2, 0, 3, 0, 0, 0], 1, 2, 3, recReady [], by decide⟩

theorem witness_RecorderRuns_recRead_2 : ∃ (m : TMsg) (s : State),
    served s.dev m famRec 1 ∧ recCheck s.dev (reqOf m famRec 1) false = OK ∧ field m.body 0 1 = 0 ∧ permSlots < field m.body 2 2 + field m.body 4 1 :=
  ⟨fromHost [0, 0, 255, 3, 2, 0, 0, 0], recReady [], by decide⟩

theorem witness_RecorderRuns_recTailRead : ∃ (m : TMsg) (n : Nat) (s : State),
    served s.dev m famRec 2 ∧ recCheck s.dev (reqOf m famRec 2) false = OK ∧ m.body.length = 4 ∧ field m.body 0 1 = n ∧ field m.body 1 3 = 0 ∧ n ≤ recLimit (reqOf m famRec 2) :=
  ⟨fromHost [3, 0, 0, 0], 3, recReady [], by decide⟩

theorem witness_RecorderRuns_recClear : ∃ (m : TMsg) (area gone : Nat) (s : State),
    served s.dev m famRec 4 ∧ ownerSession s.dev (reqOf m famRec 4) = true ∧ m.body.length = 4 ∧ field m.body 0 1 = area ∧ (area = 1 ∨ area = 2) ∧ field m.body 1 3 = 0 ∧ s.dev.recd.frozen = false ∧ s.dev.recd.clear = none ∧ s.dev.recd.stopped = false ∧ s.dev.recd.flushing = false ∧ gone = min permSlots (permFill s.dev + s.dev.recd.queue.length + s.dev.recd.held.length) :=
  ⟨fromHost [2, 0, 0, 0], 2, 0, recReady [], by decide⟩

theorem witness_RecorderRuns_recClearDone : ∃ (c : RecClear) (s : State),
    s.dev.recd.clear = some c ∧ clearAtHead s.dev = true ∧ s.dev.recd.ready = true ∧ s.dev.recd.frozen = false :=
  ⟨⟨1, some 4, 0⟩, (recReady [{ record 4 with kind := 7 }]).onDev (fun d => { d with recd := { d.recd with clear := some ⟨1, some 4, 0⟩ } }), by decide⟩

theorem witness_RecorderRuns_recState : ∃ (m : TMsg) (s : State),
    served s.dev m famRec 5 ∧ recCheck s.dev (reqOf m famRec 5) false = OK ∧ m.body = [] :=
  ⟨fromHost [], recReady [], by decide⟩

theorem witness_RecorderRuns_recState_2 : ∃ (m : TMsg) (s : State),
    served s.dev m famRec 5 ∧ recCheck s.dev (reqOf m famRec 5) false = OK ∧ m.body ≠ [] :=
  ⟨fromHost [0], recReady [], by decide⟩

theorem witness_RecorderRuns_recReadSel : ∃ (master : Byte) (value : Word) (s : State),
    writeTaken s.dev master.toNat (mAddr Reg.REC_READ_SEL) 32 value.toNat ∧ (value.toNat.testBit 31 = true ∨ bits value.toNat 12 0 < permSlots) ∧ s.dev.armedFirst 0x061 [0, 1] = none ∧ (recSlot s.dev (b2n (value.toNat.testBit 31)) (bits value.toNat 12 0)).ue = false :=
  ⟨1, 0x80000005, recReady [], by decide⟩

theorem witness_RegistersRun_registerWrite : ∃ (master : Byte) (addr : BitVec 40) (width : Nat) (value : BitVec 64) (s : State),
    writeTaken s.dev master.toNat addr.toNat width (value.toNat % 2 ^ width) ∧ mbxAddr addr.toNat width = none ∧ (writeEffect master.toNat addr.toNat width (value.toNat % 2 ^ width) s).1 ≠ WAITS :=
  ⟨1, 0x0100030024, 32, 8, live, by decide⟩

theorem witness_RegistersRun_registerWrite_2 : ∃ (master : Byte) (addr : BitVec 40) (value : BitVec 64) (b : Nat) (p : Page) (s : State),
    addr.toNat = mAddr (rkey b 0x024) ∧ pageOf b = some p ∧ writeTaken s.dev master.toNat addr.toNat 32 (value.toNat % 2 ^ 32) ∧ quiet s.dev :=
  ⟨1, 0x0100030024, 8, 0x030, .col, live, by decide⟩

theorem witness_RegistersRun_errForce : ∃ (master : Byte) (block : BitVec 12) (value : Word) (p : Page) (n : Nat) (s : State),
    writeTaken s.dev master.toNat (mAddr (rkey block.toNat 0x028)) 32 value.toNat ∧ pageOf block.toNat = some p ∧ n < 32 ∧ (forceBits p).testBit n = true ∧ value.toNat.testBit n = true ∧ s.dev.domainOn block.toNat = true :=
  ⟨1, 0x030, 8, .col, 3, live, by decide⟩

theorem witness_RegistersRun_errInvchk : ∃ (master : Byte) (block : BitVec 12) (value : Word) (p : Page) (s : State),
    writeTaken s.dev master.toNat (mAddr (rkey block.toNat 0x02C)) 32 value.toNat ∧ pageOf block.toNat = some p :=
  ⟨1, 0x030, 4, .col, live, by decide⟩

theorem witness_RegistersRun_wlock : ∃ (master : Byte) (block : BitVec 12) (value : Word) (s : State),
    writeTaken s.dev master.toNat (mAddr (rkey block.toNat 0x018)) 32 value.toNat :=
  ⟨1, 0x030, 0xFFFFFFFF, live, by decide⟩

theorem witness_RegistersRun_wlock_2 : ∃ (master : Byte) (block : BitVec 12) (value : Word) (same : List PageAccess) (u s : State),
    exec (.wlock master block ⟨value, []⟩) s = .next u :=
  ⟨1, 0x030, 0xFFFFFFFF, [⟨2, 0x0100030024, true, 8⟩], (live.onDev (fun d => (d.setLocks 0x030 0xFFFFFFFF).complete 1 0x0100030018 0 0)), live, rfl⟩

theorem witness_RegistersRun_policyEntryWrite : ∃ (master entry : Byte) (high : Bool) (value : Word) (e : Nat) (s : State),
    writeTaken s.dev master.toNat (0x0260000000 + (8 * entry.toNat + 4 * b2n high)) 32 value.toNat ∧ e = (if high then setBits (tableByte s.dev.acc.policy entry.toNat) 63 32 value.toNat else setBits (tableByte s.dev.acc.policy entry.toNat) 31 0 value.toNat) &&& 0xFFFFFFFFFF00F000 ∧ (e.testBit 15 = false ∨ (bits e 55 48 ≤ bits e 63 56 ∧ bits e 35 24 ≤ bits e 47 36)) :=
  ⟨1, 9, true, 0x20100400, 0x2010040000000000, live, by decide⟩

theorem witness_RegistersRun_accessTimeout : ∃ (master : Byte) (addr : BitVec 40) (a : Access1) (rest : List Access1) (s : State),
    takeHeld (fun a => a.master == master.toNat && a.addr == addr.toNat) [] s.dev.acc.waiting = some (a, rest) ∧ a.entry = false ∧ rest = [] ∧ mbxWaiting s.dev master.toNat = false ∧ asleep s.dev :=
  ⟨1, 0x0100030080, ⟨1, 0x0100030080, false, 32, 0, 0, false, none⟩, [], live.onDev (fun d => d.holdAccess ⟨1, 0x0100030080, false, 32, 0, 0, false, none⟩), by decide⟩

theorem witness_RegistersRun_pageAnswerLate : ∃ (master : Byte) (addr : BitVec 40) (a : Access1) (rest : List Access1) (s : State),
    takeFirst (fun a => a.master == master.toNat && a.addr == addr.toNat) s.dev.acc.late = some (a, rest) :=
  ⟨1, 0x0100030080, ⟨1, 0x0100030080, false, 32, 0, 0, false, none⟩, [], live.onDev (fun d => { d with acc := { d.acc with late := [⟨1, 0x0100030080, false, 32, 0, 0, false, none⟩] } }), by decide⟩

theorem witness_RegistersRun_islandStop : ∃ (i : Island) (s : State),
    s.dev.stopped.contains i = false :=
  ⟨.router, live, by decide⟩

theorem witness_RegistersRun_islandRestart : ∃ (i : Island) (s : State),
    s.dev.stopped.contains i = true ∧ quiet s.dev :=
  ⟨.router, live.onDev (fun d => { d with stopped := [.router] }), by decide⟩

theorem witness_BootRuns_powerOn : ∃ (a b : Bool) (s : State),
    a = true ∨ b = true :=
  ⟨true, false, live, by decide⟩

theorem witness_BootRuns_recScanDone : ∃ (s : State),
    s.dev.recd.ready = false ∧ bootStage s.dev = sgPor :=
  ⟨State.reset, by decide⟩

theorem witness_BootRuns_feedCheckDone : ∃ (a b : Bool) (s : State),
    bootStage s.dev = sgFeedCheck ∧ (a = true ∨ b = true) :=
  ⟨true, false, boot sgFeedCheck 0 0, by decide⟩

theorem witness_BootRuns_romDone : ∃ (store : Bool) (s : State),
    bootStage s.dev = sgRom ∧ s.dev.powered.core = false ∧ bits (s.dev.rd Reg.PWR_STATE) 2 0 ≠ 3 ∧ s.dev.sec.lc ≠ 4 ∧ (s.dev.rd Reg.PWR_FEED_STATE).testBit 7 = true ∧ s.dev.rd Reg.PWR_TARGET ≤ 2 :=
  ⟨true, State.reset.onDev (fun d => (d.setStage sgRom).wr Reg.PWR_FEED_STATE 0x83), by decide⟩

theorem witness_BootRuns_powerWave : ∃ (k : Nat) (s : State),
    moduleResets s.dev = false ∧ s.dev.pwr.wave = some (true, k) ∧ k < 15 ∧ (k % 2 = 0 ∨ s.dev.powered.wings.testBit (k / 2) = true) :=
  ⟨2, (boot sgWaves 0 0).onDev (fun d => { d with powered := ⟨true, true, 1, 3⟩, pwr := { d.pwr with wave := some (true, 2) } }), by decide⟩

theorem witness_BootRuns_powerWave_2 : ∃ (ok : Bool) (k : Nat) (s : State),
    moduleResets s.dev = false ∧ s.dev.pwr.wave = some (false, k + 1) :=
  ⟨true, 4, (boot sgDiscovery 0 2).onDev (fun d => { d with pwr := { d.pwr with wave := some (false, 5) } }), by decide⟩

theorem witness_BootRuns_gdTrainDone : ∃ (w : Fin 8) (dev : Fin 3) (s : State),
    s.dev.domainOn (0x090 + w.val) = true ∧ gdState s.dev w.val dev.val = 0 :=
  ⟨2, 1, live, by decide⟩

theorem witness_BootRuns_gdTrainTimeout : ∃ (w : Fin 8) (dev : Fin 3) (s : State),
    s.dev.domainOn (0x090 + w.val) = true ∧ gdState s.dev w.val dev.val = 0 :=
  ⟨2, 1, live, by decide⟩

theorem witness_BootRuns_ucieTrained : ∃ (w : Fin 8) (m : Fin 2) (s : State),
    s.dev.powered.wings.testBit w.val = true :=
  ⟨2, 1, live, by decide⟩

theorem witness_BootRuns_memtestDone : ∃ (status : Byte) (ms : Word) (s : State),
    bootStage s.dev = sgMemtest ∧ moduleResets s.dev = false :=
  ⟨0x30, 900, boot sgMemtest 0 0, by decide⟩

theorem witness_BootRuns_tileTestDone : ∃ (ts : List TileFind) (s : State),
    bootStage s.dev = sgTileTest ∧ moduleResets s.dev = false :=
  ⟨[], boot sgTileTest 0 0, by decide⟩

theorem witness_BootRuns_gddr7ZeroFillDone : ∃ (s : State),
    s.dev.pwr.phase = 3 ∧ moduleResets s.dev = false :=
  ⟨(boot sgDiscovery 0 0).onDev (fun d => { d with pwr := { d.pwr with phase := 3 } }), by decide⟩

theorem witness_BootRuns_linksDone : ∃ (s : State),
    bootStage s.dev = sgLinks ∧ bits (s.dev.rd Reg.PWR_STATE) 2 0 = 0 ∧ s.dev.rd Reg.PWR_TARGET = 0 :=
  ⟨boot sgLinks 0 0, by decide⟩

theorem witness_BootRuns_targetFull : ∃ (master : Byte) (s : State),
    writeTaken s.dev master.toNat (mAddr Reg.PWR_TARGET) 32 0 ∧ changing s.dev = false ∧ scrubbing s.dev = false ∧ bootStage s.dev < sgFetch ∧ bits (s.dev.rd Reg.PWR_STATE) 2 0 ≠ 3 :=
  ⟨1, boot sgSramInit 2 2, by decide⟩

theorem witness_BootRuns_targetFull_2 : ∃ (master : Byte) (s : State),
    writeTaken s.dev master.toNat (mAddr Reg.PWR_TARGET) 32 0 ∧ changing s.dev = false ∧ scrubbing s.dev = false ∧ moduleResets s.dev = false ∧ bootStage s.dev = sgDiscovery ∧ bits (s.dev.rd Reg.PWR_STATE) 2 0 = 1 :=
  ⟨1, boot sgDiscovery 1 1, by decide⟩

theorem witness_BootRuns_targetQuiet : ∃ (master : Byte) (s : State),
    writeTaken s.dev master.toNat (mAddr Reg.PWR_TARGET) 32 1 ∧ changing s.dev = false ∧ scrubbing s.dev = false ∧ bootStage s.dev < sgFetch ∧ bits (s.dev.rd Reg.PWR_STATE) 2 0 ≠ 3 :=
  ⟨1, boot sgSramInit 2 2, by decide⟩

theorem witness_BootRuns_targetQuiet_2 : ∃ (master : Byte) (s : State),
    writeTaken s.dev master.toNat (mAddr Reg.PWR_TARGET) 32 1 ∧ changing s.dev = false ∧ scrubbing s.dev = false ∧ moduleResets s.dev = false ∧ bootStage s.dev = sgDiscovery ∧ bits (s.dev.rd Reg.PWR_STATE) 2 0 = 0 ∧ s.dev.arr.exec = none :=
  ⟨1, boot sgDiscovery 0 0, by decide⟩

theorem witness_BootRuns_targetTransit : ∃ (master : Byte) (s : State),
    writeTaken s.dev master.toNat (mAddr Reg.PWR_TARGET) 32 2 ∧ changing s.dev = false ∧ scrubbing s.dev = false ∧ bootStage s.dev < sgFetch ∧ bits (s.dev.rd Reg.PWR_STATE) 2 0 ≠ 3 :=
  ⟨1, boot sgSramInit 2 0, by decide⟩

theorem witness_BootRuns_targetStandby : ∃ (master : Byte) (s : State),
    writeTaken s.dev master.toNat (mAddr Reg.PWR_TARGET) 32 3 ∧ changing s.dev = false ∧ scrubbing s.dev = false ∧ bootStage s.dev < sgFetch ∧ bits (s.dev.rd Reg.PWR_STATE) 2 0 ≠ 3 :=
  ⟨1, boot sgSramInit 2 0, by decide⟩

theorem witness_BootRuns_targetStandby_2 : ∃ (master : Byte) (s : State),
    writeTaken s.dev master.toNat (mAddr Reg.PWR_TARGET) 32 3 ∧ changing s.dev = false ∧ scrubbing s.dev = false ∧ moduleResets s.dev = false ∧ bootStage s.dev = sgDiscovery ∧ bits (s.dev.rd Reg.PWR_STATE) 2 0 = 2 :=
  ⟨1, boot sgDiscovery 2 2, by decide⟩

theorem witness_BootRuns_targetOff : ∃ (master : Byte) (s : State),
    writeTaken s.dev master.toNat (mAddr Reg.PWR_TARGET) 32 4 ∧ changing s.dev = false ∧ scrubbing s.dev = false ∧ bootStage s.dev < sgFetch ∧ bits (s.dev.rd Reg.PWR_STATE) 2 0 ≠ 3 :=
  ⟨1, boot sgSramInit 2 0, by decide⟩

theorem witness_ResetsRun_resetTile : ∃ (master : Byte) (i : Fin 512) (r : ResetRun) (s : State),
    r = ⟨rkTile, i.val, rcRequest⟩ ∧ writeTaken s.dev master.toNat (mAddr Reg.RST_REQUEST) 32 (rkTile * 2 ^ 28 + i.val) ∧ targetOn s.dev rkTile i.val = true ∧ (s.dev.pwr.running ++ s.dev.pwr.held).any (fun x => x.covers r) = false :=
  ⟨1, 64, ⟨rkTile, 64, rcRequest⟩, live, by decide⟩

theorem witness_ResetsRun_resetCluster : ∃ (master : Byte) (c : Fin 64) (r : ResetRun) (s : State),
    r = ⟨rkCluster, c.val, rcRequest⟩ ∧ writeTaken s.dev master.toNat (mAddr Reg.RST_REQUEST) 32 (rkCluster * 2 ^ 28 + c.val) ∧ targetOn s.dev rkCluster c.val = true ∧ (s.dev.pwr.running ++ s.dev.pwr.held).any (fun x => x.covers r) = false :=
  ⟨1, 9, ⟨rkCluster, 9, rcRequest⟩, live, by decide⟩

theorem witness_ResetsRun_resetWing : ∃ (master : Byte) (w : Fin 8) (r : ResetRun) (s : State),
    r = ⟨rkWing, w.val, rcRequest⟩ ∧ writeTaken s.dev master.toNat (mAddr Reg.RST_REQUEST) 32 (rkWing * 2 ^ 28 + w.val) ∧ targetOn s.dev rkWing w.val = true ∧ (s.dev.pwr.running ++ s.dev.pwr.held).any (fun x => x.covers r) = false :=
  ⟨1, 2, ⟨rkWing, 2, rcRequest⟩, live, by decide⟩

theorem witness_ResetsRun_resetPort : ∃ (master : Byte) (p : Fin 6) (r : ResetRun) (s : State),
    r = ⟨rkPort, p.val, rcRequest⟩ ∧ writeTaken s.dev master.toNat (mAddr Reg.RST_REQUEST) 32 (rkPort * 2 ^ 28 + p.val) ∧ targetOn s.dev rkPort p.val = true ∧ (s.dev.pwr.running ++ s.dev.pwr.held).any (fun x => x.covers r) = false :=
  ⟨1, 0, ⟨rkPort, 0, rcRequest⟩, live, by decide⟩

theorem witness_ResetsRun_resetCore : ∃ (master : Byte) (b : Bool) (r : ResetRun) (s : State),
    r = ⟨rkCore, b2n b, rcRequest⟩ ∧ writeTaken s.dev master.toNat (mAddr Reg.RST_REQUEST) 32 (rkCore * 2 ^ 28 + b2n b) ∧ targetOn s.dev rkCore (b2n b) = true ∧ s.dev.bel.active ≠ some b ∧ (s.dev.pwr.running ++ s.dev.pwr.held).any (fun x => x.covers r) = false :=
  ⟨1, true, ⟨rkCore, 1, rcRequest⟩, cores, by decide⟩

theorem witness_ResetsRun_resetModule : ∃ (master : Byte) (s : State),
    writeTaken s.dev master.toNat (mAddr Reg.RST_REQUEST) 32 (rkModule * 2 ^ 28) ∧ s.dev.pwr.due = [] ∧ moduleResets s.dev = false :=
  ⟨1, live, by decide⟩

theorem witness_ResetsRun_moduleResetBegin : ∃ (r : ResetRun) (rest : List ResetRun) (s : State),
    s.dev.pwr.due = r :: rest ∧ moduleResets s.dev = false :=
  ⟨⟨rkModule, 0, 0⟩, [], live.onDev (fun d => { d with pwr := { d.pwr with due := [⟨rkModule, 0, 0⟩] } }), by decide⟩

theorem witness_ResetsRun_resetComplete : ∃ (kind : Fin 6) (target : Fin 512) (store : Bool) (r : ResetRun) (s : State),
    kind.val ≠ rkModule ∧ r = ⟨kind.val, target.val, 0⟩ ∧ s.dev.pwr.running.any (fun x => x.kind == r.kind && x.target == r.target) = true ∧ scopeDone s.dev r = true :=
  ⟨0, 64, true, ⟨0, 64, 0⟩, live.onDev (fun d => { d.setTile 64 ⟨.clearing, false, none, 0, [], [], [], [], [], [], []⟩ with pwr := { d.pwr with running := [⟨0, 64, 0⟩] } }), by decide⟩

theorem witness_ResetsRun_resetComplete_2 : ∃ (target : Fin 512) (store : Bool) (s : State),
    s.dev.pwr.running.any (fun x => x.kind == rkModule && x.target == 0) = true ∧ s.dev.pwr.resetN = false :=
  ⟨0, true, live.onDev (fun d => { d with pwr := { d.pwr with running := [⟨5, 0, 0⟩] } }), by decide⟩

theorem witness_ResetsRun_resetTimeout : ∃ (kind : Fin 6) (target : Fin 512) (s : State),
    kind.val ≠ rkModule ∧ s.dev.pwr.running.any (fun x => x.kind == kind.val && x.target == target.val) = true ∧ s.dev.domainOn 0x004 = true :=
  ⟨0, 64, live.onDev (fun d => { d with pwr := { d.pwr with running := [⟨0, 64, 0⟩] } }), by decide⟩

theorem witness_ResetsRun_resetN : ∃ (s : State),
    s.dev.pwr.resetN = false ∧ s.dev.powered.aon = true :=
  ⟨live, by decide⟩

theorem witness_ResetsRun_resetNRelease : ∃ (store : Bool) (s : State),
    s.dev.pwr.resetN = true :=
  ⟨true, live.onDev (fun d => { d with pwr := { d.pwr with resetN := true, mDone := true, running := [⟨5, 0, 3⟩] } }), by decide⟩

theorem witness_ResetsRun_coreFault : ∃ (b : Bool) (s : State),
    s.dev.domainOn 0x068 = true :=
  ⟨true, live, by decide⟩

theorem witness_ResetsRun_giveUp : ∃ (master : Byte) (old : Bool) (s : State),
    writeTaken s.dev master.toNat (mAddr Reg.BEL_SWITCH) 32 1 ∧ s.dev.bel.active = some old ∧ coreMaster old = master.toNat ∧ switching s.dev = false ∧ standbyHealthy s.dev = true :=
  ⟨2, false, cores, by decide⟩

theorem witness_ResetsRun_switchRequest : ∃ (old : Bool) (s : State),
    writeTaken s.dev 1 (mAddr Reg.BEL_SWITCH) 32 2 ∧ s.dev.bel.active = some old ∧ switching s.dev = false ∧ standbyHealthy s.dev = true :=
  ⟨false, cores, by decide⟩

theorem witness_ResetsRun_belWatchdog : ∃ (old : Bool) (s : State),
    s.dev.powered.core = true ∧ s.dev.rd Reg.BEL_WATCHDOG ≠ 0 ∧ s.dev.bel.active = some old ∧ switching s.dev = false ∧ standbyHealthy s.dev = true :=
  ⟨false, cores, by decide⟩

theorem witness_ResetsRun_belHealth : ∃ (master : Byte) (value : Word) (a : Bool) (s : State),
    writeTaken s.dev master.toNat (mAddr Reg.BEL_HEALTH) 32 value.toNat ∧ (master = 2 ∨ master = 3) ∧ s.dev.bel.active = some a ∧ coreMaster a ≠ master.toNat :=
  ⟨3, 0x80000001, false, cores, by decide⟩

theorem witness_ResetsRun_healthStale : ∃ (s : State),
    s.dev.powered.core = true :=
  ⟨cores, by decide⟩

theorem witness_FeedsRun_feedLost : ∃ (b : Bool) (s : State),
    s.dev.powered.aon = true ∧ feedBit s.dev (b2n b) = true ∧ s.dev.domainOn 0x002 = true :=
  ⟨true, live.onDev (fun d => d.wr Reg.PWR_FEED_STATE 0x83), by decide⟩

theorem witness_FeedsRun_overvolt : ∃ (b : Bool) (s : State),
    s.dev.powered.aon = true ∧ s.dev.domainOn 0x002 = true :=
  ⟨true, live.onDev (fun d => d.wr Reg.PWR_FEED_STATE 0x83), by decide⟩

theorem witness_FeedsRun_feedQualifyStart : ∃ (b : Bool) (s : State),
    s.dev.powered.aon = true ∧ feedBit s.dev (b2n b) = false :=
  ⟨true, noFeed, by decide⟩

theorem witness_FeedsRun_feedReturn : ∃ (b : Bool) (s : State),
    feedBit s.dev (2 + b2n b) = true ∧ s.dev.domainOn 0x002 = true :=
  ⟨false, noFeed, by decide⟩

theorem witness_FeedsRun_oring : ∃ (b : Bool) (s : State),
    s.dev.powered.aon = true ∧ s.dev.domainOn 0x002 = true :=
  ⟨true, live, by decide⟩

theorem witness_FeedsRun_undervolt : ∃ (s : State),
    s.dev.powered.aon = true ∧ s.dev.domainOn 0x002 = true ∧ feedBit s.dev 0 = false ∧ feedBit s.dev 1 = false ∧ feedBit s.dev 4 = false :=
  ⟨noFeed, by decide⟩

theorem witness_FeedsRun_prechargeDone : ∃ (s : State),
    s.dev.powered.aon = true :=
  ⟨live, by decide⟩

theorem witness_FeedsRun_converter : ∃ (s : State),
    s.dev.domainOn 0x002 = true :=
  ⟨live, by decide⟩

theorem witness_FeedsRun_overcurrent : ∃ (s : State),
    s.dev.domainOn 0x002 = true :=
  ⟨live, by decide⟩

theorem witness_FeedsRun_warn : ∃ (die : Fin 9) (x : Int) (s : State),
    s.dev.domainOn 0x003 = true ∧ dieAbove (s.dev.dieRead die.val x) (s.dev.rd Reg.THM_WARN) = true :=
  ⟨0, 960, live, by decide⟩

theorem witness_FeedsRun_critical : ∃ (die : Fin 9) (x : Int) (s : State),
    s.dev.domainOn 0x003 = true ∧ dieHot (s.dev.dieRead die.val x) = true :=
  ⟨0, 1090, live, by decide⟩

theorem witness_FeedsRun_thermalTrip : ∃ (die : Fin 9) (x : Int) (s : State),
    1150 ≤ x ∧ s.dev.powered.aon = true ∧ s.dev.powered.core = true :=
  ⟨0, 1150, live, by decide⟩

theorem witness_FeedsRun_thermalCooled : ∃ (reads : List Int) (s : State),
    thmState s.dev ≠ 0 ∧ dieBelow (s.dev.dieReads 0 reads) (s.dev.rd Reg.THM_WARN) = true ∧ s.dev.pwr.thermN = false :=
  ⟨[300], live.onDev (fun d => d.wr Reg.THM_STATE 1), by decide⟩

theorem witness_FeedsRun_thermN : ∃ (s : State),
    s.dev.powered.aon = true ∧ s.dev.pwr.thermN = false ∧ s.dev.domainOn 0x003 = true :=
  ⟨live, by decide⟩

theorem witness_FeedsRun_thermNRelease : ∃ (cool : Bool) (s : State),
    s.dev.pwr.thermN = true :=
  ⟨true, hot, by decide⟩

theorem witness_FeedsRun_sensor : ∃ (die : Fin 9) (x : Int) (s : State),
    s.dev.domainOn 0x003 = true :=
  ⟨2, 500, live, by decide⟩

theorem witness_BoardRuns_refLost : ∃ (s : State),
    s.dev.domainOn 0x001 = true :=
  ⟨live, by decide⟩

theorem witness_BoardRuns_aonDrift : ∃ (s : State),
    s.dev.domainOn 0x001 = true :=
  ⟨live, by decide⟩

theorem witness_BoardRuns_hostLinkUp : ∃ (s : State),
    s.dev.powered.aon = true :=
  ⟨live, by decide⟩

theorem witness_BoardRuns_linkDown : ∃ (s : State),
    (s.dev.rd Reg.ETH_LINK).testBit 31 = true ∧ s.dev.domainOn 0x040 = true :=
  ⟨live.onDev (fun d => d.wr Reg.ETH_LINK 0x80000001), by decide⟩

theorem witness_BoardRuns_celTrainFail : ∃ (p : Fin 4) (s : State),
    s.dev.powered.core = true ∧ celPort s.dev p.val ≠ 4 :=
  ⟨2, live, by decide⟩

theorem witness_BoardRuns_syncIn : ∃ (phase : Nat) (s : State),
    s.dev.powered.aon = true ∧ 3 * (1000 * s.dev.msr.period) ≤ 4 * phase :=
  ⟨90000, live, by decide⟩

theorem witness_BoardRuns_syncIn_2 : ∃ (phase : Nat) (s : State),
    s.dev.powered.aon = true ∧ 4 * phase ≤ 1000 * s.dev.msr.period ∧ 4 * phase < 3 * (1000 * s.dev.msr.period) :=
  ⟨9000, live, by decide⟩

theorem witness_BoardRuns_syncIn_3 : ∃ (phase : Nat) (s : State),
    s.dev.powered.aon = true ∧ 1000 * s.dev.msr.period < 4 * phase ∧ 4 * phase < 3 * (1000 * s.dev.msr.period) ∧ s.dev.domainOn 0x06A = true :=
  ⟨50000, live, by decide⟩

theorem witness_BoardRuns_statusWord : ∃ (s : State),
    s.dev.powered.aon = true :=
  ⟨live, by decide⟩

theorem witness_BoardRuns_pmbusRevision : ∃ (s : State),
    s.dev.powered.aon = true :=
  ⟨live, by decide⟩

theorem witness_BoardRuns_mfrSerial : ∃ (s : State),
    s.dev.powered.aon = true :=
  ⟨live, by decide⟩

theorem witness_BoardRuns_readVin : ∃ (a b : Word) (s : State),
    s.dev.powered.aon = true :=
  ⟨0x12C00100, 0x12B00100, live, by decide⟩

theorem witness_BoardRuns_readIin : ∃ (a b : Word) (s : State),
    s.dev.powered.aon = true :=
  ⟨0x12C00100, 0x12B00100, live, by decide⟩

theorem witness_BoardRuns_readPin : ∃ (w : BitVec 16) (s : State),
    s.dev.powered.aon = true :=
  ⟨900, live, by decide⟩

theorem witness_BoardRuns_readTemperature1 : ∃ (x : Int) (s : State),
    s.dev.powered.aon = true ∧ s.dev.powered.wings = 0 :=
  ⟨451, State.reset, by decide⟩

theorem witness_BoardRuns_readTemperature1_2 : ∃ (reads : List Int) (s : State),
    s.dev.powered.aon = true ∧ reads.length = 9 :=
  ⟨[1, -2, 3, 4, 5, 6, 7, 8, 9], live, by decide⟩

theorem witness_SessionsRun_ethFrame : ∃ (f : EthFrame) (m : TMsg) (slot : Fin 16) (seq : Nat) (s : State),
    f.bytes ≤ 9216 ∧ vlanOk s.dev f = true ∧ f.secured = none ∧ msecRequired s.dev = false ∧ s.dev.powered.core = true ∧ f.kind = .tosto (s.dev.rd Reg.ETH_TOSTO_PORT) m (0x10 + slot.val) seq true true ∧ (sessOf s.dev slot.val).st = 2 ∧ (sessOf s.dev slot.val).cache.find? (fun r => r.seq == seq) = none ∧ seqNew (sessOf s.dev slot.val) seq = true ∧ m.body.length ≤ 1408 ∧ hostFamily m = true ∧ codeKnown m.family m.code = true ∧ m.status = 0 ∧ m.reply = false ∧ (sessOf s.dev slot.val).queue.length < 8 ∧ s.dev.stopped.contains .host = false :=
  ⟨frame (.tosto (Dev.reset.rd Reg.ETH_TOSTO_PORT) { fromHost [] with family := 2, code := 1 } 0x10 9 true true), { fromHost [] with family := 2, code := 1 }, 0, 9, host, by decide⟩

theorem witness_SessionsRun_ethFrame_2 : ∃ (f : EthFrame) (s : State),
    f.bytes ≤ 9216 ∧ vlanOk s.dev f = true ∧ f.secured = none ∧ msecRequired s.dev = false ∧ s.dev.powered.core = true ∧ f.kind = .arp true ∧ s.dev.stopped.contains .host = false :=
  ⟨frame (.arp true), host, by decide⟩

theorem witness_SessionsRun_ethFrame_3 : ∃ (f : EthFrame) (s : State),
    (9216 < f.bytes ∨ (f.kind ≠ .knock ∧ vlanOk s.dev f = false)) ∧ s.dev.stopped.contains .host = false :=
  ⟨{ frame (.arp true) with vlan := some 3 }, host, by decide⟩

theorem witness_SessionsRun_ethFrame_4 : ∃ (f : EthFrame) (s : State),
    f.bytes ≤ 9216 ∧ vlanOk s.dev f = true ∧ f.secured = none ∧ msecRequired s.dev = true ∧ f.kind ≠ .knock ∧ f.kind ≠ .eapol ∧ s.dev.stopped.contains .host = false :=
  ⟨frame (.arp true), host.onDev (fun d => d.wr Reg.MSEC_MODE 1), by decide⟩

theorem witness_SessionsRun_openSession : ∃ (m : TMsg) (nonce i : Nat) (s : State),
    served s.dev m famSession 1 ∧ m.body.length = 36 ∧ field m.body 0 1 = 0 ∧ field m.body 1 1 = 0 ∧ (upFrom 0 16).find? (fun i => slotServes s.dev i none) = some i :=
  ⟨fromClient (List.replicate 36 0), 5, 1, host.onDev (fun d => d.wr (slotKey 1) 0x80000000), by decide⟩

theorem witness_SessionsRun_openSession_2 : ∃ (m : TMsg) (nonce i : Nat) (s : State),
    served s.dev m famSession 1 ∧ m.body.length = 36 ∧ field m.body 0 1 = 1 ∧ field m.body 1 1 = 0 ∧ field m.body 2 2 ≤ 511 ∧ (upFrom 0 16).find? (fun i => slotServes s.dev i (some (field m.body 2 2))) = some i :=
  ⟨fromClient ([1, 0, 7] ++ List.replicate 33 0), 5, 1, host.onDev (fun d => d.wr (slotKey 1) 0xC0000007), by decide⟩

theorem witness_SessionsRun_prove : ∃ (m : TMsg) (slot : Nat) (s : State),
    served s.dev m famSession 2 ∧ m.body.length = 36 ∧ slot = field m.body 0 1 ∧ slot ≤ 15 ∧ field m.body 1 3 = 0 ∧ (sessOf s.dev slot).st = 1 ∧ (s.dev.principalKey (sessOf s.dev slot).tenant).1.isSome = true :=
  ⟨fromClient (1 :: List.replicate 35 0), 1, host.onDev (fun d => (d.setSess 1 { Session.empty with st := 1, tenant := some 7 }).setSessKey 7 (some 9)), by decide⟩

theorem witness_SessionsRun_closeSession : ∃ (m : TMsg) (slot : Fin 16) (s : State),
    served s.dev m famSession 3 ∧ m.src = .host slot ∧ m.body = [] :=
  ⟨fromHost [], 0, host, by decide⟩

theorem witness_SessionsRun_closeSession_2 : ∃ (m : TMsg) (slot : Fin 16) (s : State),
    served s.dev m famSession 3 ∧ m.src = .host slot ∧ m.body ≠ [] :=
  ⟨fromHost [0], 0, host, by decide⟩

theorem witness_SessionsRun_proveTimeout : ∃ (slot : Fin 16) (s : State),
    (sessOf s.dev slot.val).st = 1 :=
  ⟨1, host.onDev (fun d => d.setSess 1 { Session.empty with st := 1 }), by decide⟩

theorem witness_SessionsRun_sessionIdle : ∃ (slot : Fin 16) (s : State),
    sessOpen s.dev slot.val = true :=
  ⟨0, host, by decide⟩

theorem witness_SessionsRun_ethSlotWrite : ∃ (master : Byte) (slot : Fin 16) (value : Word) (s : State),
    writeTaken s.dev master.toNat (mAddr (slotKey slot.val)) 32 value.toNat ∧ sessOpen s.dev slot.val = false :=
  ⟨1, 1, 0xC0000007, host, by decide⟩

theorem witness_SessionsRun_ethSlotWrite_2 : ∃ (master : Byte) (slot : Fin 16) (value : Word) (s : State),
    writeTaken s.dev master.toNat (mAddr (slotKey slot.val)) 32 value.toNat ∧ sessOpen s.dev slot.val = true :=
  ⟨1, 0, 0xC0000007, host, by decide⟩

theorem witness_HostTimeRuns_mkaFrame : ∃ (s : State),
    s.dev.host.cak ≠ none ∧ s.dev.powered.core = true :=
  ⟨host.onDev (fun d => { d with host := { d.host with cak := some ⟨[], 1⟩ } }), by decide⟩

theorem witness_HostTimeRuns_mkaFrame_2 : ∃ (an : Fin 4) (s : State),
    s.dev.host.cak ≠ none ∧ s.dev.powered.core = true ∧ s.dev.host.mkaPeer = true :=
  ⟨2, host.onDev (fun d => { d with host := { d.host with cak := some ⟨[], 1⟩, mkaPeer := true } }), by decide⟩

theorem witness_HostTimeRuns_mkaFrame_3 : ∃ (an next : Nat) (rest : List (Nat × Nat)) (s : State),
    s.dev.host.cak ≠ none ∧ s.dev.powered.core = true ∧ s.dev.host.mkaPeer = true ∧ s.dev.host.rxSa = (an, next) :: rest :=
  ⟨2, 1, [], host.onDev (fun d => { d with host := { d.host with cak := some ⟨[], 1⟩, mkaPeer := true, rxSa := [(2, 1)] } }), by decide⟩

theorem witness_HostTimeRuns_sakPnLimit : ∃ (an : Fin 4) (s : State),
    s.dev.host.txSa = some an.val :=
  ⟨2, host.onDev (fun d => { d with host := { d.host with txSa := some 2 } }), by decide⟩

theorem witness_HostTimeRuns_mkaLost : ∃ (s : State),
    s.dev.host.mkaPeer = true ∧ s.dev.domainOn 0x041 = true :=
  ⟨host.onDev (fun d => { d with host := { d.host with mkaPeer := true, rxSa := [(1, 1)], txSa := some 1 } }), by decide⟩

theorem witness_HostTimeRuns_mkaHello : ∃ (s : State),
    s.dev.host.cak.isSome = true ∧ s.dev.powered.core = true :=
  ⟨host.onDev (fun d => { d with host := { d.host with cak := some ⟨[], 1⟩ } }), by decide⟩

theorem witness_HostTimeRuns_ptpSync : ∃ (h : PtpHdr) (origin receipt : Int) (s : State),
    ptpFrom s.dev h = true :=
  ⟨hdr, 1000, 1100, ptpOn, by decide⟩

theorem witness_HostTimeRuns_ptpSync_2 : ∃ (h : PtpHdr) (origin receipt : Int) (s : State),
    ptpFrom s.dev h = true ∧ offsetSize (receipt - origin - s.dev.host.delay) ≤ 1000000 :=
  ⟨hdr, 1000, 1100, ptpOn, by decide⟩

theorem witness_HostTimeRuns_followUp : ∃ (h : PtpHdr) (origin receipt : Int) (s : State),
    ptpFrom s.dev h = true ∧ s.dev.host.sync = some receipt ∧ 1000000 < offsetSize (receipt - origin - s.dev.host.delay) :=
  ⟨hdr, (-2000000), 1000, ptpOn, by decide⟩

theorem witness_HostTimeRuns_followUp_2 : ∃ (h : PtpHdr) (origin receipt : Int) (s : State),
    ptpFrom s.dev h = true ∧ s.dev.host.sync = some receipt ∧ offsetSize (receipt - origin - s.dev.host.delay) ≤ 1000000 :=
  ⟨hdr, 900, 1000, ptpOn, by decide⟩

theorem witness_HostTimeRuns_delayResp : ∃ (h : PtpHdr) (sent receipt : Int) (s : State),
    ptpFrom s.dev h = true :=
  ⟨hdr, 1000, 1060, ptpOn, by decide⟩

theorem witness_HostTimeRuns_announce : ∃ (h : PtpHdr) (best : Bool) (s : State),
    ptpTakes s.dev h = true ∧ s.dev.host.gm ≠ some h.clock ∧ (ptpNamed s.dev = some h.clock ∨ (ptpNamed s.dev = none ∧ (s.dev.host.gm = none ∨ best = true))) :=
  ⟨hdr, false, host, by decide⟩

theorem witness_HostTimeRuns_announceTimeout : ∃ (s : State),
    (s.dev.rd Reg.PTP_STATE = ptpAcquiring ∨ s.dev.rd Reg.PTP_STATE = ptpLocked) ∧ s.dev.domainOn 0x043 = true :=
  ⟨ptpOn.onDev (fun d => d.wr Reg.PTP_STATE 2), by decide⟩

theorem witness_RoceRuns_qpCreate : ∃ (m : TMsg) (n : Nat) (s : State),
    served s.dev m famJob 8 ∧ servesJobs s.dev = true ∧ qpBodyOk (reqTenant s.dev (reqOf m famJob 8)) m.body = true ∧ (upFrom 0x100 256).find? (fun n => (qpOf s.dev n).isNone) = some n :=
  ⟨fromHost (List.replicate 36 0), 0x100, manager, by decide⟩

theorem witness_RoceRuns_qpDestroy : ∃ (m : TMsg) (q : Qp) (s : State),
    served s.dev m famJob 9 ∧ servesJobs s.dev = true ∧ m.body.length = 4 ∧ qpOf s.dev (field m.body 0 4) = some q ∧ reqTenant s.dev (reqOf m famJob 9) = none :=
  ⟨fromHost [0, 1, 0, 0], qp, manager.onDev (fun d => { d with host := { d.host with qps := [(0x100, some qp)] } }), by decide⟩

theorem witness_RoceRuns_rdmaWrite : ∃ (r : RoceReq) (rkey va : Nat) (data : List Byte) (q : Qp) (s : State),
    qpOf s.dev r.qpn = some q ∧ hostRuns s.dev = true ∧ s.dev.host.rdma = [] ∧ r.icrc = true ∧ r.supported = true ∧ r.ce = false ∧ psnAhead r.psn q.psn = false ∧ psnBehind r.psn q.psn = false ∧ roceCheck s.dev q rkey va 117 data.length = OK ∧ data ≠ [] ∧ gdSound s.dev (windowUser s.dev 14 (keyWindow rkey)) (windowAddr s.dev (keyWindow rkey) va) data.length :=
  ⟨roceReq, 0x7003, 64, [1, 2], qp, roce, by decide⟩

theorem witness_RoceRuns_rdmaRead : ∃ (r : RoceReq) (rkey va len n : Nat) (q : Qp) (s : State),
    qpOf s.dev r.qpn = some q ∧ hostRuns s.dev = true ∧ s.dev.host.rdma = [] ∧ r.icrc = true ∧ r.supported = true ∧ r.ce = false ∧ psnAhead r.psn q.psn = false ∧ psnBehind r.psn q.psn = false ∧ len ≤ 2 ^ 31 ∧ n < 16 ∧ roceCheck s.dev q rkey va 118 len = OK ∧ gdSound s.dev (windowUser s.dev 14 (keyWindow rkey)) (windowAddr s.dev (keyWindow rkey) va) len :=
  ⟨roceReq, 0x7003, 64, 4, 0, qp, roce, by decide⟩

theorem witness_RoceRuns_rdmaSend : ∃ (r : RoceReq) (data : List Byte) (q : Qp) (s : State),
    qpOf s.dev r.qpn = some q ∧ hostRuns s.dev = true ∧ s.dev.host.rdma = [] ∧ r.icrc = true ∧ r.supported = true ∧ psnAhead r.psn q.psn = false ∧ psnBehind r.psn q.psn = false ∧ data.length ≤ 256 ∧ data ≠ [] ∧ q.mailbox < 64 ∧ (mbxCfg s.dev q.mailbox).testBit 31 = true ∧ (mbxCfg s.dev q.mailbox).testBit 30 = true ∧ q.system = true ∧ (mbxCfg s.dev q.mailbox).testBit 9 = true ∧ (s.dev.mbox q.mailbox).fifo.length < 16 :=
  ⟨roceReq, [1, 2], qp, roce, by decide⟩

theorem witness_BelfryRuns_mgmtPkt : ∃ (p : Packet) (tag : Bool) (s : State),
    s.dev.agt.rxq.length + s.dev.agt.msgs.length < 256 ∧ p.ptype = ptMgmt ∧ field p.payload 0 1 = 0xB1 :=
  ⟨relayPkt 2 1, true, live, by decide⟩

theorem witness_BelfryRuns_mgmtPkt_2 : ∃ (p : Packet) (m : TMsg) (s : State),
    s.dev.agt.rxq.length + s.dev.agt.msgs.length < 256 ∧ field p.payload 0 1 ≠ 0xB1 ∧ parseTosto (.fabric p.src) 192 p.payload = some m :=
  ⟨{ mgmtTo5 with payload := [1, 11, 7, 0, 128] ++ List.replicate 27 0 }, ⟨.fabric 6, 11, 7, false, 0, 0, 0, []⟩, live, by decide⟩

theorem witness_BelfryRuns_mgmtPkt_3 : ∃ (p : Packet) (s : State),
    s.dev.agt.rxq.length + s.dev.agt.msgs.length < 256 ∧ field p.payload 0 1 ≠ 0xB1 :=
  ⟨mgmtTo5, live, by decide⟩

theorem witness_BelfryRuns_mgmtPkt_4 : ∃ (p : Packet) (tag : Bool) (s : State),
    256 ≤ s.dev.agt.rxq.length + s.dev.agt.msgs.length :=
  ⟨mgmtTo5, true, live.onDev (fun d => { d with agt := { d.agt with msgs := List.replicate 256 (fromManager []) } }), by decide⟩

theorem witness_BelfryRuns_relay : ∃ (p : Packet) (tag : Bool) (port : Nat) (s : State),
    field p.payload 2 1 < field p.payload 1 1 ∧ field p.payload 1 1 ≤ 64 ∧ port = listAt 0 (relayPath p.payload) (field p.payload 2 1) ∧ port ≤ 5 ∧ portTakes s.dev port (mgmtPacket false 0 (4 * port) (relayNext p.payload (bits p.via 4 2))) = true :=
  ⟨relayPkt 2 1, true, 1, live, by decide⟩

theorem witness_BelfryRuns_relay_2 : ∃ (p : Packet) (m : TMsg) (s : State),
    field p.payload 1 1 = field p.payload 2 1 ∧ 1 ≤ field p.payload 1 1 ∧ field p.payload 1 1 ≤ 64 ∧ parseTosto (.relay (if (field p.payload 4 2).testBit 15 then some (bits (field p.payload 4 2) 14 0) else none) (returnPath (bits p.via 4 2) (relayPath p.payload)) (field p.payload 6 2)) 160 (p.payload.drop 32) = some m :=
  ⟨relayPkt 1 1, ⟨.relay (some 6) [1] 7, 11, 7, false, 0, 0, 0, []⟩, live, by decide⟩

theorem witness_BelfryRuns_relay_3 : ∃ (p : Packet) (tag : Bool) (s : State),
    field p.payload 1 1 = 0 ∨ 64 < field p.payload 1 1 ∨ field p.payload 1 1 < field p.payload 2 1 :=
  ⟨relayPkt 1 2, true, live, by decide⟩

theorem witness_BelfryRuns_claim : ∃ (m : TMsg) (s : State),
    trioMode s.dev = false ∧ s.dev.rd Reg.AGT_TERM < field m.body 0 4 ∧ (∀ x, s.dev.agt.plan = some x → (field m.body 15 8 == x.id && x.cands.any (fun c => c.1 == field m.body 7 8 && c.2.2 == field m.body 6 1)) = true) ∧ belfryBody 4 m.body = true :=
  ⟨fromManager (8 :: List.replicate 54 0), live, ⟨by decide, by decide, fun _ h => (nomatch h), by decide⟩⟩

theorem witness_BelfryRuns_claim_2 : ∃ (m : TMsg) (s : State),
    trioMode s.dev = false ∧ field m.body 0 4 ≤ s.dev.rd Reg.AGT_TERM ∧ belfryBody 4 m.body = true :=
  ⟨fromManager (List.replicate 55 0), live, by decide⟩

theorem witness_BelfryRuns_claim_3 : ∃ (m : TMsg) (s : State),
    trioMode s.dev = false ∧ s.dev.rd Reg.AGT_TERM < field m.body 0 4 ∧ s.dev.domainOn 0x069 = true ∧ belfryBody 4 m.body = true :=
  ⟨fromManager (8 :: List.replicate 54 0), live, by decide⟩

theorem witness_BelfryRuns_termNotice : ∃ (m : TMsg) (s : State),
    s.dev.rd Reg.BEL_TERM < field m.body 0 4 ∧ belRole s.dev = roActive ∧ s.dev.domainOn 0x068 = true ∧ belfryBody 6 m.body = true :=
  ⟨fromManager [9, 0, 0, 0, 6, 0], manager, by decide⟩

theorem witness_BelfryRuns_claimStagger : ∃ (x : Plan) (r : Nat) (s : State),
    s.dev.bel.stagger = true ∧ belRole s.dev = roCandidate ∧ managerMa s.dev = none ∧ s.dev.agt.plan = some x ∧ myRank s.dev = some r :=
  ⟨plan, 0, candidate, ⟨by decide, by decide, by decide, rfl, by simp [myRank, candidate, planned, Plan.rankOf, plan, live, up, State.onDev, Dev.setRole, Dev.wr, Dev.setBankState, Dev.setLnk]⟩⟩

theorem witness_BelfryRuns_claimStagger_2 : ∃ (a : Nat) (s : State),
    s.dev.bel.stagger = true ∧ belRole s.dev = roCandidate ∧ managerMa s.dev = some a ∧ originMa s.dev ≠ some a :=
  ⟨6, candidate.onDev (fun d => d.wr Reg.AGT_MANAGER 0x8006), by decide⟩

theorem witness_BelfryRuns_standby : ∃ (src : BitVec 15) (term : Word) (s : State),
    s.dev.rd Reg.AGT_TERM = term.toNat ∧ managerMa s.dev = some src.toNat ∧ belRole s.dev = roCandidate :=
  ⟨6, 15, candidate.onDev (fun d => (d.wr Reg.AGT_MANAGER 0x8006).wr Reg.AGT_TERM 15), by decide⟩

theorem witness_BelfryRuns_standby_2 : ∃ (src : BitVec 15) (term : Word) (s : State),
    s.dev.rd Reg.AGT_TERM ≠ term.toNat :=
  ⟨6, 15, candidate, by decide⟩

theorem witness_BelfryRuns_heartbeat : ∃ (m : TMsg) (s : State),
    belfryBody 1 m.body = false :=
  ⟨fromManager [], live, by decide⟩

theorem witness_BelfryRuns_heartbeat_2 : ∃ (m : TMsg) (a : Nat) (s : State),
    msgMa m = some a ∧ (hbMates s.dev).contains a = true ∧ belRole s.dev ≠ roFenced ∧ belfryBody 1 m.body = true :=
  ⟨fromManager ([0, 0, 0, 0, 3, 0, 0, 0, 2, 0, 0, 0] ++ List.replicate 13 0), 6, standingBy HbPeer.new, by decide⟩

theorem witness_BelfryRuns_heartbeat_3 : ∃ (m : TMsg) (a : Nat) (s : State),
    msgMa m = some a ∧ (hbMates s.dev).contains a = true ∧ belRole s.dev = roFenced ∧ (hbPeer s.dev a).ack < field m.body 8 4 ∧ field m.body 0 4 = s.dev.rd Reg.BEL_TERM ∧ belfryBody 1 m.body = true :=
  ⟨fromManager ([0, 0, 0, 0, 3, 0, 0, 0, 2, 0, 0, 0] ++ List.replicate 13 0), 6, (standingBy HbPeer.new).onDev (fun d => d.setRole roFenced), by decide⟩

theorem witness_BelfryRuns_heartbeatPeriod : ∃ (a : Nat) (s : State),
    belRole s.dev = roStandby ∧ s.dev.bel.mate = some a ∧ s.dev.bel.silent < 2 ∧ originMa s.dev ≠ some a :=
  ⟨6, (standingBy HbPeer.new).onDev (fun d => { d with bel := { d.bel with silent := 0 } }), by decide⟩

theorem witness_BelfryRuns_heartbeatPeriod_2 : ∃ (a : Nat) (s : State),
    belRole s.dev = roStandby ∧ s.dev.bel.mate = some a ∧ 2 ≤ s.dev.bel.silent :=
  ⟨6, (standingBy HbPeer.new).onDev (fun d => { d with bel := { d.bel with silent := 2 } }), by decide⟩

theorem witness_BelfryRuns_hbMiss : ∃ (a : Nat) (s : State),
    belRole s.dev = roStandby ∧ s.dev.bel.mate = some a ∧ s.dev.rd Reg.BEL_HB_MISS ≤ (hbPeer s.dev a).misses ∧ (hbPeer s.dev a).probe = none ∧ relayPathTo s.dev a = none ∧ originMa s.dev ≠ some a :=
  ⟨40, (standingBy HbPeer.new).onDev (fun d => ({ d with agt := { d.agt with plan := none }, bel := { d.bel with mate := some 40 } } : Dev).setHbPeer 40 { HbPeer.new with misses := 4 }), by decide⟩

theorem witness_BelfryRuns_hbMiss_2 : ∃ (a : Nat) (path : List Nat) (s : State),
    belRole s.dev = roStandby ∧ s.dev.bel.mate = some a ∧ s.dev.rd Reg.BEL_HB_MISS ≤ (hbPeer s.dev a).misses ∧ (hbPeer s.dev a).probe = none ∧ relayPathTo s.dev a = some path :=
  ⟨6, [0], standingBy { HbPeer.new with misses := 4 }, by decide⟩

theorem witness_BelfryRuns_probe : ∃ (m : TMsg) (s : State),
    (belRole s.dev = roActive ∨ belRole s.dev = roFenced ∨ belRole s.dev = roVoter) ∧ belfryBody 2 m.body = true :=
  ⟨fromManager (List.replicate 12 0), manager, by decide⟩

theorem witness_BelfryRuns_probeAck : ∃ (m : TMsg) (a : Nat) (s : State),
    (hbMates s.dev).find? (fun a => (hbPeer s.dev a).probe == some (field m.body 4 8)) = some a ∧ field m.body 0 4 = s.dev.rd Reg.BEL_TERM ∧ (field m.body 12 1).testBit 0 = false ∧ belfryBody 3 m.body = true :=
  ⟨fromManager ([0, 0, 0, 0, 7] ++ List.replicate 8 0), 6, standingBy { HbPeer.new with misses := 4, probe := some 7 }, by decide⟩

theorem witness_BelfryRuns_probeTimeout : ∃ (a : Nat) (x : Plan) (r : Nat) (s : State),
    belRole s.dev = roStandby ∧ s.dev.bel.mate = some a ∧ (hbPeer s.dev a).probe.isSome = true ∧ s.dev.agt.plan = some x ∧ myRank s.dev = some r :=
  ⟨6, plan, 0, standingBy { HbPeer.new with misses := 4, probe := some 7 }, ⟨by decide, by decide, by decide, rfl, by simp [myRank, standingBy, candidate, planned, Plan.rankOf, plan, live, up, State.onDev, Dev.setRole, Dev.wr, Dev.setBankState, Dev.setLnk, Dev.setHbPeer]⟩⟩

theorem witness_BelfryRuns_probeTimeout_2 : ∃ (a c : Nat) (s : State),
    belRole s.dev = roVoter ∧ (hbMates s.dev).find? (fun a => (hbPeer s.dev a).probe.isSome) = some a ∧ (voters s.dev).find? (fun v => v.2 == a) = some (2, a) ∧ nextCandidate s.dev ((voters s.dev).map (·.2)) = some c :=
  ⟨7, 8, voter.onDev (fun d => { d.setHbPeer 7 { HbPeer.new with probe := some 1 } with mgr := { d.mgr with mods := [(8, some { MgrMod.new with agt := 3, acked := true })] } }), by decide⟩

theorem witness_BelfryRuns_fence : ∃ (a : Nat) (s : State),
    s.dev.bel.mate = some a ∧ belRole s.dev = roActive ∧ s.dev.rd Reg.BEL_FENCE_MISS ≤ (hbPeer s.dev a).unacked ∧ s.dev.domainOn 0x068 = true :=
  ⟨6, (standingBy { HbPeer.new with unacked := 5 }).onDev (fun d => d.setRole roActive), by decide⟩

theorem witness_RoutesRun_voteWindowEnd : ∃ (i : Byte) (v : Vote) (s : State),
    SMap.get (fun _ => none) s.dev.agt.votes i.toNat = some v ∧ v.applied = false ∧ s.dev.domainOn 0x069 = true :=
  ⟨0, ⟨1, mAddr Reg.AGT_PORT_PLAN, 4, 0, [5], false, none, (0, 0)⟩, voter.onDev (fun d => d.setVote 0 (some ⟨1, mAddr Reg.AGT_PORT_PLAN, 4, 0, [5], false, none, (0, 0)⟩)), by decide⟩

theorem witness_RoutesRun_voteWindowEnd_2 : ∃ (i : Byte) (v : Vote) (s : State),
    SMap.get (fun _ => none) s.dev.agt.votes i.toNat = some v ∧ v.applied = true :=
  ⟨0, ⟨1, mAddr Reg.AGT_PORT_PLAN, 4, 0, [5, 6], true, none, (0, 0)⟩, voter.onDev (fun d => d.setVote 0 (some ⟨1, mAddr Reg.AGT_PORT_PLAN, 4, 0, [5, 6], true, none, (0, 0)⟩)), by decide⟩

theorem witness_RoutesRun_discover : ∃ (m : TMsg) (s : State),
    belfryBody 7 m.body = true :=
  ⟨fromManager [0, 0, 0, 0], live, by decide⟩

theorem witness_RoutesRun_agtPortPlanWrite : ∃ (master : Byte) (value : Word) (s : State),
    writeTaken s.dev master.toNat (mAddr Reg.AGT_PORT_PLAN) 32 value.toNat ∧ value.toNat.testBit 30 = true ∧ (agtSt s.dev = agUnaddressed ∨ agtSt s.dev = agAddressed ∨ agtSt s.dev = agNotReady ∨ agtSt s.dev = agReady) :=
  ⟨0x80, 0x40000000, live.onDev (fun d => d.setAgtSt agReady), by decide⟩

theorem witness_RoutesRun_agtPortPlanWrite_2 : ∃ (master : Byte) (value : Word) (s : State),
    writeTaken s.dev master.toNat (mAddr Reg.AGT_PORT_PLAN) 32 value.toNat ∧ value.toNat.testBit 30 = false ∧ value.toNat.testBit 31 = true ∧ agtSt s.dev = agAddressed :=
  ⟨0x80, 0x80000005, live.onDev (fun d => d.setAgtSt agAddressed), by decide⟩

theorem witness_RoutesRun_rtrMaWrite : ∃ (master : Byte) (value : Word) (s : State),
    writeTaken s.dev master.toNat (mAddr Reg.RTR_MA) 32 value.toNat ∧ anyLive s.dev = false :=
  ⟨0x80, 0x8007, live.onDev (fun d => (d.setBankState 1 0).setAgtSt agUnaddressed), by decide⟩

theorem witness_RoutesRun_rtrMaWrite_2 : ∃ (master : Byte) (value : Word) (s : State),
    writeTaken s.dev master.toNat (mAddr Reg.RTR_MA) 32 value.toNat ∧ anyLive s.dev = true :=
  ⟨0x80, 0x8007, live, by decide⟩

theorem witness_RoutesRun_routePrepare : ∃ (m : TMsg) (s : State),
    trioMode s.dev = false ∧ field m.body 0 4 = s.dev.rd Reg.AGT_TERM ∧ (msgMa m).isSome = true ∧ msgMa m = managerMa s.dev ∧ field m.body 17 1 = 4 ∧ prepareBodyOk m.body = true ∧ preparedMas m.body = [] ∧ bankState s.dev (field m.body 4 4 % 2) = 0 ∧ anyLive s.dev = false ∧ 1 ≤ field m.body 4 4 :=
  ⟨fromManager ([0, 0, 0, 0, 1, 0, 0, 0] ++ List.replicate 9 0 ++ [4, 0, 0]), up.onDev (fun d => d.wr Reg.AGT_MANAGER 0x8006), by decide⟩

theorem witness_RoutesRun_routePrepare_2 : ∃ (m : TMsg) (s : State),
    trioMode s.dev = false ∧ field m.body 0 4 < s.dev.rd Reg.AGT_TERM :=
  ⟨fromManager ([0, 0, 0, 0, 1, 0, 0, 0] ++ List.replicate 9 0 ++ [4, 0, 0]), host.onDev (fun d => d.wr Reg.AGT_TERM 9), by decide⟩

theorem witness_RoutesRun_rtbGen : ∃ (master : Byte) (value : Word) (s : State),
    writeTaken s.dev master.toNat (mAddr Reg.RTB_GEN) 32 value.toNat ∧ bankState s.dev (value.toNat % 2) = 0 ∧ maValid s.dev = true :=
  ⟨0x80, 0, live, by decide⟩

theorem witness_RoutesRun_rtbGen_2 : ∃ (master : Byte) (value : Word) (s : State),
    writeTaken s.dev master.toNat (mAddr Reg.RTB_GEN) 32 value.toNat ∧ bankState s.dev (value.toNat % 2) ≠ 0 :=
  ⟨0x80, 1, live, by decide⟩

theorem witness_RoutesRun_genFault : ∃ (master : Byte) (value : Word) (s : State),
    writeTaken s.dev master.toNat (mAddr Reg.RTB_GEN) 32 value.toNat ∧ bankState s.dev (value.toNat % 2) = 0 ∧ maValid s.dev = true ∧ s.dev.domainOn 0x029 = true :=
  ⟨0x80, 0, live, by decide⟩

theorem witness_RoutesRun_cmapSummaryDue : ∃ (s : State),
    s.dev.rd Reg.AGT_CMAP_PERIOD ≠ 0 ∧ s.dev.rd Reg.AGT_CMAP_PERIOD ≤ s.dev.agt.cmapCount ∧ (managers s.dev).any (canSend s.dev) = true :=
  ⟨host.onDev (fun d => { d.wr Reg.AGT_CMAP_PERIOD 10 with agt := { d.agt with cmapCount := 10 } }), by decide⟩

theorem witness_RoutesRun_cmapSummaryDue_2 : ∃ (s : State),
    s.dev.rd Reg.AGT_CMAP_PERIOD ≤ s.dev.agt.cmapCount ∧ (s.dev.rd Reg.AGT_CMAP_PERIOD = 0 ∨ (managers s.dev).any (canSend s.dev) = false) :=
  ⟨host.onDev (fun d => d.wr Reg.AGT_CMAP_PERIOD 0), by decide⟩

theorem witness_RoutesRun_cmapSummaryDue_3 : ∃ (s : State),
    s.dev.agt.cmapCount < s.dev.rd Reg.AGT_CMAP_PERIOD :=
  ⟨host.onDev (fun d => d.wr Reg.AGT_CMAP_PERIOD 10), by decide⟩

theorem witness_ManagerRuns_drainTimer : ∃ (b : Fin 2) (s : State),
    bankState s.dev b.val = 3 ∧ belRole s.dev ≠ roActive :=
  ⟨0, live.onDev (fun d => d.setBankState 0 3), by decide⟩

theorem witness_ManagerRuns_claimAck : ∃ (m : TMsg) (ma : Nat) (s : State),
    belRole s.dev = roActive ∧ field m.body 0 4 = s.dev.rd Reg.BEL_TERM ∧ m.src = .fabric ma ∧ hasRoute s.dev ma = true ∧ originMa s.dev ≠ some ma ∧ (s.dev.mgr.scripts.map (·.waits)).flatten.filter (fun w => w.2.ma == ma && w.2.writes) = [] ∧ belfryBody 5 m.body = true :=
  ⟨fromManager (List.replicate 8 0), 6, manager, by decide⟩

theorem witness_ManagerRuns_claimAck_2 : ∃ (m : TMsg) (ma : Nat) (s : State),
    belRole s.dev = roActive ∧ field m.body 0 4 = s.dev.rd Reg.BEL_TERM ∧ m.src = .fabric ma ∧ belfryBody 5 m.body = true :=
  ⟨fromManager (List.replicate 8 0), 6, managing { live.dev.mgr with scripts := [⟨.install, [], [(3, prepSend 6)]⟩] }, by decide⟩

theorem witness_ManagerRuns_claimAck_3 : ∃ (m : TMsg) (o : Option Nat) (path : List Nat) (rt : Nat) (s : State),
    belRole s.dev = roActive ∧ field m.body 0 4 = s.dev.rd Reg.BEL_TERM ∧ m.src = .relay o path rt ∧ s.dev.mgr.frontier.contains path = true ∧ field m.body 4 4 = 0 ∧ belfryBody 5 m.body = true :=
  ⟨{ fromManager (List.replicate 8 0) with src := .relay none [0] 1 }, none, [0], 1, managing { live.dev.mgr with frontier := [[0]] }, by decide⟩

theorem witness_ManagerRuns_claimAck_4 : ∃ (m : TMsg) (s : State),
    (belRole s.dev ≠ roActive ∨ field m.body 0 4 ≠ s.dev.rd Reg.BEL_TERM) ∧ belfryBody 5 m.body = true :=
  ⟨fromManager (List.replicate 8 0), live, by decide⟩

theorem witness_ManagerRuns_discoverReply : ∃ (m : TMsg) (ma : Nat) (x : Plan) (s : State),
    s.dev.agt.plan = some x ∧ servesJobs s.dev = true ∧ m.src = .fabric ma ∧ ma ≠ myMa s.dev ∧ (mgrMod s.dev (myMa s.dev)).any (fun y => y.acked) = true ∧ belfryBody 8 m.body = true :=
  ⟨fromManager (List.replicate 112 0), 6, plan, managing { live.dev.mgr with mods := [(5, some { MgrMod.new with acked := true })] }, ⟨rfl, by decide⟩⟩

theorem witness_ManagerRuns_discoverReply_2 : ∃ (m : TMsg) (o : Option Nat) (path : List Nat) (rt at_ p ma : Nat) (x : Plan) (s : State),
    s.dev.agt.plan = some x ∧ servesJobs s.dev = true ∧ m.src = .relay o path rt ∧ s.dev.mgr.frontier.contains path = true ∧ at_ = pathEnd x (myMa s.dev) (path.take (path.length - 1)) ∧ p = path.getLastD 0 ∧ ma = (x.far at_ p).1 ∧ ma ≠ myMa s.dev ∧ x.empty ma = false ∧ belfryBody 8 m.body = true :=
  ⟨{ fromManager ([9, 0, 0, 0, 0, 0, 0, 0, 0, 2] ++ List.replicate 102 0) with src := .relay none [0] 1 }, none, [0], 1, 5, 0, 6, plan, managing { live.dev.mgr with frontier := [[0], [1]] }, ⟨rfl, by decide⟩⟩

theorem witness_ManagerRuns_readyChange : ∃ (m : TMsg) (y : MgrMod) (s : State),
    mgrMod s.dev (bits (field m.body 4 2) 14 0) = some y ∧ bits (field m.body 0 4) 3 0 = agReady ∧ (∀ x, s.dev.agt.plan = some x → transitSends s.dev x (bits (field m.body 4 2) 14 0) (field m.body 0 4) = []) ∧ belfryBody 9 m.body = true :=
  ⟨fromManager ([3, 0, 0, 0, 6] ++ List.replicate 9 0), MgrMod.new, managing { live.dev.mgr with mods := [(6, some MgrMod.new)], excluded := [6] }, by decide⟩

theorem witness_ManagerRuns_readyChange_2 : ∃ (m : TMsg) (y : MgrMod) (ten : Nat) (z : Slice) (s : State),
    mgrMod s.dev (bits (field m.body 4 2) 14 0) = some y ∧ bits (field m.body 0 4) 3 0 ≠ agReady ∧ bits y.agt 3 0 = agReady ∧ s.dev.mgr.slices.find? (fun e => match e.2 with | some y => y.members.contains (bits (field m.body 4 2) 14 0) | none => false) = some (ten, some z) ∧ z.st = 2 ∧ belfryBody 9 m.body = true :=
  ⟨fromManager ([4, 0, 0, 0, 6] ++ List.replicate 9 0), { MgrMod.new with agt := 3 }, 7, ⟨2, false, [5, 6], [], 0⟩, managing { live.dev.mgr with mods := [(6, some { MgrMod.new with agt := 3 })], slices := [(7, some ⟨2, false, [5, 6], [], 0⟩)] }, by decide⟩

theorem witness_ManagerRuns_routeReady : ∃ (m : TMsg) (stages : List (List MgrSend)) (waits : List (Nat × MgrSend)) (s : State),
    s.dev.mgr.scripts = [⟨.install, stages, waits⟩] ∧ field m.body 5 1 = OK ∧ waits.any (fun w => w.1 == m.rtag) = true ∧ waits.filter (fun w => w.1 != m.rtag) ≠ [] ∧ belfryBody 14 m.body = true :=
  ⟨{ fromManager (List.replicate 8 0) with rtag := 3 }, [], [(3, prepSend 6), (4, prepSend 7)], managing { live.dev.mgr with scripts := [⟨.install, [], [(3, prepSend 6), (4, prepSend 7)]⟩] }, by decide⟩

theorem witness_ManagerRuns_routeReady_2 : ∃ (m : TMsg) (w x : MgrSend) (tag : Nat) (s : State),
    s.dev.mgr.scripts = [⟨.install, [[x]], [(m.rtag, w)]⟩] ∧ field m.body 5 1 = OK ∧ tag = s.dev.mgr.tag ∧ x.family ≠ 0 ∧ belfryBody 14 m.body = true :=
  ⟨{ fromManager (List.replicate 8 0) with rtag := 3 }, prepSend 6, prepSend 6, 0, managing { live.dev.mgr with scripts := [⟨.install, [[prepSend 6]], [(3, prepSend 6)]⟩] }, by decide⟩

theorem witness_ManagerRuns_policyDone : ∃ (m : TMsg) (ten : Nat) (stages : List (List MgrSend)) (x : MgrSend) (y : Slice) (s : State),
    s.dev.mgr.scripts = [⟨.setup ten, stages, [(m.rtag, x)]⟩] ∧ field m.body 0 1 ≠ OK ∧ sliceOf s.dev ten = some y ∧ y.st = 1 ∧ y.members = [] ∧ y.contained = false ∧ belfryBody 17 m.body = true :=
  ⟨{ fromManager [10, 0, 0, 0] with rtag := 3 }, 7, [], prepSend 6, ⟨1, false, [], [], 0⟩, managing { live.dev.mgr with scripts := [⟨.setup 7, [], [(3, prepSend 6)]⟩], slices := [(7, some ⟨1, false, [], [], 0⟩)] }, by decide⟩

theorem witness_ManagerRuns_policyDone_2 : ∃ (m : TMsg) (ten : Nat) (x : MgrSend) (y : Slice) (s : State),
    s.dev.mgr.scripts = [⟨.setup ten, [], [(m.rtag, x)]⟩] ∧ field m.body 0 1 = OK ∧ sliceOf s.dev ten = some y ∧ y.contained = false ∧ belfryBody 17 m.body = true :=
  ⟨{ fromManager [0, 7, 0, 0] with rtag := 3 }, 7, prepSend 6, ⟨1, false, [5], [], 0⟩, managing { live.dev.mgr with scripts := [⟨.setup 7, [], [(3, prepSend 6)]⟩], slices := [(7, some ⟨1, false, [5], [], 0⟩)] }, by decide⟩

theorem witness_ManagerRuns_routePrepareResend : ∃ (ma : BitVec 15) (tag : Nat) (body : List Byte) (stages : List (List MgrSend)) (s : State),
    s.dev.mgr.scripts = [⟨.install, stages, [(tag, ⟨ma.toNat, famBelfry, 13, body⟩)]⟩] ∧ reaches s.dev ma.toNat = true ∧ originMa s.dev ≠ some ma.toNat ∧ mayWrite s.dev ma.toNat = true :=
  ⟨6, 3, [], [], (managing { live.dev.mgr with mods := [(6, some { MgrMod.new with acked := true })], scripts := [⟨.install, [], [(3, prepSend 6)]⟩] }).onDev (fun d => { d with agt := { d.agt with plan := none } }), by decide⟩

theorem witness_ManagerRuns_routePrepareLost : ∃ (ma : BitVec 15) (y : MgrMod) (s : State),
    (s.dev.mgr.scripts.map (·.waits)).flatten.any (fun w => w.2.ma == ma.toNat && w.2.code == 13) = true ∧ mgrMod s.dev ma.toNat = some y ∧ ma.toNat ≠ myMa s.dev :=
  ⟨6, MgrMod.new, managing { live.dev.mgr with mods := [(6, some MgrMod.new)], scripts := [⟨.install, [], [(3, prepSend 6)]⟩] }, by decide⟩

theorem witness_ManagerRuns_failureSettle : ∃ (x : Plan) (s : State),
    s.dev.agt.plan = some x ∧ s.dev.mgr.settling = true ∧ belRole s.dev = roActive :=
  ⟨plan, managing { live.dev.mgr with settling := true, install := some ⟨2, [5], true, none, [], none, false⟩ }, ⟨rfl, by decide⟩⟩

theorem witness_ManagerRuns_cmapSummary : ∃ (m : TMsg) (ma : Nat) (y : MgrMod) (s : State),
    msgMa m = some ma ∧ mgrMod s.dev ma = some y ∧ s.dev.bel.mate ≠ some ma ∧ belfryBody 15 m.body = true :=
  ⟨fromManager (List.replicate 74 0), 6, MgrMod.new, managing { live.dev.mgr with mods := [(6, some MgrMod.new)] }, by decide⟩

theorem witness_MessagesReachRegisters_votedWrite : ∃ (src : BitVec 15) (wseq : Word) (addr : BitVec 40) (width : Nat) (value : BitVec 64) (i : Nat) (s : State),
    trioMode s.dev = true ∧ ((voters s.dev).map (·.2)).contains src.toNat = true ∧ (voteList s.dev).any (fun e => e.2.wseq == wseq.toNat) = false ∧ (upFrom 0 256).find? (fun i => !(voteList s.dev).any (fun e => e.1 == i)) = some i :=
  ⟨6, 1, BitVec.ofNat 40 (mAddr Reg.AGT_VOTER2), 4, 0x8008, 0, voter, by decide⟩

theorem witness_MessagesReachRegisters_votedWrite_2 : ∃ (src : BitVec 15) (wseq : Word) (value : BitVec 64) (i : Nat) (v : Vote) (s : State),
    trioMode s.dev = true ∧ ((voters s.dev).map (·.2)).contains src.toNat = true ∧ (voteList s.dev).find? (fun e => e.2.wseq == wseq.toNat && e.2.addr == mAddr Reg.AGT_VOTER2 && e.2.width == 4 && e.2.value == value.toNat % 2 ^ 32) = some (i, v) ∧ v.voters.contains src.toNat = false ∧ v.applied = false ∧ writeTaken s.dev 0x80 (mAddr Reg.AGT_VOTER2) 32 (value.toNat % 2 ^ 32) :=
  ⟨5, 1, 0x8008, 0, ⟨1, mAddr Reg.AGT_VOTER2, 4, 0x8008, [6], false, none, (0, 0)⟩, voter.onDev (fun d => d.setVote 0 (some ⟨1, mAddr Reg.AGT_VOTER2, 4, 0x8008, [6], false, none, (0, 0)⟩)), by decide⟩

theorem witness_MessagesReachRegisters_votedWrite_3 : ∃ (src : BitVec 15) (wseq : Word) (addr : BitVec 40) (width : Nat) (value : BitVec 64) (s : State),
    trioMode s.dev = true ∧ ((voters s.dev).map (·.2)).contains src.toNat = false :=
  ⟨9, 1, 0, 4, 0, voter, by decide⟩

theorem witness_MessagesReachRegisters_policySet : ∃ (m : TMsg) (i v : Nat) (s : State),
    trioMode s.dev = false ∧ field m.body 0 4 = s.dev.rd Reg.AGT_TERM ∧ (msgMa m).isSome = true ∧ msgMa m = managerMa s.dev ∧ policyEntries m.body = [(i, v)] ∧ 64 ≤ i ∧ i < 256 ∧ v.testBit 15 = true ∧ 0x10 ≤ bits v 55 48 ∧ bits v 55 48 ≤ bits v 63 56 ∧ bits v 63 56 ≤ 0x1F ∧ bits v 35 24 ≤ bits v 47 36 :=
  ⟨fromManager ([0, 0, 0, 0, 1, 0, 0, 0, 64, 0, 0, 0, 0, 0, 0, 0] ++ leBytes 8 0x1F1000000000F000), 64, 0x1F1000000000F000, host, by decide⟩

theorem witness_MessagesReachRegisters_policySet_2 : ∃ (m : TMsg) (s : State),
    trioMode s.dev = false ∧ field m.body 0 4 = s.dev.rd Reg.AGT_TERM ∧ (msgMa m).isSome = true ∧ msgMa m = managerMa s.dev ∧ policyDeclined (policyEntries m.body) = true ∧ 1 ≤ field m.body 4 1 ∧ field m.body 4 1 ≤ 7 :=
  ⟨fromManager ([0, 0, 0, 0, 1, 0, 0, 0, 63, 0, 0, 0, 0, 0, 0, 0] ++ leBytes 8 0), host, by decide⟩

theorem witness_MessagesReachRegisters_policySet_3 : ∃ (m : TMsg) (s : State),
    trioMode s.dev = false ∧ field m.body 0 4 = s.dev.rd Reg.AGT_TERM ∧ (msgMa m).isSome = true ∧ msgMa m = managerMa s.dev ∧ (field m.body 4 1 = 0 ∨ 7 < field m.body 4 1) :=
  ⟨fromManager ([0, 0, 0, 0, 8, 0, 0, 0, 64, 0, 0, 0, 0, 0, 0, 0] ++ leBytes 8 0), host, by decide⟩

theorem witness_MessagesReachRegisters_regRead : ∃ (m : TMsg) (slot : Fin 16) (addr v : Nat) (s : State),
    served s.dev m famReg 1 ∧ m.reply = false ∧ m.src = .host slot ∧ readEntries m.body = some [(addr, 4)] ∧ readTaken s.dev (0x10 + slot.val) addr 32 ∧ s.dev.readAt (0x10 + slot.val) addr 32 = (OK, v, s.dev) ∧ quiet s.dev :=
  ⟨fromHost ([1, 0, 0, 0] ++ leBytes 5 (mAddr Reg.AGT_MANAGER) ++ [4, 0, 0]), 0, mAddr Reg.AGT_MANAGER, 0x8006, host, by decide⟩

theorem witness_MessagesReachRegisters_regRead_2 : ∃ (m : TMsg) (s : State),
    served s.dev m famReg 1 ∧ m.reply = false ∧ readEntries m.body = none ∧ quiet s.dev :=
  ⟨fromHost [1, 0, 0], host, by decide⟩

theorem witness_MessagesReachRegisters_regWrite : ∃ (m : TMsg) (slot : Fin 16) (e : RegEntry) (u : State) (s : State),
    served s.dev m famReg 2 ∧ m.reply = false ∧ m.src = .host slot ∧ field m.body 0 4 = 0 ∧ writeEntries m.body = some [e] ∧ entryWrite (0x10 + slot.val) e.addr (8 * e.width) (e.value % 2 ^ (8 * e.width)) s = (some OK, u) :=
  ⟨fromHost ([0, 0, 0, 0, 1, 0, 0, 0] ++ leBytes 5 (mAddr Reg.AGT_CMAP_PERIOD) ++ [4, 0, 0] ++ leBytes 8 20), 0, ⟨mAddr Reg.AGT_CMAP_PERIOD, 4, 20⟩, (entryWrite 0x10 (mAddr Reg.AGT_CMAP_PERIOD) 32 20 host).2, host, by decide⟩

theorem witness_MessagesReachRegisters_regWrite_2 : ∃ (m : TMsg) (s : State),
    m.reply = false ∧ fromFabric m = true ∧ trioMode s.dev = false ∧ field m.body 0 4 < s.dev.rd Reg.AGT_TERM ∧ (writeEntries m.body).isSome = true ∧ quiet s.dev :=
  ⟨fromManager ([0, 0, 0, 0, 1, 0, 0, 0] ++ leBytes 5 (mAddr Reg.AGT_CMAP_PERIOD) ++ [4, 0, 0] ++ leBytes 8 20), host.onDev (fun d => d.wr Reg.AGT_TERM 9), by decide⟩

theorem witness_MessagesReachRegisters_mbxPost : ∃ (m : TMsg) (k : Nat) (s : State),
    served s.dev m famMbx 1 ∧ k = field m.body 0 1 ∧ k < 64 ∧ field m.body 1 1 = 0xFF ∧ 1 ≤ field m.body 2 2 ∧ field m.body 2 2 ≤ 256 ∧ m.body.length = 4 + field m.body 2 2 ∧ (mbxCfg s.dev k).testBit 31 = true ∧ (mbxCfg s.dev k).testBit 30 = true ∧ (mbxCfg s.dev k).testBit 9 = true ∧ (postMsg s.dev (reqOf m famMbx 1) []).system = true ∧ (s.dev.mbox k).fifo.length < 16 :=
  ⟨fromHost [3, 0xFF, 2, 0, 1, 2], 3, host.onDev (fun d => (d.wr (mbxKey Reg.MBXM_CFG 3) 0xC0020200).setMbox 3 Mbx.empty), by decide⟩

theorem witness_MessagesReachRegisters_debugAccess : ∃ (m : TMsg) (slot : Fin 16) (addr v : Nat) (s : State),
    served s.dev m famDebug 4 ∧ m.src = .host slot ∧ slotTenant s.dev slot.val = none ∧ dbgMode s.dev ≠ 0 ∧ readEntries m.body = some [(addr, 4)] ∧ readTaken s.dev 7 addr 32 ∧ s.dev.readAt 7 addr 32 = (OK, v, s.dev) ∧ quiet s.dev :=
  ⟨fromHost ([1, 0, 0, 0] ++ leBytes 5 (mAddr Reg.AGT_MANAGER) ++ [4, 0, 0]), 0, mAddr Reg.AGT_MANAGER, 0x8006, host.onDev (fun d => d.wr Reg.DBG_MODE 2), by decide⟩

theorem witness_MessagesReachRegisters_debugAccess_2 : ∃ (m : TMsg) (slot : Fin 16) (es : List RegEntry) (s : State),
    served s.dev m famDebug 4 ∧ m.src = .host slot ∧ slotTenant s.dev slot.val = none ∧ dbgMode s.dev < 2 ∧ readEntries m.body = none ∧ writeEntries m.body = some es :=
  ⟨fromHost ([0, 0, 0, 0, 1, 0, 0, 0] ++ leBytes 5 (mAddr Reg.AGT_CMAP_PERIOD) ++ [4, 0, 0] ++ leBytes 8 20), 0, [⟨mAddr Reg.AGT_CMAP_PERIOD, 4, 20⟩], host, by decide⟩

theorem witness_FetchesRun_sramInitDone : ∃ (other : Bool) (s : State),
    bootStage s.dev = sgSramInit ∧ moduleResets s.dev = false ∧ s.dev.powered.core = true :=
  ⟨false, boot sgSramInit 0 0, by decide⟩

theorem witness_FetchesRun_sramInitDone_2 : ∃ (other : Bool) (s : State),
    bootStage s.dev = sgSramInit ∧ moduleResets s.dev = false ∧ s.dev.powered.core = true ∧ bits (s.dev.rd Reg.PWR_STATE) 2 0 ≠ 3 ∧ s.dev.rd Reg.PWR_TARGET < 3 :=
  ⟨true, boot sgSramInit 0 0, by decide⟩

theorem witness_FetchesRun_imageData : ∃ (kind piece off : Nat) (data : List Byte) (sig : Bool) (f : Fetch) (s : State),
    hostRuns s.dev = true ∧ s.dev.host.fetch = some f ∧ f.kind = kind ∧ f.running = true ∧ f.sigOk = false ∧ f.gets.contains (piece, off) = true ∧ data ≠ [] ∧ data.length ≤ 1024 ∧ 4 ≤ 4 * piece + off / 1024 ∧ SMap.get (fun _ => []) f.quarters 0 = [] :=
  ⟨1, 1, 1024, [5, 6], true, { fetch with gets := [(1, 1024)] }, fetching { fetch with gets := [(1, 1024)] }, by decide⟩

theorem witness_FetchesRun_imageGetResend : ∃ (piece off : Nat) (f : Fetch) (s : State),
    s.dev.host.fetch = some f ∧ f.running = true ∧ f.gets.contains (piece, off) = true :=
  ⟨1, 1024, { fetch with gets := [(1, 1024)] }, fetching { fetch with gets := [(1, 1024)] }, by decide⟩

theorem witness_FetchesRun_imageFetchTimeout : ∃ (f : Fetch) (s : State),
    s.dev.host.fetch = some f ∧ f.running = true ∧ f.kind ≠ kdPlan :=
  ⟨fetch, fetching fetch, by decide⟩

theorem witness_FetchesRun_imageFetchRetry : ∃ (f : Fetch) (s : State),
    s.dev.host.fetch = some f ∧ f.running = false ∧ f.kind ≠ kdPlan ∧ serverNamed s.dev = true ∧ f.gets = [] ∧ f.quarters = [] :=
  ⟨{ fetch with running := false }, fetching { fetch with running := false }, by decide⟩

theorem witness_FetchesRun_planFetchRetry : ∃ (f : Fetch) (s : State),
    s.dev.host.fetch = some f ∧ f.kind = kdPlan ∧ f.quarters = [] ∧ 3 ≤ f.tries :=
  ⟨{ fetch with kind := 3, tries := 3 }, fetching { fetch with kind := 3, tries := 3 }, by decide⟩

theorem witness_FetchesRun_planFetchRetry_2 : ∃ (f : Fetch) (s : State),
    s.dev.host.fetch = some f ∧ f.kind = kdPlan ∧ f.quarters = [] ∧ f.tries < 3 :=
  ⟨{ fetch with kind := 3, tries := 1 }, fetching { fetch with kind := 3, tries := 1 }, by decide⟩

theorem witness_PealRuns_pealPkt : ∃ (p : Packet) (sig : Bool) (s : State),
    lineAxis p.src p.dest = none ∧ receiving s.dev = true ∧ p.opid = pealNum s.dev ∧ 1 ≤ p.seq ∧ p.seq ≤ 8224 ∧ rxPieces s.dev 0 = none ∧ rxPieces s.dev p.seq = none ∧ s.dev.agt.peal.sigOk = false :=
  ⟨piecePkt 9 4, false, rx PealRx.none_ plReceiving, by decide⟩

theorem witness_PealRuns_pealPkt_2 : ∃ (p : Packet) (sig : Bool) (s : State),
    lineAxis p.src p.dest = none ∧ (pealSt s.dev = plIdle ∨ p.opid ≠ pealNum s.dev) ∧ receiving s.dev = true ∧ s.dev.agt.peal.idle = false :=
  ⟨piecePkt 8 4, false, rx PealRx.none_ plReceiving, by decide⟩

theorem witness_PealRuns_pealEnd : ∃ (p : Packet) (i : Nat) (s : State),
    lineAxis p.src p.dest = none ∧ receiving s.dev = true ∧ p.opid = pealNum s.dev ∧ i ≤ p.seq ∧ p.seq ≤ 8224 ∧ rxPieces s.dev i = none :=
  ⟨piecePkt 9 2, 1, rx PealRx.none_ plReceiving, by decide⟩

theorem witness_PealRuns_pealEnd_2 : ∃ (p : Packet) (s : State),
    lineAxis p.src p.dest = none ∧ 8224 < p.seq :=
  ⟨piecePkt 9 8225, rx PealRx.none_ plReceiving, by decide⟩

theorem witness_PealRuns_pealNeed : ∃ (m : TMsg) (ma i : Nat) (data : List Byte) (s : State),
    msgMa m = some ma ∧ pealSt s.dev ≠ plIdle ∧ field m.body 0 2 = pealNum s.dev ∧ needPieces m.body = [i] ∧ rxPieces s.dev i = some data ∧ belfryBody 10 m.body = true :=
  ⟨fromManager [9, 0, 1, 2, 0], 6, 2, [7], rx { PealRx.none_ with pieces := [(2, some [7])] } plReceiving, by decide⟩

theorem witness_PealRuns_pealNeed_2 : ∃ (m : TMsg) (ma i : Nat) (s : State),
    msgMa m = some ma ∧ needPieces m.body = [i] ∧ rxPieces s.dev i = none ∧ belfryBody 10 m.body = true :=
  ⟨fromManager [9, 0, 1, 2, 0], 6, 2, rx PealRx.none_ plReceiving, by decide⟩

theorem witness_PealRuns_pealNotHeld : ∃ (m : TMsg) (i : Nat) (s : State),
    receiving s.dev = true ∧ field m.body 0 2 = pealNum s.dev ∧ needPieces m.body = [i] ∧ rxPieces s.dev i = none ∧ s.dev.agt.peal.notHeld.contains i = false ∧ belfryBody 11 m.body = true :=
  ⟨fromManager [9, 0, 1, 2, 0], 2, rx PealRx.none_ plRepairing, by decide⟩

theorem witness_PealRuns_pealIdleTimeout : ∃ (s : State),
    pealSt s.dev = plReceiving ∧ missingPieces s.dev ≠ [] :=
  ⟨rx PealRx.none_ plReceiving, by decide⟩

theorem witness_PealRuns_pealRepairTimeout : ∃ (s : State),
    pealSt s.dev = plRepairing :=
  ⟨rx PealRx.none_ plRepairing, by decide⟩

theorem witness_PealRuns_pealCampaignTimeout : ∃ (s : State),
    receiving s.dev = true ∧ s.dev.domainOn 0x069 = true :=
  ⟨rx PealRx.none_ plRepairing, by decide⟩

theorem witness_PealRuns_pealActivate : ∃ (m : TMsg) (s : State),
    trioMode s.dev = false ∧ field m.body 0 4 = s.dev.rd Reg.AGT_TERM ∧ (msgMa m).isSome = true ∧ msgMa m = managerMa s.dev ∧ namesObject s.dev m = true ∧ belfryBody 12 m.body = true ∧ objKind (rxPieces s.dev) = kdExt ∧ inRom s.dev = false :=
  ⟨fromManager [0, 0, 0, 0, 9, 0, 1], (rx { PealRx.none_ with pieces := [(0, some [0x50, 0x45, 0x41, 0x4C, 1])], sigOk := true, verified := true } plVerified).onDev (fun d => d.setPeal 9 1 plVerified), by decide⟩

theorem witness_PealRuns_pealActivate_2 : ∃ (m : TMsg) (x : Plan) (s : State),
    trioMode s.dev = false ∧ field m.body 0 4 = s.dev.rd Reg.AGT_TERM ∧ (msgMa m).isSome = true ∧ msgMa m = managerMa s.dev ∧ namesObject s.dev m = true ∧ belfryBody 12 m.body = true ∧ objKind (rxPieces s.dev) = kdPlan ∧ parsePlan (objDigest (rxPieces s.dev)) (objData (rxPieces s.dev)) = some x :=
  ⟨fromManager [0, 0, 0, 0, 9, 0, 3], (parsePlan 0 planData).getD plan, (rx { PealRx.none_ with pieces := [(0, some planHead), (1, some []), (2, some planData)], sigOk := true, verified := true } plVerified).onDev (fun d => d.setPeal 9 3 plVerified), by decide⟩

theorem witness_PealRuns_pealPut : ∃ (m : TMsg) (data : List Byte) (s : State),
    served s.dev m famPeal 1 ∧ servesJobs s.dev = true ∧ data = m.body.drop 8 ∧ m.body.length = 8 + field m.body 6 2 ∧ 1 ≤ field m.body 6 2 ∧ field m.body 6 2 ≤ 1024 ∧ field m.body 0 4 ≤ 8224 ∧ field m.body 4 2 + field m.body 6 2 ≤ 4096 :=
  ⟨fromHost [2, 0, 0, 0, 0, 0, 1, 0, 7], [7], manager, by decide⟩

theorem witness_PealRuns_pealStart : ∃ (m : TMsg) (sig : Bool) (s : State),
    served s.dev m famPeal 2 ∧ servesJobs s.dev = true ∧ m.body.length = 8 ∧ field m.body 1 3 = 0 ∧ 1 ≤ field m.body 0 1 ∧ field m.body 0 1 ≤ 4 ∧ field m.body 4 4 = objN (sentPieces s.dev) ∧ bufferOk s.dev (field m.body 0 1) sig = true :=
  ⟨fromHost [1, 0, 0, 0, 0, 0, 0, 0], true, managing { live.dev.mgr with pieces := [(0, some [0x50, 0x45, 0x41, 0x4C, 1])] }, by decide⟩

theorem witness_PealRuns_pealStart_2 : ∃ (m : TMsg) (sig : Bool) (s : State),
    served s.dev m famPeal 2 ∧ servesJobs s.dev = true ∧ m.body.length = 8 ∧ field m.body 1 3 = 0 ∧ 1 ≤ field m.body 0 1 ∧ field m.body 0 1 ≤ 4 ∧ field m.body 4 4 = objN (sentPieces s.dev) ∧ bufferOk s.dev (field m.body 0 1) sig = false ∧ s.dev.domainOn 0x069 = true :=
  ⟨fromHost [4, 0, 0, 0, 0, 0, 0, 0], false, manager, by decide⟩

theorem witness_PealRuns_pealPace : ∃ (c : Campaign) (ma : Nat) (s : State),
    s.dev.mgr.campaign = some c ∧ servesJobs s.dev = true ∧ c.next < c.pieces ∧ c.num = pealNum s.dev ∧ c.aim = some ma ∧ s.dev.mgr.planDue = false :=
  ⟨⟨9, 1, 2, 0, some 6, false, false⟩, 6, (rx PealRx.none_ plVerified).onDev (fun d => { d.setRole roActive with mgr := { d.mgr with campaign := some ⟨9, 1, 2, 0, some 6, false, false⟩ } }), by decide⟩

theorem witness_PealRuns_pealPace_2 : ∃ (c : Campaign) (s : State),
    s.dev.mgr.campaign = some c ∧ servesJobs s.dev = true ∧ c.next < c.pieces ∧ c.num = pealNum s.dev ∧ c.aim = none :=
  ⟨⟨9, 1, 2, 0, none, false, false⟩, (rx PealRx.none_ plVerified).onDev (fun d => { d.setRole roActive with mgr := { d.mgr with campaign := some ⟨9, 1, 2, 0, none, false, false⟩ } }), by decide⟩

theorem witness_PealRuns_pealQuery : ∃ (m : TMsg) (v f : Nat) (s : State),
    served s.dev m famPeal 3 ∧ servesJobs s.dev = true ∧ namesCampaign s.dev m.body = true ∧ v = (((pealModules s.dev).map (pealOf s.dev (field m.body 0 2))).filter (fun x => x == 3)).length ∧ f = (((pealModules s.dev).map (pealOf s.dev (field m.body 0 2))).filter (fun x => x == 4)).length :=
  ⟨fromHost [9, 0], 1, 0, (rx PealRx.none_ plVerified).onDev (fun d => { (d.setSess 0 { Session.empty with st := 2, seen := 1 }).setRole roActive with mgr := { d.mgr with campaign := some ⟨9, 1, 2, 0, none, false, false⟩ } }), by decide⟩

theorem witness_PealRuns_pealCommit : ∃ (m : TMsg) (c : Campaign) (s : State),
    served s.dev m famPeal 4 ∧ servesJobs s.dev = true ∧ s.dev.mgr.campaign = some c ∧ m.body.length = 2 ∧ c.num = field m.body 0 2 ∧ memberMas s.dev = [] ∧ maValid s.dev = true ∧ (c.kind ≠ kdPlan ∨ (parsePlan (objDigest (rxPieces s.dev)) (objData (rxPieces s.dev))).isSome = true) :=
  ⟨fromHost [9, 0], ⟨9, 1, 2, 0, none, false, false⟩, (rx PealRx.none_ plVerified).onDev (fun d => { (d.setSess 0 { Session.empty with st := 2, seen := 1 }).setRole roActive with mgr := { d.mgr with campaign := some ⟨9, 1, 2, 0, none, false, false⟩ } }), by decide⟩

theorem witness_SlicesRun_sliceBegin : ∃ (m : TMsg) (slot : Fin 16) (s : State),
    served s.dev m famJob 1 ∧ servesJobs s.dev = true ∧ m.src = .host slot ∧ m.body.length = 12 ∧ field m.body 0 2 ≤ 511 ∧ field m.body 2 1 ≤ 1 ∧ field m.body 3 1 = 0 ∧ (asmOf s.dev (field m.body 0 2)).any (fun x => x.waiting.isSome) = false :=
  ⟨fromHost [7, 0, 0, 0, 1, 0, 0, 0, 0, 0, 0, 0], 0, manager, by decide⟩

theorem witness_SlicesRun_slicePart : ∃ (m : TMsg) (slot : Fin 16) (ten : Nat) (x : SliceAsm) (s : State),
    served s.dev m famJob 2 ∧ servesJobs s.dev = true ∧ m.src = .host slot ∧ field m.body 0 1 = 0 ∧ field m.body 1 1 = 0 ∧ 1 ≤ field m.body 2 2 ∧ field m.body 2 2 ≤ 700 ∧ m.body.length = 8 + 2 * field m.body 2 2 ∧ SMap.get (fun _ => 0) s.dev.mgr.begun slot.val = ten + 1 ∧ asmOf s.dev ten = some x ∧ field m.body 4 4 + field m.body 2 2 ≤ x.count :=
  ⟨fromHost [0, 0, 1, 0, 0, 0, 0, 0, 5, 0], 0, 7, ⟨false, 1, 0, [], [], none⟩, managing { live.dev.mgr with asms := [(7, some ⟨false, 1, 0, [], [], none⟩)], begun := [(0, 8)] }, by decide⟩

theorem witness_SlicesRun_slicePart_2 : ∃ (m : TMsg) (slot : Fin 16) (ten : Nat) (x : SliceAsm) (s : State),
    served s.dev m famJob 2 ∧ servesJobs s.dev = true ∧ m.src = .host slot ∧ field m.body 0 1 = 1 ∧ field m.body 1 1 = 0 ∧ 1 ≤ field m.body 2 2 ∧ field m.body 2 2 ≤ 58 ∧ m.body.length = 8 + 24 * field m.body 2 2 ∧ SMap.get (fun _ => 0) s.dev.mgr.begun slot.val = ten + 1 ∧ asmOf s.dev ten = some x ∧ field m.body 4 4 + field m.body 2 2 ≤ x.recCount :=
  ⟨fromHost ([1, 0, 1, 0, 0, 0, 0, 0] ++ List.replicate 24 0), 0, 7, ⟨false, 1, 1, [], [], none⟩, managing { live.dev.mgr with asms := [(7, some ⟨false, 1, 1, [], [], none⟩)], begun := [(0, 8)] }, by decide⟩

theorem witness_SlicesRun_sliceCommit : ∃ (m : TMsg) (x : SliceAsm) (mas : List Nat) (recs : List (List Byte)) (s : State),
    served s.dev m famJob 3 ∧ servesJobs s.dev = true ∧ m.body.length = 2 ∧ field m.body 0 2 ≤ 511 ∧ asmOf s.dev (field m.body 0 2) = some x ∧ x.items = some (mas, recs) ∧ x.waiting = none ∧ (memberMas s.dev.placeSelf).filter (fun ma => ma != myMa s.dev.placeSelf && mas.contains ma) = [] ∧ sliceCheck s.dev.placeSelf (field m.body 0 2) x.contained mas = OK :=
  ⟨fromHost [7, 0], ⟨false, 1, 0, [(0, some 5)], [], none⟩, [5], [], (managing { live.dev.mgr with asms := [(7, some ⟨false, 1, 0, [(0, some 5)], [], none⟩)] }).onDev (fun d => d.setAgtSt agReady), by and_intros <;> first | rfl | decide⟩

theorem witness_SlicesRun_sliceCommit_2 : ∃ (m : TMsg) (x : SliceAsm) (mas : List Nat) (recs : List (List Byte)) (s : State),
    served s.dev m famJob 3 ∧ servesJobs s.dev = true ∧ m.body.length = 2 ∧ field m.body 0 2 ≤ 511 ∧ asmOf s.dev (field m.body 0 2) = some x ∧ x.items = some (mas, recs) ∧ x.waiting = none ∧ (s.dev.placeSelf.sendStage (((memberMas s.dev.placeSelf).filter (fun ma => ma != myMa s.dev.placeSelf && mas.contains ma)).map (fun ma => readSend ma Reg.PWR_STATE))).1 ≠ [] :=
  ⟨fromHost [7, 0], ⟨false, 1, 0, [(0, some 6)], [], none⟩, [6], [], managing { live.dev.mgr with mods := [(6, some { MgrMod.new with acked := true, outcome := 1 })], asms := [(7, some ⟨false, 1, 0, [(0, some 6)], [], none⟩)] }, by and_intros <;> first | rfl | decide⟩

theorem witness_SlicesRun_sliceCommit_3 : ∃ (m : TMsg) (x : SliceAsm) (s : State),
    served s.dev m famJob 3 ∧ servesJobs s.dev = true ∧ m.body.length = 2 ∧ field m.body 0 2 ≤ 511 ∧ asmOf s.dev (field m.body 0 2) = some x ∧ x.items = none :=
  ⟨fromHost [7, 0], ⟨false, 1, 0, [], [], none⟩, managing { live.dev.mgr with asms := [(7, some ⟨false, 1, 0, [], [], none⟩)] }, by decide⟩

theorem witness_SlicesRun_sliceQuery : ∃ (m : TMsg) (y : Slice) (s : State),
    served s.dev m famJob 4 ∧ servesJobs s.dev = true ∧ m.body.length = 2 ∧ field m.body 0 2 ≤ 511 ∧ sliceOf s.dev (field m.body 0 2) = some y ∧ y.st ≤ 4 :=
  ⟨fromHost [7, 0], ⟨2, false, [5], [], 0⟩, managing { live.dev.mgr with slices := [(7, some ⟨2, false, [5], [], 0⟩)] }, by decide⟩

theorem witness_SlicesRun_sliceRelease : ∃ (m : TMsg) (y : Slice) (s : State),
    served s.dev m famJob 5 ∧ servesJobs s.dev = true ∧ m.body.length = 2 ∧ field m.body 0 2 ≤ 511 ∧ sliceOf s.dev (field m.body 0 2) = some y ∧ (y.st = 2 ∨ y.st = 3) ∧ y.members ≠ [] :=
  ⟨fromHost [7, 0], ⟨2, false, [5], [], 0⟩, managing { live.dev.mgr with slices := [(7, some ⟨2, false, [5], [], 0⟩)] }, by decide⟩

theorem witness_SlicesRun_sliceRelease_2 : ∃ (m : TMsg) (y : Slice) (s : State),
    served s.dev m famJob 5 ∧ servesJobs s.dev = true ∧ m.body.length = 2 ∧ field m.body 0 2 ≤ 511 ∧ sliceOf s.dev (field m.body 0 2) = some y ∧ (y.st = 1 ∨ y.st = 4) :=
  ⟨fromHost [7, 0], ⟨4, false, [5], [], 0⟩, managing { live.dev.mgr with slices := [(7, some ⟨4, false, [5], [], 0⟩)] }, by decide⟩

theorem witness_SlicesRun_transitDrain : ∃ (m : TMsg) (s : State),
    served s.dev m famJob 6 ∧ servesJobs s.dev = true ∧ m.body.length = 2 ∧ field m.body 0 2 = myMa s.dev ∧ inSlice s.dev (myMa s.dev) = false :=
  ⟨fromHost [5, 0], manager, by decide⟩

theorem witness_SlicesRun_transitDrain_2 : ∃ (m : TMsg) (s : State),
    served s.dev m famJob 6 ∧ servesJobs s.dev = true ∧ m.body.length = 2 ∧ ((memberMas s.dev).contains (field m.body 0 2) = true ∨ field m.body 0 2 = myMa s.dev) ∧ inSlice s.dev (field m.body 0 2) = true :=
  ⟨fromHost [5, 0], managing { live.dev.mgr with slices := [(7, some ⟨4, false, [5], [], 0⟩)] }, by decide⟩

theorem witness_SlicesRun_drainQuery : ∃ (m : TMsg) (s : State),
    served s.dev m famJob 7 ∧ servesJobs s.dev = true ∧ m.body.length = 2 ∧ 1 ≤ SMap.get (fun _ => 0) s.dev.mgr.drains (field m.body 0 2) :=
  ⟨fromHost [6, 0], managing { live.dev.mgr with drains := [(6, 2)] }, by decide⟩

theorem witness_MeasureAndScrubRun_measureBoundary : ∃ (util vcs : List (BitVec 16)) (s : State),
    s.dev.powered.aon = true ∧ s.dev.powered.core = true ∧ moduleResets s.dev = false ∧ bankPending s.dev = false ∧ (s.dev.rd (rkey 0x02B 0x010)).testBit 0 = false ∧ s.dev.rd Reg.AGT_CMAP_PERIOD = 0 :=
  ⟨[1], [2], host.onDev (fun d => d.wr Reg.AGT_CMAP_PERIOD 0), by decide⟩

theorem witness_MeasureAndScrubRun_measureBoundary_2 : ∃ (util vcs : List (BitVec 16)) (s : State),
    s.dev.powered.aon = true ∧ s.dev.powered.core = true ∧ moduleResets s.dev = false ∧ bankPending s.dev = false ∧ (s.dev.rd (rkey 0x02B 0x010)).testBit 0 = true ∧ s.dev.rd Reg.AGT_CMAP_PERIOD = 0 :=
  ⟨[1], [2], host.onDev (fun d => (d.wr Reg.AGT_CMAP_PERIOD 0).wr (rkey 0x02B 0x010) 1), by decide⟩

theorem witness_MeasureAndScrubRun_scrubStepDone : ∃ (x : Nat) (rest : List Nat) (s : State),
    s.dev.pwr.scrubs = x :: rest ∧ x < 512 ∧ scrubStep s.dev = 1 ∧ moduleResets s.dev = false :=
  ⟨7, [], scrubbingAt 1 [7], by decide⟩

theorem witness_MeasureAndScrubRun_scrubStepDone_2 : ∃ (x : Nat) (rest : List Nat) (s : State),
    s.dev.pwr.scrubs = x :: rest ∧ x < 512 ∧ scrubStep s.dev = 2 ∧ moduleResets s.dev = false :=
  ⟨7, [], scrubbingAt 2 [7], by decide⟩

theorem witness_MeasureAndScrubRun_scrubStepDone_3 : ∃ (x w n a : Nat) (rest : List Nat) (s : State),
    s.dev.pwr.scrubs = x :: rest ∧ x < 512 ∧ scrubStep s.dev = 3 ∧ moduleResets s.dev = false ∧ (ownRegions s.dev false x).any (fun r => wingResets s.dev r.1) = false ∧ (ownRegions s.dev false x).contains (w, n, w * 2 ^ 34 + bits (s.dev.rd (rkey (8 + w) 0x080 + 8 * n)) 31 16 * 2 ^ 21, bits (s.dev.rd (rkey (8 + w) 0x080 + 8 * n)) 15 0 * 2 ^ 21) = true ∧ s.dev.powered.wings.testBit w = true ∧ w * 2 ^ 34 + bits (s.dev.rd (rkey (8 + w) 0x080 + 8 * n)) 31 16 * 2 ^ 21 ≤ a ∧ a < w * 2 ^ 34 + bits (s.dev.rd (rkey (8 + w) 0x080 + 8 * n)) 31 16 * 2 ^ 21 + bits (s.dev.rd (rkey (8 + w) 0x080 + 8 * n)) 15 0 * 2 ^ 21 :=
  ⟨7, 1, 0, 0x400000010, [], (scrubbingAt 3 [7]).onDev (fun d => (d.wr (rkey 9 0x080) 1).wr (rkey 9 0x084) 7), by decide⟩

theorem witness_MeasureAndScrubRun_scrubStepDone_4 : ∃ (x : Nat) (rest : List Nat) (s : State),
    s.dev.pwr.scrubs = x :: rest ∧ x < 512 ∧ scrubStep s.dev = 4 ∧ moduleResets s.dev = false :=
  ⟨7, [], (scrubbingAt 4 [7]).onDev (fun d => (d.wr (rkey 9 0x080) 1).wr (rkey 9 0x084) 7), by decide⟩

theorem witness_MeasureAndScrubRun_scrubStepDone_5 : ∃ (x : Nat) (s : State),
    s.dev.pwr.scrubs = [x] ∧ x < 512 ∧ scrubStep s.dev = 5 ∧ moduleResets s.dev = false ∧ s.dev.pwr.scrubFirst = false ∧ s.dev.sec.transition = none :=
  ⟨7, scrubbingAt 5 [7], by decide⟩

theorem witness_StrongroomCallsRun_verifyObject : ∃ (core sig : Bool) (s : State),
    callIs s.dev core 1 = true ∧ manifestHeld (rxPieces s.dev) = true ∧ s.dev.agt.peal.sigOk = true ∧ s.dev.coreStopped 1 = false :=
  ⟨false, true, calling 1 (rx { PealRx.none_ with pieces := [(0, some [0x50])], sigOk := true } plReceiving), by decide⟩

theorem witness_StrongroomCallsRun_verifyObject_2 : ∃ (core : Bool) (s : State),
    callIs s.dev core 1 = true ∧ manifestHeld (rxPieces s.dev) = true ∧ s.dev.agt.peal.sigOk = false ∧ s.dev.agt.peal.sigFails = 0 ∧ s.dev.coreStopped 1 = false :=
  ⟨false, calling 1 (rx { PealRx.none_ with pieces := [(0, some [0x50])] } plReceiving), by decide⟩

theorem witness_StrongroomCallsRun_activateObject : ∃ (core : Bool) (s : State),
    callIs s.dev core 2 = true ∧ s.dev.agt.peal.verified = true ∧ objKind (rxPieces s.dev) = kdExt ∧ inRom s.dev = false ∧ s.dev.coreStopped 1 = false :=
  ⟨false, calling 2 (rx { PealRx.none_ with pieces := [(0, some [0x50, 0x45, 0x41, 0x4C, 1])], sigOk := true, verified := true } plVerified), by decide⟩

theorem witness_StrongroomCallsRun_activateObject_2 : ∃ (core : Bool) (s : State),
    callIs s.dev core 2 = true ∧ s.dev.agt.peal.verified = false ∧ s.dev.coreStopped 1 = false :=
  ⟨false, calling 2 live, by decide⟩

theorem witness_StrongroomCallsRun_signClaim : ∃ (core : Bool) (rank : Fin 8) (term : Word) (s : State),
    callIs s.dev core 3 = true ∧ myRank s.dev = some rank.val ∧ s.dev.rd Reg.AGT_TERM / 8 < term.toNat / 8 ∧ s.dev.coreStopped 1 = false :=
  ⟨false, 0, 15, calling 3 (planned live), ⟨by decide, by simp [myRank, calling, planned, Plan.rankOf, plan, live, up, State.onDev, Dev.wr, Dev.setBankState, Dev.setLnk], by decide, by decide⟩⟩

theorem witness_StrongroomCallsRun_signClaim_2 : ∃ (core : Bool) (rank : Fin 8) (term : Word) (s : State),
    callIs s.dev core 3 = true ∧ (myRank s.dev ≠ some rank.val ∨ term.toNat / 8 ≤ s.dev.rd Reg.AGT_TERM / 8) ∧ s.dev.coreStopped 1 = false :=
  ⟨false, 0, 15, calling 3 live, by decide⟩

theorem witness_StrongroomCallsRun_cellarKey : ∃ (core : Bool) (ten : Fin 512) (s : State),
    callIs s.dev core 4 = true ∧ keysAllowed s.dev = true ∧ s.dev.coreStopped 1 = false :=
  ⟨false, 7, calling 4 deployed, by decide⟩

theorem witness_StrongroomCallsRun_cellarKey_2 : ∃ (core : Bool) (ten : Fin 512) (k : Nat) (s : State),
    callIs s.dev core 4 = true ∧ keysAllowed s.dev = true ∧ celKeyOf s.dev false ten.val = CelKey.empty ∧ s.dev.coreStopped 1 = false :=
  ⟨false, 7, 99, calling 4 deployed, by decide⟩

theorem witness_StrongroomCallsRun_attest : ∃ (core : Bool) (nonce : Nat) (s : State),
    callIs s.dev core 5 = true ∧ signStatus s.dev = OK ∧ keptReport s.dev (nonce % 2 ^ 256) = none ∧ s.dev.sec.reports.length ≤ 16 ∧ s.dev.coreStopped 1 = false :=
  ⟨false, 5, calling 5 deployed, by decide⟩

theorem witness_StrongroomCallsRun_keyDelivery : ∃ (core : Bool) (ten : Fin 512) (k : Option Nat) (s : State),
    callIs s.dev core 6 = true ∧ keysAllowed s.dev = true ∧ s.dev.coreStopped 1 = false :=
  ⟨false, 7, some 99, calling 6 deployed, by decide⟩

theorem witness_StrongroomCallsRun_keyDelivery_2 : ∃ (core : Bool) (what : KeyCall) (s : State),
    callIs s.dev core 6 = true ∧ keysAllowed s.dev = false ∧ s.dev.coreStopped 1 = false :=
  ⟨false, .session 7 none, calling 6 (deployed.onDev (fun d => d.wr Reg.DBG_MODE 2)), by decide⟩

theorem witness_StrongroomCallsRun_lockCall : ∃ (core : Bool) (i : Nat) (v : BitVec 64) (s : State),
    callIs s.dev core 7 = true ∧ i < 256 ∧ v.toNat.testBit 15 = false ∧ s.dev.coreStopped 1 = false :=
  ⟨false, 5, 0xFF00000000007000, calling 7 live, by decide⟩

theorem witness_StrongroomCallsRun_callTimeout : ∃ (core : Bool) (s : State),
    callWaits s.dev core = true ∧ s.dev.domainOn 0x068 = true ∧ s.dev.coreStopped 1 = false :=
  ⟨false, calling 7 live, by decide⟩

theorem witness_SecurityRuns_attRequest : ∃ (m : TMsg) (s : State),
    served s.dev m famAtt 1 ∧ m.body.length = 36 ∧ field m.body 32 1 = 0 ∧ field m.body 33 1 = 0 ∧ field m.body 34 2 = 0 ∧ s.dev.sec.lc ≠ lcBlank ∧ s.dev.sec.lc ≠ lcScrap ∧ signStatus s.dev = OK ∧ keptReport s.dev (field m.body 0 32) = none ∧ nonceSoon s.dev = false ∧ s.dev.sec.reports.length ≤ 16 :=
  ⟨fromHost (List.replicate 36 0), deployed, by decide⟩

theorem witness_SecurityRuns_attRequest_2 : ∃ (m : TMsg) (r : AttReport) (s : State),
    served s.dev m famAtt 1 ∧ m.body.length = 36 ∧ field m.body 32 1 = 0 ∧ field m.body 33 1 = 0 ∧ s.dev.sec.lc ≠ lcBlank ∧ s.dev.sec.lc ≠ lcScrap ∧ keptReport s.dev (field m.body 0 32) = some r :=
  ⟨fromHost (List.replicate 36 0), ⟨0, [1, 2], false⟩, deployed.onDev (fun d => { d with sec := { d.sec with reports := [⟨0, [1, 2], false⟩] } }), by decide⟩

theorem witness_SecurityRuns_attRequest_3 : ∃ (m : TMsg) (signs : Bool) (s : State),
    served s.dev m famAtt 1 ∧ m.body.length = 36 ∧ field m.body 32 1 ≤ 1 ∧ field m.body 33 1 = 0 ∧ (s.dev.sec.lc = lcBlank ∨ s.dev.sec.lc = lcScrap) :=
  ⟨fromHost (List.replicate 36 0), true, host.onDev (fun d => { d with sec := { d.sec with lc := 4 } }), by decide⟩

theorem witness_SecurityRuns_attExtend : ∃ (m : TMsg) (s : State),
    served s.dev m famAtt 2 ∧ m.body.length = 64 ∧ (s.dev.rd Reg.SEC_BINDING).testBit 15 = true ∧ boundSession s.dev (reqOf m famAtt 2) = true :=
  ⟨fromHost (List.replicate 64 0), deployed.onDev (fun d => d.wr Reg.SEC_BINDING 0x8007), by decide⟩

theorem witness_SecurityRuns_attExtend_2 : ∃ (m : TMsg) (s : State),
    served s.dev m famAtt 2 ∧ m.body.length = 64 ∧ (s.dev.rd Reg.SEC_BINDING).testBit 15 = false :=
  ⟨fromHost (List.replicate 64 0), deployed, by decide⟩

theorem witness_SecurityRuns_reportExpiry : ∃ (r : AttReport) (rest : List AttReport) (s : State),
    s.dev.sec.reports = r :: rest :=
  ⟨⟨0, [1, 2], false⟩, [], deployed.onDev (fun d => { d with sec := { d.sec with reports := [⟨0, [1, 2], false⟩] } }), by decide⟩

theorem witness_SecurityRuns_keyDeliver : ∃ (m : TMsg) (chain sig tag : Bool) (plain : List Byte) (d : Dev) (s : State),
    served s.dev m famKey 1 ∧ s.dev.partIn (reqOf m famKey 1) false = (OK, none, d) :=
  ⟨fromHost ([1, 0, 0, 0, 2, 0, 0, 0] ++ List.replicate 1024 7), true, true, true, [], (deployed.dev.partIn (reqOf (fromHost ([1, 0, 0, 0, 2, 0, 0, 0] ++ List.replicate 1024 7)) famKey 1) false).2.2, deployed, by decide⟩

theorem witness_SecurityRuns_keyDeliver_2 : ∃ (m : TMsg) (plain bs : List Byte) (d : Dev) (s : State),
    served s.dev m famKey 1 ∧ s.dev.partIn (reqOf m famKey 1) false = (OK, some bs, d) ∧ field bs 4 1 = 6 ∧ field (padTo 12 plain) 0 1 = 4 ∧ pkgStatus d bs (padTo 12 plain) true true true = OK :=
  ⟨pkgMsg, [4], pkgBytes, (pkgState.dev.partIn (reqOf pkgMsg famKey 1) false).2.2, pkgState, ⟨by decide, rfl, by decide, by decide, pkgStatus_pkg⟩⟩

theorem witness_SecurityRuns_keyDeliver_3 : ∃ (m : TMsg) (chain sig tag : Bool) (plain bs : List Byte) (d : Dev) (s : State),
    served s.dev m famKey 1 ∧ s.dev.partIn (reqOf m famKey 1) false = (OK, some bs, d) ∧ pkgOk bs = false ∧ field bs 4 1 ≠ 5 ∧ s.dev.domainOn 0x058 = true :=
  ⟨fromHost [1, 0, 0, 0, 1, 0, 0, 0, 7], true, true, true, [], [7], (deployed.dev.partIn (reqOf (fromHost [1, 0, 0, 0, 1, 0, 0, 0, 7]) famKey 1) false).2.2, deployed, by decide⟩

theorem witness_SecurityRuns_deliveryPartTimeout : ∃ (i : Fin 4) (x : Delivery) (before after : List Delivery) (s : State),
    s.dev.sec.deliveries = before ++ x :: after ∧ before.length = i.val :=
  ⟨0, ⟨.host 0, 1, 2, [], false⟩, [], [], deployed.onDev (fun d => { d with sec := { d.sec with deliveries := [⟨.host 0, 1, 2, [], false⟩] } }), by decide⟩

theorem witness_SecurityRuns_unseal : ∃ (m : TMsg) (slot : Fin 16) (htag : Bool) (k : WeightKey) (s : State),
    s.dev.sec.unsealing = none ∧ served s.dev m famKey 2 ∧ m.src = .host slot ∧ m.body.length = 28 ∧ field m.body 24 4 = 0 ∧ s.dev.unsealKey (reqOf m famKey 2) (field m.body 12 8) = (some k, s.dev) ∧ unsealStatus s k (field m.body 0 6) (field m.body 6 6) (field m.body 20 4) htag = OK :=
  ⟨unsealMsg, 0, true, weight, sealedState, by decide⟩

theorem witness_SecurityRuns_unseal_2 : ∃ (m : TMsg) (slot : Fin 16) (htag : Bool) (s : State),
    s.dev.sec.unsealing = none ∧ served s.dev m famKey 2 ∧ m.src = .host slot ∧ m.body.length = 28 ∧ field m.body 24 4 = 0 ∧ s.dev.unsealKey (reqOf m famKey 2) (field m.body 12 8) = (none, s.dev) :=
  ⟨unsealMsg, 0, true, deployed, by decide⟩

theorem witness_SecurityRuns_unsealDone : ∃ (plain bs : List Byte) (j : UnsealJob) (r : Nat) (s : State),
    s.dev.sec.unsealing = some j ∧ bs = padTo j.len plain ∧ 1 ≤ j.len ∧ gdSound s.dev (unsealUser j.key false) j.src (sealedBytes j.len) ∧ gdHeld s.dev j.dst j.len = false ∧ gdCheck s.dev (unsealUser j.key true) j.dst j.len = OK ∧ Config.shake256 bs % 2 ^ 512 = j.digest ∧ freeRange s.dev = some r ∧ s.dev.armedFirst (0x090 + j.dst / 2 ^ 34) [0, 1] = none :=
  ⟨[1], [1], ⟨unsealMsg, 0x400001000, 0x400002000, 1, 1, Config.shake256 [1] % 2 ^ 512, weight⟩, 0, sealedState.onDev (fun d => { d with sec := { d.sec with unsealing := some ⟨unsealMsg, 0x400001000, 0x400002000, 1, 1, Config.shake256 [1] % 2 ^ 512, weight⟩ } }), ⟨rfl, rfl, by decide, by decide, by decide, by decide, rfl, by decide, by decide⟩⟩

theorem witness_SecurityRuns_unsealDone_2 : ∃ (tags : Bool) (plain : List Byte) (j : UnsealJob) (s : State),
    s.dev.sec.unsealing = some j ∧ (tags = false ∨ Config.shake256 (padTo j.len plain) % 2 ^ 512 ≠ j.digest) ∧ gdHeld s.dev j.src (sealedBytes j.len) = false ∧ gdHeld s.dev j.dst j.len = false ∧ s.dev.domainOn 0x059 = true :=
  ⟨false, [1], ⟨unsealMsg, 0x400001000, 0x400002000, 1, 1, Config.shake256 [1] % 2 ^ 512, weight⟩, sealedState.onDev (fun d => { d with sec := { d.sec with unsealing := some ⟨unsealMsg, 0x400001000, 0x400002000, 1, 1, Config.shake256 [1] % 2 ^ 512, weight⟩ } }), ⟨rfl, .inl rfl, by decide, by decide, by decide⟩⟩

theorem witness_SecurityRuns_debugChallenge : ∃ (m : TMsg) (slot : Fin 16) (s : State),
    served s.dev m famDebug 1 ∧ m.src = .host slot ∧ slotTenant s.dev slot.val = none :=
  ⟨fromHost [], 0, host, by decide⟩

theorem witness_SecurityRuns_debugUnlock : ∃ (m : TMsg) (slot : Fin 16) (chain sig : Bool) (d : Dev) (s : State),
    served s.dev m famDebug 2 ∧ m.src = .host slot ∧ slotTenant s.dev slot.val = none ∧ s.dev.partIn (reqOf m famDebug 2) true = (OK, none, d) :=
  ⟨fromHost ([1, 0, 0, 0, 2, 0, 0, 0] ++ List.replicate 1024 7), 0, true, true, (host.dev.partIn (reqOf (fromHost ([1, 0, 0, 0, 2, 0, 0, 0] ++ List.replicate 1024 7)) famDebug 2) true).2.2, host, by decide⟩

theorem witness_SecurityRuns_debugUnlock_2 : ∃ (m : TMsg) (slot : Fin 16) (bs : List Byte) (d : Dev) (s : State),
    served s.dev m famDebug 2 ∧ m.src = .host slot ∧ slotTenant s.dev slot.val = none ∧ s.dev.partIn (reqOf m famDebug 2) true = (OK, some bs, d) ∧ tokenStatus d bs true true = OK ∧ s.dev.domainOn 0x05B = true :=
  ⟨tokenMsg, 0, tokenBytes, (tokenState.dev.partIn (reqOf tokenMsg famDebug 2) true).2.2, tokenState, ⟨by decide, rfl, by decide, rfl, tokenStatus_token, by decide⟩⟩

theorem witness_SecurityRuns_debugUnlock_3 : ∃ (m : TMsg) (slot : Fin 16) (chain sig : Bool) (bs : List Byte) (d : Dev) (s : State),
    served s.dev m famDebug 2 ∧ m.src = .host slot ∧ slotTenant s.dev slot.val = none ∧ s.dev.partIn (reqOf m famDebug 2) true = (OK, some bs, d) ∧ tokenStatus d bs chain sig ≠ OK ∧ s.dev.domainOn 0x05B = true :=
  ⟨fromHost [1, 0, 0, 0, 1, 0, 0, 0, 7], 0, true, true, [7], (host.dev.partIn (reqOf (fromHost [1, 0, 0, 0, 1, 0, 0, 0, 7]) famDebug 2) true).2.2, host, by decide⟩

theorem witness_SecurityRuns_debugRelock : ∃ (m : TMsg) (slot : Fin 16) (s : State),
    served s.dev m famDebug 3 ∧ m.src = .host slot ∧ slotTenant s.dev slot.val = none ∧ s.dev.rd Reg.DBG_CORE_STATE = 0 :=
  ⟨fromHost [], 0, host.onDev (fun d => d.wr Reg.DBG_MODE 2), by decide⟩

theorem witness_SecurityRuns_debugCore : ∃ (m : TMsg) (slot : Fin 16) (s : State),
    served s.dev m famDebug 5 ∧ m.src = .host slot ∧ slotTenant s.dev slot.val = none ∧ m.body.length = 12 ∧ field m.body 0 1 ≤ 1 ∧ field m.body 1 1 = 0 ∧ coreReached s.dev (field m.body 0 1) = true ∧ s.dev.powered.core = true :=
  ⟨fromHost (List.replicate 12 0), 0, host.onDev (fun d => d.wr Reg.DBG_MODE 2), by decide⟩

theorem witness_SecurityRuns_debugCore_2 : ∃ (m : TMsg) (slot : Fin 16) (v : Nat) (s : State),
    served s.dev m famDebug 5 ∧ m.src = .host slot ∧ slotTenant s.dev slot.val = none ∧ m.body.length = 12 ∧ field m.body 0 1 ≤ 1 ∧ field m.body 1 1 = 3 ∧ coreReached s.dev (field m.body 0 1) = true ∧ s.dev.powered.core = true ∧ SMap.get (fun _ => none) s.dev.sec.coreRegs (field m.body 0 1 * 2 ^ 16 + field m.body 2 2) = some v :=
  ⟨fromHost (0 :: 3 :: List.replicate 10 0), 0, 9, host.onDev (fun d => { d.wr Reg.DBG_MODE 2 with sec := { d.sec with coreRegs := [(0, some 9)] } }), by decide⟩

theorem witness_SecurityRuns_debugCore_3 : ∃ (m : TMsg) (slot : Fin 16) (s : State),
    served s.dev m famDebug 5 ∧ m.src = .host slot ∧ slotTenant s.dev slot.val = none ∧ m.body.length = 12 ∧ field m.body 0 1 ≤ 2 ∧ field m.body 1 1 ≤ 4 ∧ coreReached s.dev (field m.body 0 1) = false :=
  ⟨fromHost (List.replicate 12 0), 0, host, by decide⟩

theorem witness_SecurityRuns_leaseEnd : ∃ (s : State),
    dbgMode s.dev ≠ 0 ∧ s.dev.rd Reg.DBG_CORE_STATE = 0 ∧ s.dev.domainOn 0x05B = true :=
  ⟨host.onDev (fun d => d.wr Reg.DBG_MODE 2), by decide⟩

theorem witness_SecurityRuns_dbgUnlock : ∃ (mode : Fin 4) (s : State),
    s.dev.sec.lc = lcBlank ∧ s.dev.powered.aon = true ∧ mode.val ≠ 0 :=
  ⟨3, host.onDev (fun d => { d with sec := { d.sec with lc := 0 } }), by decide⟩

theorem witness_SecurityRuns_dbgUnlock_2 : ∃ (mode : Fin 4) (s : State),
    s.dev.sec.lc ≠ lcBlank :=
  ⟨3, deployed, by decide⟩

theorem witness_SecurityRuns_jtagInstruction : ∃ (s : State),
    s.dev.powered.aon = true :=
  ⟨host, by decide⟩

theorem witness_SecurityRuns_jtagInstruction_2 : ∃ (i : JtagInstr) (s : State),
    (i = .extest ∨ i = .clamp ∨ i = .highz) ∧ s.dev.sec.lc = lcDeploy ∧ 2 ≤ dbgMode s.dev ∧ s.dev.powered.core = true :=
  ⟨.extest, deployed.onDev (fun d => d.wr Reg.DBG_MODE 2), by decide⟩

theorem witness_KnocksRun_statusRead : ∃ (m : TMsg) (s : State),
    served s.dev m famStatus 1 ∧ m.body = [] :=
  ⟨fromHost [], host, by decide⟩

theorem witness_KnocksRun_knockStatus : ∃ (k : Knock) (s : State),
    knockTaken s.dev k ∧ k.arg = 0 :=
  ⟨knock 0, knocking, knock_taken (by decide)⟩

theorem witness_KnocksRun_knockStatus_2 : ∃ (k : Knock) (s : State),
    s.dev.powered.aon = true ∧ k.soon = true :=
  ⟨{ knock 0 with soon := true }, knocking, by decide⟩

theorem witness_KnocksRun_knockStatus_3 : ∃ (k : Knock) (s : State),
    s.dev.powered.aon = true ∧ k.soon = false ∧ s.dev.armed 0x059 0 = false ∧ (k.tagOk = false ∨ k.counter ≤ knkCounter s.dev ∨ k.version ≠ 1) ∧ s.dev.domainOn 0x042 = true :=
  ⟨{ knock 0 with tagOk := false }, knocking, by decide⟩

theorem witness_KnocksRun_recTail : ∃ (k : Knock) (s : State),
    knockTaken s.dev k ∧ k.arg ≤ 16 :=
  ⟨knock 3, knocking, knock_taken (by decide)⟩

theorem witness_KnocksRun_recFreeze : ∃ (k : Knock) (s : State),
    knockTaken s.dev k ∧ k.arg = 1 ∧ s.dev.recd.frozen = false ∧ s.dev.recd.freezeAt = none ∧ s.dev.recd.stopped = false ∧ s.dev.recd.flushing = false :=
  ⟨knock 1, knocking, by refine ⟨?_, by decide, by decide, by decide, by decide⟩; exact (knock_taken (P := True) trivial).1⟩

theorem witness_KnocksRun_switchCore : ∃ (k : Knock) (old : Bool) (s : State),
    knockTaken s.dev k ∧ k.arg = 0 ∧ s.dev.powered.core = true ∧ switching s.dev = false ∧ s.dev.bel.active = some old ∧ standbyHealthy s.dev = true :=
  ⟨knock 0, false, knocking.onDev (fun d => { d.wr Reg.BEL_HEALTH 0x80000000 with bel := { d.bel with active := some false } }), by refine ⟨knock_taken' (by decide) (by decide), by decide, by decide, by decide, by decide, by decide⟩⟩

theorem witness_KnocksRun_switchCore_2 : ∃ (k : Knock) (s : State),
    knockTaken s.dev k ∧ k.arg = 0 ∧ s.dev.powered.core = true ∧ switching s.dev = false ∧ (s.dev.bel.active = none ∨ standbyHealthy s.dev = false) :=
  ⟨knock 0, knocking, by refine ⟨knock_taken' (by decide) (by decide), by decide, by decide, by decide, by decide⟩⟩

theorem witness_KnocksRun_knockErrN : ∃ (k : Knock) (s : State),
    knockTaken s.dev k ∧ k.arg = 0 :=
  ⟨knock 0, knocking, knock_taken (by decide)⟩

theorem witness_KnocksRun_knockErrN_2 : ∃ (k : Knock) (s : State),
    knockTaken s.dev k ∧ 10 ≤ bits k.arg 15 0 ∧ bits k.arg 15 0 ≤ 10000 ∧ k.arg < 2 ^ 17 :=
  ⟨knock 0x1000A, knocking, by refine ⟨knock_taken' (by decide) (by decide), by decide, by decide, by decide⟩⟩

theorem witness_KnocksRun_knockErrN_3 : ∃ (k : Knock) (s : State),
    knockTaken s.dev k ∧ 1 ≤ k.arg ∧ bits k.arg 15 0 < 10 :=
  ⟨knock 9, knocking, by refine ⟨knock_taken' (by decide) (by decide), by decide, by decide⟩⟩

theorem witness_KnocksRun_knockReset : ∃ (k : Knock) (s : State),
    knockTaken s.dev k ∧ k.arg = 1 ∧ (s.dev.pwr.running ++ s.dev.pwr.held).any (fun x => x.covers ⟨rkModule, 0, rcKnock⟩) = false ∧ s.dev.pwr.due = [] :=
  ⟨knock 1, knocking, by refine ⟨knock_taken' (by decide) (by decide), by decide, by decide, by decide⟩⟩

theorem witness_KnocksRun_knockPower : ∃ (k : Knock) (s : State),
    knockTaken s.dev k ∧ k.arg ≤ 4 ∧ dieHot s.dev = true :=
  ⟨knock 1, knocking.onDev (fun d => (d.wr Reg.THM_CRITICAL 100).wr Reg.THM_DIE (2 ^ 31 + 1000)), by refine ⟨knock_taken' (by decide) (by decide), by decide, by decide⟩⟩

theorem witness_KnocksRun_knockPower_2 : ∃ (k : Knock) (s : State),
    knockTaken s.dev k ∧ k.arg = 1 ∧ dieHot s.dev = false ∧ changing s.dev = false ∧ scrubbing s.dev = false ∧ bootStage s.dev < sgWaves ∧ bits (s.dev.rd Reg.PWR_STATE) 2 0 = 1 ∧ moduleResets s.dev = false :=
  ⟨knock 1, knocking.onDev (fun d => d.wr Reg.PWR_STATE 1), by refine ⟨knock_taken' (by decide) (by decide), by decide, by decide, by decide, by decide, by decide, by decide, by decide⟩⟩

theorem witness_StepTakesTheFront_idle : ∃ (s : State),
    s.pending = [] :=
  ⟨State.reset, by decide⟩

theorem witness_EveryCommandAnswersNext_front : ∃ (c : Instr) (rest : List Instr) (s : State),
    s.pending = c :: rest :=
  ⟨Instr.prechargeDone, [], { State.reset with pending := [.prechargeDone] }, by decide⟩

theorem witness_MemoryStaysCanonical_step : ∃ (s : State),
    s.inv :=
  ⟨State.reset, (by decide : State.reset.mem.wf = true)⟩

theorem witness_DeviceAddresses_address : ∃ (a w : Nat),
    gdWing a 1 = some w :=
  ⟨0x400000300, 1, by decide⟩

theorem witness_GeneratorFillsBank_rtbGen : ∃ (master : Byte) (value : Word) (s : State),
    writeTaken s.dev master.toNat (mAddr Reg.RTB_GEN) 32 value.toNat ∧ bankState s.dev (value.toNat % 2) = 0 ∧ maValid s.dev = true ∧ ∀ a, a < 3 → coord (myMa s.dev) a < dimLen s.dev a :=
  ⟨0x80, 0, live.onDev (fun d => d.wr Reg.RTB_DIMS 0x7FFF), by decide⟩

theorem witness_SeverityBounds_registerWrite : ∃ (master : Byte) (addr : BitVec 40) (value : BitVec 64) (b : Nat) (s : State),
    mTarget addr.toNat = .page b 0x034 ∧ accessCheck s.dev master.toNat addr.toNat 32 true 0x401 = OK ∧ (bits value.toNat 7 0 = 0 ∨ bits value.toNat 31 10 = 0 ∨ 3600000 < bits value.toNat 31 10) ∧ s.dev.coreStopped master.toNat = false ∧ accessBehind s.dev master.toNat addr.toNat = false ∧ quiet s.dev :=
  ⟨0x80, 0x0100029034, 0x400, 0x029, live, by decide⟩

theorem witness_SeverityBounds_tocsinEvent : ∃ (b : BitVec 12) (n : Fin 32) (src p : Nat) (s : State),
    sourceOf b.toNat n.val = some src ∧ SMap.get (fun _ => 0) s.dev.toc.pend (b.toNat * 32 + n.val) = p + 1 ∧ s.dev.domainOn b.toNat = true ∧ (tocSrc s.dev src).st = .idle ∧ (tocSrc s.dev src).win = none ∧ (s.dev.rd (rkey b.toNat 0x024)).testBit n.val = false ∧ clearingRuns s.dev src = false ∧ s.dev.toc.cfgBad.contains src = false ∧ s.dev.armed 0x060 1 = false ∧ bits (cfgByte s.dev src) 2 0 ≤ 2 ∧ 2 ≤ bits (s.dev.rd (rkey (sourcePage src).1 0x034)) 7 0 :=
  ⟨0x031, 1, 337, 0, live.onDev (fun d => d.raise 0x031 1), by decide⟩

theorem witness_DisabledMailboxRings_ring : ∃ (d : Dev) (m n : Nat),
    (d.rd (mbxKey Reg.MBXM_CFG m)).testBit 31 = false ∧ m < 64 ∧ d.domainOn 0x050 = true :=
  ⟨live.dev, 3, 1, by decide⟩

theorem witness_RefusedAccesses_registerWrite : ∃ (master : Byte) (addr : BitVec 40) (width : Nat) (value : BitVec 64) (s : State),
    isRefusal (accessCheck s.dev master.toNat addr.toNat width true (value.toNat % 2 ^ width)) = true ∧ s.dev.domainOn 0x000 = true ∧ s.dev.coreStopped master.toNat = false ∧ accessBehind s.dev master.toNat addr.toNat = false ∧ quiet s.dev :=
  ⟨0x10, 0, 32, 0, live, by decide⟩

theorem witness_RefusedAccesses_registerWrite_2 : ∃ (master : Byte) (addr : BitVec 40) (width : Nat) (value : BitVec 64) (s : State),
    accessCheck s.dev master.toNat addr.toNat width true (value.toNat % 2 ^ width) = POWER_OFF ∧ s.dev.coreStopped master.toNat = false ∧ accessBehind s.dev master.toNat addr.toNat = false ∧ quiet s.dev :=
  ⟨1, 0x0100028080, 32, 0, State.reset, by decide⟩

theorem witness_StoresStayInside_gdRecalDone : ∃ (w : Fin 8) (dev : Fin 3) (s : State),
    quiet s.dev :=
  ⟨1, 0, up.onDev (fun d => d.setGdState 1 0 2), by decide⟩


end Sys2Proof.Tests
end

section
/-! PROOFS. No operation of the model puts anything into the queue of commands or takes anything from it: one rule per operation that
makes a state, in the order of the model's files. Operations of the device alone need none. -/

namespace Sys2Proof.Machine

/-! ## Management accesses and GDDR7 -/

@[simp] theorem issue_pending {effect : State → State} (h : ∀ s, (effect s).pending = s.pending) (a : Access1) (would : Nat)
    (s : State) : (issue a would effect s).pending = s.pending := by
  fun_cases issue a would effect s <;> simp [h]

@[simp] theorem mgmtWrite_pending {effect : State → Nat × State} (h : ∀ s, (effect s).2.pending = s.pending)
    (master addr width v : Nat) (s : State) : (mgmtWrite master addr width v effect s).pending = s.pending :=
  issue_pending (effect := fun s => (effect s).2.onDev _) h _ _ s

@[simp] theorem mgmtRead_pending {effect : State → Nat × Nat × State} (h : ∀ s, (effect s).2.2.pending = s.pending)
    (master addr width : Nat) (s : State) : (mgmtRead master addr width effect s).pending = s.pending :=
  issue_pending (effect := fun s => (effect s).2.2.onDev _) h _ _ s

@[simp] theorem plainEffect_pending (master key v : Nat) (s : State) : (plainEffect master key v s).2.pending = s.pending :=
  State.onDev_pending ..
@[simp] theorem devEffect_pending (f : Dev → Nat × Dev) (s : State) : (devEffect f s).2.pending = s.pending := by simp [devEffect]
@[simp] theorem devReadEffect_pending (f : Dev → Nat × Nat × Dev) (s : State) : (devReadEffect f s).2.2.pending = s.pending := by
  simp [devReadEffect]

@[simp] theorem State.havoc_pending (s : State) (a n : Nat) : (s.havoc a n).pending = s.pending := by
  fun_cases State.havoc s a n <;> rfl

@[simp] theorem gdWriteNow_pending (s : State) (u : MemUser) (addr : Nat) (bytes : List Byte) :
    (gdWriteNow s u addr bytes).2.pending = s.pending := by
  fun_cases gdWriteNow s u addr bytes <;> rfl

@[simp] theorem gdWrite_pending (s : State) (u : MemUser) (addr : Nat) (bytes : List Byte) :
    (gdWrite s u addr bytes).2.pending = s.pending := by
  fun_cases gdWrite s u addr bytes
  · rfl
  · exact gdWriteNow_pending ..

@[simp] theorem readLineRequest_pending (s : State) (addr : Nat) (err : LineErr) (u : MemUser) :
    (readLineRequest s addr err u).pending = s.pending := by
  fun_cases readLineRequest s addr err u <;> rfl

@[simp] theorem lineRequest_pending (s : State) (q : GdReq) : (lineRequest s q).pending = s.pending := by
  fun_cases lineRequest s q <;> simp [writeLineRequest]

@[simp] theorem runReqs_pending (s : State) (qs : List GdReq) : (runReqs s qs).pending = s.pending := by
  fun_induction runReqs s qs <;> simp_all

@[simp] theorem gdProceed_pending (s : State) (w dev : Nat) : (gdProceed s w dev).pending = s.pending := by
  simp [gdProceed]

/-! ## The array -/

@[simp] theorem cplRecord_pending (s : State) (bytes : List Byte) (notify lose : Bool) :
    (cplRecord s bytes notify lose).pending = s.pending := by
  fun_cases cplRecord s bytes notify lose <;> simp +zetaDelta

@[simp] theorem flushDead_pending (n : Nat) (s : State) : (flushDead n s).pending = s.pending := by
  fun_induction flushDead n s <;> simp_all +zetaDelta

@[simp] theorem arrEnd_pending (s : State) (e : ArrExec) (st detail : Nat) (lose : Bool) :
    (arrEnd s e st detail lose).pending = s.pending := by
  simp [arrEnd]

@[simp] theorem releaseHeld_pending (s : State) : (releaseHeld s).pending = s.pending := by
  fun_cases releaseHeld s <;> simp +zetaDelta

@[simp] theorem arrBegin_pending (s : State) (e : ArrExec) : (arrBegin s e).pending = s.pending := rfl

@[simp] theorem freeEntry_pending (s : State) (e : ArrExec) : (freeEntry s e).pending = s.pending := by
  fun_cases freeEntry s e <;> rfl

@[simp] theorem havocRows_pending (s : State) (r : MatRange) (n a : Nat) : (havocRows s r n a).pending = s.pending := by
  fun_induction havocRows s r n a <;> simp_all

@[simp] theorem havocOutput_pending (s : State) (rs : List MatRange) : (havocOutput s rs).pending = s.pending := by
  fun_induction havocOutput s rs <;> simp_all

@[simp] theorem failEnd_pending (s : State) (e : ArrExec) (st : Nat) (lose : Bool) : (failEnd s e st lose).pending = s.pending := by
  simp only [failEnd, arrEnd_pending, freeEntry_pending]
  split <;> simp

@[simp] theorem arrSubmitEffect_pending (master v : Nat) (s : State) : (arrSubmitEffect master v s).2.pending = s.pending := by
  fun_cases arrSubmitEffect master v s <;> rfl

@[simp] theorem arrCtrlEffect_pending (master v : Nat) (s : State) : (arrCtrlEffect master v s).2.pending = s.pending := by
  fun_cases arrCtrlEffect master v s <;> simp +zetaDelta

@[simp] theorem arrTenantEffect_pending (master v : Nat) (s : State) : (arrTenantEffect master v s).2.pending = s.pending := by
  fun_cases arrTenantEffect master v s <;> rfl

/-! ## Cellar and copies -/

@[simp] theorem resumeSweep_pending (s : State) (p : Nat) : (resumeSweep s p).pending = s.pending := by
  fun_cases resumeSweep s p <;> rfl

@[simp] theorem copyLines_pending (s : State) (op : CopyOp) (u : MemUser) (n off : Nat) :
    (copyLines s op u n off).2.2.pending = s.pending := by
  fun_induction copyLines s op u n off <;> simp_all +zetaDelta

@[simp] theorem copyMove_pending (s : State) (op : CopyOp) (u : MemUser) (n off : Nat) :
    (copyMove s op u n off).2.pending = s.pending := by
  fun_induction copyMove s op u n off <;> simp_all +zetaDelta

@[simp] theorem storeLines_pending (s : State) (u : MemUser) (a n : Nat) (bs : List Byte) :
    (storeLines s u a n bs).2.pending = s.pending := by
  fun_induction storeLines s u a n bs <;> simp_all +zetaDelta

@[simp] theorem copyEnd_pending (s : State) (n : Nat) (op : CopyOp) (st : Nat) (ring : Bool) :
    (copyEnd s n op st ring).pending = s.pending := by
  simp [copyEnd]

@[simp] theorem copySubmitEffect_pending (n v : Nat) (s : State) : (copySubmitEffect n v s).2.pending = s.pending := by
  fun_cases copySubmitEffect n v s <;> rfl

@[simp] theorem ceTenantEffect_pending (master n v : Nat) (s : State) : (ceTenantEffect master n v s).2.pending = s.pending := by
  fun_cases ceTenantEffect master n v s <;> rfl

@[simp] theorem copyUnitWrite_pending (s : State) (n : Nat) (op : CopyOp) (p : Nat) (data : List Byte) (err : CelErr) :
    (copyUnitWrite s n op p data err).pending = s.pending := by
  fun_cases copyUnitWrite s n op p data err <;> rfl

@[simp] theorem copyUndef_pending (s : State) (op : CopyOp) (e : CopyEng) : (copyUndef s op e).pending = s.pending := by
  fun_cases copyUndef s op e <;> rfl

/-! ## Router and RoCEv2 -/

@[simp] theorem windowStore_pending (s : State) (p : Packet) (perm : Nat) : (windowStore s p perm).2.pending = s.pending := by
  fun_cases windowStore s p perm <;> simp

@[simp] theorem keepPacket_pending (s : State) (o : Option Packet) : (keepPacket s o).pending = s.pending := by
  cases o <;> rfl

@[simp] theorem raSubmitEffect_pending (v : Nat) (s : State) : (raSubmitEffect v s).2.pending = s.pending := by
  fun_cases raSubmitEffect v s <;> rfl

@[simp] theorem rdmaWrite_pending (r : RoceReq) (q : Qp) (dup : Bool) (rkey va : Nat) (data : List Byte) (s : State) :
    (rdmaWrite r q dup rkey va data s).pending = s.pending := by
  fun_cases rdmaWrite r q dup rkey va data s <;> simp +zetaDelta

@[simp] theorem rdmaRead_pending (r : RoceReq) (q : Qp) (dup : Bool) (rkey va len outstanding : Nat) (s : State) :
    (rdmaRead r q dup rkey va len outstanding s).pending = s.pending := by
  fun_cases rdmaRead r q dup rkey va len outstanding s <;> simp

@[simp] theorem rdmaServe_pending (r : RoceReq) (q : Qp) (op : RdmaOp) (s : State) : (rdmaServe r q op s).pending = s.pending := by
  fun_cases rdmaServe r q op s
  · exact State.onDev_pending ..
  · exact State.onDev_pending ..
  · exact rdmaWrite_pending ..
  · exact rdmaRead_pending ..
  · exact State.onDev_pending ..

@[simp] theorem rdmaProceed_pending (ops : List (RoceReq × RdmaOp)) (s : State) : (rdmaProceed ops s).pending = s.pending := by
  induction ops generalizing s with
  | nil => rfl
  | cons x rest ih =>
    simp only [rdmaProceed, ih]
    split
    · rfl
    · split <;> simp

@[simp] theorem State.rdmaGo_pending (s : State) : s.rdmaGo.pending = s.pending := rdmaProceed_pending _ _

/-! ## Power -/

@[simp] theorem State.forget_pending (s : State) : s.forget.pending = s.pending := by
  fun_cases State.forget s <;> rfl

@[simp] theorem State.forgetWing_pending (s : State) (w : Nat) : (s.forgetWing w).pending = s.pending := rfl

@[simp] theorem waveDown_pending (s : State) (k : Nat) : (waveDown s k).pending = s.pending := by
  fun_cases waveDown s k <;> rfl

@[simp] theorem wavesDown_pending (s : State) : (wavesDown s).pending = s.pending := by simp [wavesDown]

@[simp] theorem goDown_pending (s : State) : (goDown s).pending = s.pending := by
  fun_cases goDown s <;> simp +zetaDelta

@[simp] theorem moveOn_pending (s : State) : (moveOn s).pending = s.pending := by
  fun_cases moveOn s <;> simp +zetaDelta

@[simp] theorem transitReached_pending (s : State) : (transitReached s).pending = s.pending := by
  fun_cases transitReached s <;> simp +zetaDelta

@[simp] theorem powerLost_pending (s : State) (a b : Bool) : (powerLost s a b).pending = s.pending := rfl

@[simp] theorem tileTested_pending (s : State) (ts : List TileFind) : (tileTested s ts).pending = s.pending := by
  fun_cases tileTested s ts <;> simp +zetaDelta

@[simp] theorem targetEffect_pending (v : Nat) (s : State) : (targetEffect v s).2.pending = s.pending := by
  fun_cases targetEffect v s <;> simp +zetaDelta

@[simp] theorem scrubPages_pending (s : State) (sys : Bool) (t : Nat) : (scrubPages s sys t).pending = s.pending := rfl

@[simp] theorem scrubGddr_pending (s : State) (sys : Bool) (t : Nat) : (scrubGddr s sys t).pending = s.pending := by
  refine List.foldlRecOn (motive := fun (u : State) => u.pending = s.pending) _ _ rfl fun u hu r _ => ?_
  split
  · exact hu
  · exact hu

@[simp] theorem scrubEnds_pending (s : State) : (scrubEnds s).pending = s.pending := by
  fun_cases scrubEnds s <;> simp +zetaDelta

/-! ## Collectives -/

@[simp] theorem colEndWrite_pending (s : State) (x : ColEnd) : (colEndWrite s x).pending = s.pending := by simp [colEndWrite]

@[simp] theorem colEndsWrite_pending (xs : List ColEnd) (s : State) : (colEndsWrite xs s).pending = s.pending := by
  induction xs generalizing s with
  | nil => rfl
  | cons x xs ih =>
    simp only [colEndsWrite, ih]
    split <;> simp

@[simp] theorem State.colEndsGo_pending (s : State) : s.colEndsGo.pending = s.pending := colEndsWrite_pending _ _

@[simp] theorem colEndDesc_pending (s : State) (j : ColJob) (st detail : Nat) (cause : Option Nat) (sat nan : Bool) :
    (colEndDesc s j st detail cause sat nan).pending = s.pending := colEndsWrite_pending _ _

@[simp] theorem ColPart.undefined_pending (x : ColPart) (s : State) : (x.undefined s).pending = s.pending := by
  fun_cases ColPart.undefined x s <;> simp

@[simp] theorem colFinish_pending (s : State) (x : ColPart) (st : Nat) (cause : Option Nat) :
    (colFinish s x st cause).pending = s.pending := by
  simp only [colFinish, State.onDev_pending, colEndDesc_pending]
  split <;> simp

@[simp] theorem colAbort_pending (s : State) (x : ColPart) (st cause : Nat) (from_ : Option Nat) :
    (colAbort s x st cause from_).pending = s.pending := colFinish_pending _ _ _ _

@[simp] theorem colRun_pending (s : State) (i : Nat) : (colRun s i).pending = s.pending := by
  fun_cases colRun s i <;> simp +zetaDelta

@[simp] theorem colSubmitEffect_pending (v : Nat) (s : State) : (colSubmitEffect v s).2.pending = s.pending := by
  fun_cases colSubmitEffect v s <;> rfl

theorem colTake_pending {f : ColPart → State → State} (h : ∀ x s, (f x s).pending = s.pending) (s : State) (p : Packet) :
    (colTake s p f).pending = s.pending := by
  fun_cases colTake s p f <;> simp [h]

@[simp] theorem openLag_pending (s : State) (g : Grp) (p : Packet) (x : ColPart) : (openLag s g p x).pending = s.pending :=
  colRun_pending _ _

@[simp] theorem lateOpen_pending (s : State) (p : Packet) : (lateOpen s p).pending = s.pending := by
  fun_cases lateOpen s p <;> simp +zetaDelta

theorem takeOpenPacket_pending (s : State) (p : Packet) : (takeOpenPacket s p).pending = s.pending := by
  fun_cases takeOpenPacket s p
  · refine colTake_pending (fun x s => ?_) s p
    simp
  all_goals simp +zetaDelta

theorem takeVerdict_pending (s : State) (p : Packet) : (takeVerdict s p).pending = s.pending := by
  refine colTake_pending (fun x s => ?_) s p
  dsimp only
  split <;> simp

theorem takeAbort_pending (s : State) (p : Packet) : (takeAbort s p).pending = s.pending := by
  fun_cases takeAbort s p
  · rfl
  · exact colTake_pending (fun _ _ => colAbort_pending ..) s p

theorem takeCreditPacket_pending (s : State) (p : Packet) : (takeCreditPacket s p).pending = s.pending := by
  refine colTake_pending (fun x s => ?_) s p
  dsimp only
  split
  · rfl
  · split <;> simp

@[simp] theorem gatherChunk_pending (s : State) (x : ColPart) (g : Grp) (q l : Nat) (p : Packet)
    (put : ColChunk → List Byte → ColChunk) : (gatherChunk s x g q l p put).pending = s.pending := by
  fun_cases gatherChunk s x g q l p put <;> simp +zetaDelta

theorem takeData_pending (s : State) (p : Packet) : (takeData s p).pending = s.pending := by
  refine colTake_pending (fun x s => ?_) s p
  dsimp only
  split
  · rfl
  · repeat' split
    all_goals simp

theorem takeResult_pending (s : State) (p : Packet) : (takeResult s p).pending = s.pending := by
  refine colTake_pending (fun x s => ?_) s p
  simp [apply_ite State.pending]

@[simp] theorem flushParts_pending (n : Nat) (s : State) : (flushParts n s).pending = s.pending := by
  fun_induction flushParts n s <;> simp_all

@[simp] theorem flushQueue_pending (js : List ColJob) (s : State) : (flushQueue js s).pending = s.pending := by
  fun_induction flushQueue js s <;> simp_all

@[simp] theorem colCtrlEffect_pending (master v : Nat) (s : State) : (colCtrlEffect master v s).2.pending = s.pending := by
  fun_cases colCtrlEffect master v s <;> simp +zetaDelta

@[simp] theorem colTenantEffect_pending (master v : Nat) (s : State) : (colTenantEffect master v s).2.pending = s.pending := by
  fun_cases colTenantEffect master v s <;> rfl

/-! ## Knock frames -/

theorem knocked_pending {act : State → Nat × List Byte × State} (h : ∀ s, (act s).2.2.pending = s.pending) (cmd : Nat) (k : Knock)
    (argOk : Bool) (s : State) : (knocked cmd k argOk act s).pending = s.pending := by
  fun_cases knocked cmd k argOk act s <;> simp +zetaDelta [apply_ite Prod.snd, apply_ite State.pending, h]

/-! ## Registers -/

@[simp] theorem celCtrlEffect_pending (v : Nat) (s : State) : (celCtrlEffect v s).2.pending = s.pending :=
  State.onDev_pending ..
@[simp] theorem slotWriteEffect_pending (master slot v : Nat) (s : State) : (slotWriteEffect master slot v s).2.pending = s.pending :=
  State.onDev_pending ..

@[simp] theorem cplRingEffect_pending (master key v : Nat) (s : State) : (cplRingEffect master key v s).2.pending = s.pending := by
  simp [cplRingEffect]
@[simp] theorem cplTailEffect_pending (master v : Nat) (s : State) : (cplTailEffect master v s).2.pending = s.pending :=
  cplRingEffect_pending ..

@[simp] theorem ctrlEffect_pending (master b v : Nat) (s : State) : (ctrlEffect master b v s).2.pending = s.pending := by
  fun_cases ctrlEffect master b v s <;> simp

@[simp] theorem headerEffect_pending (master b off v : Nat) (s : State) : (headerEffect master b off v s).2.pending = s.pending := by
  fun_cases headerEffect master b off v s <;> simp

@[simp] theorem callEffect_pending (master key v : Nat) (s : State) : (callEffect master key v s).2.pending = s.pending := by
  unfold callEffect
  dsimp only
  split <;> rfl

@[simp] theorem thmEffect_pending (master key v : Nat) (s : State) : (thmEffect master key v s).2.pending = s.pending := by
  fun_cases thmEffect master key v s <;> rfl

@[simp] theorem raTenantEffect_pending (master v : Nat) (s : State) : (raTenantEffect master v s).2.pending = s.pending := by
  fun_cases raTenantEffect master v s <;> rfl

@[simp] theorem dimsEffect_pending (master v : Nat) (s : State) : (dimsEffect master v s).2.pending = s.pending := by
  fun_cases dimsEffect master v s <;> rfl

@[simp] theorem blockEffect_pending (master key v : Nat) (s : State) : (blockEffect master key v s).2.pending = s.pending := by
  fun_cases blockEffect master key v s <;> simp

@[simp] theorem writeEffect_pending (master addr width v : Nat) (s : State) :
    (writeEffect master addr width v s).2.pending = s.pending := by
  fun_cases writeEffect master addr width v s <;> simp

@[simp] theorem pageWrite_pending (a : Access1) (s : State) : (pageWrite a s).2.pending = s.pending := by
  fun_cases pageWrite a s <;> simp +zetaDelta

/-! ## Accesses that wait, and messages that reach registers -/

@[simp] theorem entryWrite_pending (master addr width v : Nat) (s : State) : (entryWrite master addr width v s).2.pending = s.pending := by
  fun_cases entryWrite master addr width v s <;> simp +zetaDelta

@[simp] theorem entryRead_pending (master addr width : Nat) (s : State) : (entryRead master addr width s).2.pending = s.pending := by
  fun_cases entryRead master addr width s <;> rfl

@[simp] theorem heldEffect_pending (a : Access1) (s : State) : (heldEffect a s).2.2.pending = s.pending := by
  fun_cases heldEffect a s <;> simp +zetaDelta

@[simp] theorem plainEntry_pending (master : Nat) (e : RegEntry) (s : State) : (plainEntry master e s).2.pending = s.pending :=
  entryWrite_pending ..

@[simp] theorem votedEntry_pending (src wseq : Nat) (e : RegEntry) (s : State) : (votedEntry src wseq e s).2.pending = s.pending := by
  fun_cases votedEntry src wseq e s <;> simp +zetaDelta

@[simp] theorem State.holdRun_pending (s : State) (r : MsgRun) : (s.holdRun r).pending = s.pending := rfl

@[simp] theorem runReads_pending (m : TMsg) (master : Nat) (es : List (Nat × Nat)) (out : List Byte) (s : State) :
    (runReads m master es out s).pending = s.pending := by
  induction es generalizing out s with
  | nil => rfl
  | cons e es ih =>
    have h := entryRead_pending master e.1 (8 * e.2) s
    simp only [runReads]
    split
    · next heq => rw [heq] at h; exact (ih _ _).trans h
    · next heq => rw [heq] at h; exact h

@[simp] theorem runWrites_pending (m : TMsg) (master : Nat) (es : List RegEntry) (n : Nat) (s : State) :
    (runWrites m master es n s).pending = s.pending := by
  induction es generalizing n s with
  | nil => rfl
  | cons e es ih =>
    have h : (if fromFabric m ∧ trioMode s.dev then votedEntry ((msgMa m).getD (2 ^ 15)) m.seq e s
        else plainEntry master e s).2.pending = s.pending := by split <;> simp
    simp only [runWrites]
    split
    · next heq =>
      rw [heq] at h
      split
      · exact (ih _ _).trans h
      · exact h
    · next heq => rw [heq] at h; exact h

@[simp] theorem resumeRun_pending (r : MsgRun) (st v : Nat) (s : State) : (resumeRun r st v s).pending = s.pending := by
  fun_cases resumeRun r st v s <;> simp

@[simp] theorem State.completeHeld_pending (s : State) (a : Access1) (st v : Nat) : (s.completeHeld a st v).pending = s.pending := by
  fun_cases State.completeHeld s a st v <;> simp +zetaDelta

@[simp] theorem replayOne_pending (a : Access1) (s : State) : (replayOne a s).pending = s.pending := by
  fun_cases replayOne a s <;> simp +zetaDelta

@[simp] theorem replayAccesses_pending (n : Nat) (s : State) : (replayAccesses n s).pending = s.pending := by
  fun_induction replayAccesses n s <;> simp_all

@[simp] theorem State.wake_pending (s : State) : s.wake.pending = s.pending := by simp [State.wake]

@[simp] theorem State.settle_pending (s : State) : s.settle.pending = s.pending := by simp [State.settle]

@[simp] theorem regWrite_pending (master addr width v : Nat) (s : State) : (regWrite master addr width v s).pending = s.pending := by
  simp only [regWrite, State.settle_pending]
  refine issue_pending (fun s => ?_) _ _ s
  split <;> simp

@[simp] theorem regRead_pending (master addr width : Nat) (s : State) : (regRead master addr width s).pending = s.pending := by
  simp [regRead]

@[simp] theorem pageAccesses_pending (as : List PageAccess) (s : State) : (pageAccesses as s).pending = s.pending := by
  induction as generalizing s with
  | nil => rfl
  | cons a as ih =>
    simp only [pageAccesses, ih]
    split <;> simp

@[simp] theorem regReadRun_pending (m : TMsg) (s : State) : (regReadRun m s).pending = s.pending := by
  fun_cases regReadRun m s <;> simp

@[simp] theorem regWriteRun_pending (m : TMsg) (s : State) : (regWriteRun m s).pending = s.pending := by
  fun_cases regWriteRun m s <;> simp

@[simp] theorem debugAccess_pending (m : TMsg) (s : State) : (debugAccess m s).pending = s.pending := by
  fun_cases debugAccess m s <;> simp

/-! ## Objects -/

@[simp] theorem applyRecords_pending (ma : Nat) (rs : List (List Byte)) (s : State) : (applyRecords ma rs s).pending = s.pending := by
  induction rs generalizing s with
  | nil => rfl
  | cons r rs ih =>
    simp only [applyRecords, ih]
    split <;> simp

@[simp] theorem useObject_pending (s : State) : (useObject s).2.pending = s.pending := by
  fun_cases useObject s <;> simp +zetaDelta

end Sys2Proof.Machine
end

section
/-! PROOFS. Every command answers a next state whose queue is the one it was given: first the forms that commands share, then the
commands with a form of their own. -/

namespace Sys2Proof.Machine

/-- An outcome is a next state, and that state's queue is the one given. -/
def Answers (o : Host.Outcome State Fault Refusal) (q : List Instr) : Prop := ∃ t, o = .next t ∧ t.pending = q

@[simp] theorem answers_done (t : State) (q : List Instr) : Answers (done t) q ↔ t.pending = q := by simp [Answers, done]

@[simp] theorem answers_doneDev (t : State) (f : Dev → Dev) (q : List Instr) : Answers (doneDev t f) q ↔ t.pending = q :=
  answers_done _ q

theorem mgmtWrite_answers {effect : State → Nat × State} (h : ∀ s, (effect s).2.pending = s.pending) (master addr width v : Nat)
    (s : State) : Answers (done (mgmtWrite master addr width v effect s)) s.pending :=
  (answers_done _ _).2 (mgmtWrite_pending h ..)

theorem onReq_answers {f : TMsg → State → State} (h : ∀ m s, (f m s).pending = s.pending) (fam code : Nat) (o : Option TMsg)
    (s : State) : Answers (onReq fam code o f s) s.pending := by
  fun_cases onReq fam code o f s <;> simp +zetaDelta [h]

theorem onReqDev_answers (fam code : Nat) (o : Option TMsg) (f : TMsg → Dev → Dev) (s : State) :
    Answers (onReqDev fam code o f s) s.pending :=
  onReq_answers (fun _ _ => State.onDev_pending ..) ..

theorem onRec_answers (code : Nat) (write : Bool) (o : Option TMsg) (f : TMsg → Dev → Dev) (s : State) :
    Answers (onRec code write o f s) s.pending :=
  onReqDev_answers ..

theorem onDebug_answers (code : Nat) (o : Option TMsg) (f : TMsg → Dev → Dev) (s : State) :
    Answers (onDebug code o f s) s.pending :=
  onReqDev_answers ..

theorem onJobDev_answers (fam code : Nat) (o : Option TMsg) (f : TMsg → Dev → Dev) (s : State) :
    Answers (onJobDev fam code o f s) s.pending := by
  unfold onJobDev onJob
  refine onReq_answers (fun m s => ?_) ..
  split <;> exact State.onDev_pending ..

theorem onCall_answers {f : State → Nat × State} (h : ∀ s, (f s).2.pending = s.pending) (core : Bool) (code : Nat) (s : State) :
    Answers (onCall core code f s) s.pending := by
  fun_cases onCall core code f s <;> simp +zetaDelta [h]

theorem onCallDev_answers (core : Bool) (code : Nat) (f : Dev → Nat × Dev) (s : State) :
    Answers (onCallDev core code f s) s.pending :=
  onCall_answers (fun _ => rfl) ..

theorem onRoce_answers (r : RoceReq) (op : Dev → RdmaOp) (s : State) : Answers (onRoce r op s) s.pending := by
  fun_cases onRoce r op s <;> simp +zetaDelta [apply_ite State.pending]

theorem onChunk_answers {f : State → Packet → State} (h : ∀ s p, (f s p).pending = s.pending) (kind : Nat) (o : Option Packet)
    (s : State) : Answers (onChunk kind o f s) s.pending := by
  fun_cases onChunk kind o f s <;> simp [h]

/-! ## Commands that reach memory or an engine -/

theorem execKblockDone_answers (i : Fin 512) (err : TileErr) (s : State) : Answers (execKblockDone i err s) s.pending := by
  fun_cases execKblockDone i err s <;> simp

theorem execTileBlockDone_answers (i : TileDone) (s : State) : Answers (execTileBlockDone i s) s.pending := by
  fun_cases execTileBlockDone i s <;> simp

theorem execPassDone_answers (s : State) : Answers (execPassDone s) s.pending := by
  fun_cases execPassDone s <;> simp

theorem execArrOpStart_answers (s : State) : Answers (execArrOpStart s) s.pending := by
  fun_cases execArrOpStart s <;> simp +zetaDelta

theorem execArrWindowEntry_answers (s : State) : Answers (execArrWindowEntry s) s.pending := by
  fun_cases execArrWindowEntry s <;> simp

theorem execArrOpComplete_answers (s : State) : Answers (execArrOpComplete s) s.pending := by
  fun_cases execArrOpComplete s <;> simp

theorem execArrFailDrained_answers (s : State) : Answers (execArrFailDrained s) s.pending := by
  fun_cases execArrFailDrained s <;> simp

theorem execCplWrite_answers (s : State) : Answers (execCplWrite s) s.pending := by
  fun_cases execCplWrite s <;> simp

theorem execArrStallTimeout_answers (s : State) : Answers (execArrStallTimeout s) s.pending := by
  fun_cases execArrStallTimeout s <;> simp

theorem execArrOutputAck_answers (n : Nat) (status : Byte) (s : State) : Answers (execArrOutputAck n status s) s.pending := by
  fun_cases execArrOutputAck n status s <;> simp +zetaDelta

theorem execCelPortTrained_answers (p : Fin 4) (how : CelTrained) (s : State) : Answers (execCelPortTrained p how s) s.pending := by
  fun_cases execCelPortTrained p how s <;> simp

theorem execCelReleaseFillDone_answers (p : Fin 4) (n : BitVec 20) (s : State) :
    Answers (execCelReleaseFillDone p n s) s.pending := by
  fun_cases execCelReleaseFillDone p n s <;> simp

theorem execSweepUnitRead_answers (p : SweepRead) (s : State) : Answers (execSweepUnitRead p s) s.pending := by
  fun_cases execSweepUnitRead p s <;> simp

theorem execSweepJournalAck_answers (p : Fin 4) (s : State) : Answers (execSweepJournalAck p s) s.pending := by
  fun_cases execSweepJournalAck p s <;> simp

theorem execCopyStart_answers (n : Fin 8) (s : State) : Answers (execCopyStart n s) s.pending := by
  fun_cases execCopyStart n s <;> simp +zetaDelta

theorem execCellarUnitAccess_answers (n : Fin 8) (err : CelErr) (s : State) : Answers (execCellarUnitAccess n err s) s.pending := by
  fun_cases execCellarUnitAccess n err s <;> simp +zetaDelta

theorem execCopyComplete_answers (n : Fin 8) (s : State) : Answers (execCopyComplete n s) s.pending := by
  fun_cases execCopyComplete n s <;> simp

theorem execCopyFailDone_answers (n : Fin 8) (s : State) : Answers (execCopyFailDone n s) s.pending := by
  fun_cases execCopyFailDone n s <;> simp

theorem execCopyFault_answers (n : Fin 8) (s : State) : Answers (execCopyFault n s) s.pending := by
  fun_cases execCopyFault n s <;> simp

theorem execWritePkt_answers (o : Option Packet) (s : State) : Answers (execWritePkt o s) s.pending := by
  fun_cases execWritePkt o s <;> simp +zetaDelta

theorem execReadReq_answers (o : Option Packet) (s : State) : Answers (execReadReq o s) s.pending := by
  fun_cases execReadReq o s <;> simp

theorem execReadResp_answers (o : Option Packet) (s : State) : Answers (execReadResp o s) s.pending := by
  fun_cases execReadResp o s <;> simp +zetaDelta

theorem execMcastPkt_answers (o : Option Packet) (s : State) : Answers (execMcastPkt o s) s.pending := by
  fun_cases execMcastPkt o s <;> simp +zetaDelta

theorem execRaComplete_answers (s : State) : Answers (execRaComplete s) s.pending := by
  fun_cases execRaComplete s <;> simp +zetaDelta

theorem execPowerWave_answers (ok : Bool) (s : State) : Answers (execPowerWave ok s) s.pending := by
  fun_cases execPowerWave ok s <;> simp +zetaDelta [apply_ite State.pending]

theorem execPowerOn_answers (a b : Bool) (s : State) : Answers (execPowerOn a b s) s.pending := by
  fun_cases execPowerOn a b s <;> simp [powerOn]

theorem execMemtestDone_answers (status : Byte) (ms : Word) (s : State) : Answers (execMemtestDone status ms s) s.pending := by
  fun_cases execMemtestDone status ms s <;> simp +zetaDelta

theorem execGddr7ZeroFillDone_answers (s : State) : Answers (execGddr7ZeroFillDone s) s.pending := by
  fun_cases execGddr7ZeroFillDone s <;> simp

theorem execLinksDone_answers (s : State) : Answers (execLinksDone s) s.pending := by
  fun_cases execLinksDone s <;> simp

theorem execSramInitDone_answers (fatal other : Bool) (s : State) : Answers (execSramInitDone fatal other s) s.pending := by
  fun_cases execSramInitDone fatal other s <;> simp

theorem execThermalTrip_answers (die : Fin 9) (t : Int) (s : State) : Answers (execThermalTrip die t s) s.pending := by
  fun_cases execThermalTrip die t s <;> simp +zetaDelta

theorem execScrubStepDone_answers (s : State) : Answers (execScrubStepDone s) s.pending := by
  fun_cases execScrubStepDone s <;> simp +zetaDelta [apply_ite State.pending]

theorem execColHeadCheck_answers (s : State) : Answers (execColHeadCheck s) s.pending := by
  fun_cases execColHeadCheck s <;> simp +zetaDelta

theorem execColQuotaReserved_answers (s : State) : Answers (execColQuotaReserved s) s.pending := by
  fun_cases execColQuotaReserved s <;> simp +zetaDelta

theorem execColInputReadDone_answers (i : BitVec 12) (s : State) : Answers (execColInputReadDone i s) s.pending := by
  fun_cases execColInputReadDone i s <;> simp +zetaDelta

theorem execColResultWriteAck_answers (i : BitVec 12) (s : State) : Answers (execColResultWriteAck i s) s.pending := by
  fun_cases execColResultWriteAck i s <;> simp +zetaDelta [apply_ite State.pending, apply_ite Prod.snd]

theorem execArrayHandover_answers (s : State) : Answers (execArrayHandover s) s.pending := by
  fun_cases execArrayHandover s <;> simp +zetaDelta

theorem execAbandonmentNotice_answers (s : State) : Answers (execAbandonmentNotice s) s.pending := by
  fun_cases execAbandonmentNotice s <;> simp +zetaDelta

theorem execColJoinTimeout_answers (i : BitVec 12) (s : State) : Answers (execColJoinTimeout i s) s.pending := by
  fun_cases execColJoinTimeout i s <;> simp

theorem execColProgressTimeout_answers (i : BitVec 12) (s : State) : Answers (execColProgressTimeout i s) s.pending := by
  fun_cases execColProgressTimeout i s <;> simp

/-! ## Commands that reach registers, keys and objects -/

theorem knockDev_pending (f : Dev → Nat × List Byte × Dev) (s : State) : (knockDev f s).2.2.pending = s.pending := by
  simp [knockDev]

theorem execWlock_answers (master : Byte) (block : BitVec 12) (value : LockWrite) (s : State) :
    Answers (execWlock master block value s) s.pending :=
  (answers_done _ _).2 ((pageAccesses_pending ..).trans (mgmtWrite_pending (fun _ => State.onDev_pending ..) ..))

theorem execUnseal_answers (o : Option TMsg) (htag : Bool) (s : State) : Answers (execUnseal o htag s) s.pending := by
  unfold execUnseal
  split
  · simp
  · refine onReq_answers (fun m s => ?_) ..
    dsimp only
    repeat' split
    all_goals simp

theorem execUnsealDone_answers (tags : Bool) (plain : List Byte) (s : State) : Answers (execUnsealDone tags plain s) s.pending := by
  unfold execUnsealDone
  split
  · simp
  · extract_lets bs rd s' w good s''
    split
    · simp
    · have hw : w.2.pending = s.pending := gdWrite_pending ..
      rw [answers_done, State.onDev_pending]
      unfold s''
      repeat' split
      · exact hw
      · exact State.havoc_pending ..
      · exact hw

theorem execAccessTimeout_answers (master : Byte) (addr : BitVec 40) (s : State) :
    Answers (execAccessTimeout master addr s) s.pending := by
  fun_cases execAccessTimeout master addr s <;> simp +zetaDelta

theorem execGdRecalDone_answers (w : Fin 8) (dev : Fin 3) (s : State) : Answers (execGdRecalDone w dev s) s.pending := by
  fun_cases execGdRecalDone w dev s <;> simp

theorem execHallTimeout_answers (src dst : Fin 17) (tag : Nat) (s : State) : Answers (execHallTimeout src dst tag s) s.pending := by
  fun_cases execHallTimeout src dst tag s <;> simp

theorem execIslandRestart_answers (i : Island) (s : State) : Answers (execIslandRestart i s) s.pending := by
  unfold execIslandRestart
  split
  · simp
  · cases i with
    | gddr w dev =>
      dsimp only
      split <;> simp
    | _ => simp

theorem execRegRead_answers (o : Option TMsg) (s : State) : Answers (execRegRead o s) s.pending := by
  fun_cases execRegRead o s <;> simp +zetaDelta

theorem execRegWrite_answers (o : Option TMsg) (s : State) : Answers (execRegWrite o s) s.pending := by
  fun_cases execRegWrite o s
  · simp
  · exact onReq_answers (fun _ _ => by simp) ..

theorem execVotedWrite_answers (src : BitVec 15) (wseq : Word) (addr : BitVec 40) (width : Nat) (value : BitVec 64) (s : State) :
    Answers (execVotedWrite src wseq addr width value s) s.pending := by
  fun_cases execVotedWrite src wseq addr width value s <;> simp +zetaDelta

theorem execDebugAccess_answers (o : Option TMsg) (s : State) : Answers (execDebugAccess o s) s.pending := by
  refine onReq_answers (fun m s => ?_) ..
  split <;> simp

theorem execPealActivate_answers (o : Option TMsg) (s : State) : Answers (execPealActivate o s) s.pending := by
  fun_cases execPealActivate o s <;> simp +zetaDelta

theorem execActivateObject_answers (core : Bool) (s : State) : Answers (execActivateObject core s) s.pending := by
  refine onCall_answers (fun s => ?_) ..
  split <;> simp

theorem execMbxData_answers (master : Byte) (w : MbxWord) (s : State) : Answers (execMbxData master w s) s.pending := by
  simp [execMbxData]

theorem execKnockPower_answers (k : Knock) (s : State) : Answers (execKnockPower k s) s.pending := by
  refine (answers_done _ _).2 (knocked_pending (fun s => ?_) ..)
  split <;> simp

/-- Every command answers, and leaves the queue as it was. A command that is not named changes the device alone.
The goal has a name because `unseal`, a word of Lean's, cannot stand alone as the name of a case. -/
theorem exec_answers (c : Instr) (s : State) : Answers (exec c s) s.pending := by
  unfold exec
  refine ?command
  cases c
  case rtbSeal | rtbUnseal | rtbFlip | rtbParamWrite | routeEntryWrite | windowEntryWrite | celPageGive | celPageRelease | admitPort
    | markMiswired | recSwAppend | recFreezeWrite | recReadSel | giveUp | switchRequest | belHealth | agtPortPlanWrite | rtrMaWrite
    | rtbGen | genFault | groupEntryWrite | memberPoolWrite | grpDisable | tocSrcCfgWrite | tocErrnRelease | tocRailtest | belAlive
    | policyEntryWrite | resetTile | resetCluster | resetWing | resetPort | resetCore | resetModule | widen | rotate | linkRetrain
    | enablePort =>
    exact mgmtWrite_answers (devEffect_pending _) ..
  case wngRegionWrite | park => exact mgmtWrite_answers (plainEffect_pending _ _ _) ..
  case errForce | errInvchk => exact mgmtWrite_answers (fun _ => State.onDev_pending ..) ..
  case retrain => exact mgmtWrite_answers (celCtrlEffect_pending _) ..
  case ethSlotWrite => exact mgmtWrite_answers (slotWriteEffect_pending _ _ _) ..
  case arrCplTail => exact mgmtWrite_answers (cplTailEffect_pending _ _) ..
  case arrSubmit => exact mgmtWrite_answers (arrSubmitEffect_pending _ _) ..
  case arrFlush | arrHold => exact mgmtWrite_answers (arrCtrlEffect_pending _ _) ..
  case arrTenantWrite => exact mgmtWrite_answers (arrTenantEffect_pending _ _) ..
  case copySubmit => exact mgmtWrite_answers (copySubmitEffect_pending _ _) ..
  case celCeTenantWrite => exact mgmtWrite_answers (ceTenantEffect_pending _ _ _) ..
  case rtrRaSubmit => exact mgmtWrite_answers (raSubmitEffect_pending _) ..
  case colSubmit => exact mgmtWrite_answers (colSubmitEffect_pending _) ..
  case colFlush | colHold => exact mgmtWrite_answers (colCtrlEffect_pending _ _) ..
  case colTenantWrite => exact mgmtWrite_answers (colTenantEffect_pending _ _) ..
  case targetFull | targetQuiet | targetTransit | targetStandby | targetOff => exact mgmtWrite_answers (targetEffect_pending _) ..
  case registerWrite | mbxTxPost | latchRelease | receiverReset => exact (answers_done _ _).2 (regWrite_pending ..)
  case mbxRx => exact (answers_done _ _).2 (regRead_pending ..)
  case wlock => exact execWlock_answers ..
  case openSession | prove | closeSession | recClear | attRequest | attExtend | keyDeliver | statusRead | mbxPost =>
    exact onReqDev_answers ..
  case recRead | recTailRead | tostoRecFreeze | recState => exact onRec_answers ..
  case debugChallenge | debugUnlock | debugRelock | debugCore => exact onDebug_answers ..
  case qpCreate | qpDestroy | pealPut | pealStart | pealQuery | pealCommit | sliceBegin | slicePart | sliceCommit | sliceQuery
    | sliceRelease | transitDrain | drainQuery =>
    exact onJobDev_answers ..
  case verifyObject | signClaim | cellarKey | attest | keyDelivery | lockCall => exact onCallDev_answers ..
  case rdmaWrite | rdmaRead | rdmaSend => exact onRoce_answers ..
  case openChunk => exact onChunk_answers takeOpenPacket_pending ..
  case verdictChunk => exact onChunk_answers takeVerdict_pending ..
  case abortChunk => exact onChunk_answers takeAbort_pending ..
  case creditChunk => exact onChunk_answers takeCreditPacket_pending ..
  case dataChunk => exact onChunk_answers takeData_pending ..
  case resultChunk => exact onChunk_answers takeResult_pending ..
  case knockStatus | recTail | recFreeze | switchCore | knockErrN | knockReset =>
    exact (answers_done _ _).2 (knocked_pending (knockDev_pending _) ..)
  case gdLineRead | gdLineWrite => exact (answers_done _ _).2 (lineRequest_pending ..)
  case resetComplete | resetNRelease => exact (answers_done _ _).2 (State.forget_pending _)
  case tileTestDone => exact (answers_done _ _).2 (tileTested_pending ..)
  case kblockDone => exact execKblockDone_answers ..
  case tileBlockDone => exact execTileBlockDone_answers ..
  case passDone => exact execPassDone_answers ..
  case arrOpStart => exact execArrOpStart_answers ..
  case arrWindowEntry => exact execArrWindowEntry_answers ..
  case arrOpComplete => exact execArrOpComplete_answers ..
  case arrFailDrained => exact execArrFailDrained_answers ..
  case cplWrite => exact execCplWrite_answers ..
  case arrStallTimeout => exact execArrStallTimeout_answers ..
  case arrOutputAck => exact execArrOutputAck_answers ..
  case celPortTrained => exact execCelPortTrained_answers ..
  case celReleaseFillDone => exact execCelReleaseFillDone_answers ..
  case sweepUnitRead => exact execSweepUnitRead_answers ..
  case sweepJournalAck => exact execSweepJournalAck_answers ..
  case copyStart => exact execCopyStart_answers ..
  case cellarUnitAccess => exact execCellarUnitAccess_answers ..
  case copyComplete => exact execCopyComplete_answers ..
  case copyFailDone => exact execCopyFailDone_answers ..
  case copyFault => exact execCopyFault_answers ..
  case writePkt => exact execWritePkt_answers ..
  case readReq => exact execReadReq_answers ..
  case readResp => exact execReadResp_answers ..
  case mcastPkt => exact execMcastPkt_answers ..
  case raComplete => exact execRaComplete_answers ..
  case powerWave => exact execPowerWave_answers ..
  case powerOn => exact execPowerOn_answers ..
  case memtestDone => exact execMemtestDone_answers ..
  case gddr7ZeroFillDone => exact execGddr7ZeroFillDone_answers ..
  case linksDone => exact execLinksDone_answers ..
  case sramInitDone => exact execSramInitDone_answers ..
  case thermalTrip => exact execThermalTrip_answers ..
  case scrubStepDone => exact execScrubStepDone_answers ..
  case colHeadCheck => exact execColHeadCheck_answers ..
  case colQuotaReserved => exact execColQuotaReserved_answers ..
  case colInputReadDone => exact execColInputReadDone_answers ..
  case colResultWriteAck => exact execColResultWriteAck_answers ..
  case arrayHandover => exact execArrayHandover_answers ..
  case abandonmentNotice => exact execAbandonmentNotice_answers ..
  case colJoinTimeout => exact execColJoinTimeout_answers ..
  case colProgressTimeout => exact execColProgressTimeout_answers ..
  case command.unseal => exact execUnseal_answers ..
  case unsealDone => exact execUnsealDone_answers ..
  case accessTimeout => exact execAccessTimeout_answers ..
  case gdRecalDone => exact execGdRecalDone_answers ..
  case hallTimeout => exact execHallTimeout_answers ..
  case islandRestart => exact execIslandRestart_answers ..
  case regRead => exact execRegRead_answers ..
  case regWrite => exact execRegWrite_answers ..
  case votedWrite => exact execVotedWrite_answers ..
  case debugAccess => exact execDebugAccess_answers ..
  case pealActivate => exact execPealActivate_answers ..
  case activateObject => exact execActivateObject_answers ..
  case mbxData => exact execMbxData_answers ..
  case knockPower => exact execKnockPower_answers ..
  all_goals exact (answers_doneDev _ _ _).2 rfl

end Sys2Proof.Machine
end

section
/-! PROOFS. The statements of 00_scope: what a step runs, and that every command answers. -/

namespace Sys2Proof.Machine

/-- A step on a waiting command is that command with the queue's rest. -/
theorem step_front {s : State} {c : Instr} {rest : List Instr} (h : s.pending = c :: rest) :
    step s = exec c { s with pending := rest } := by
  simp [step, h]

/-- Settles O38, by cases over the commands. That a command which stands for an event that cannot happen answers too is the model's
choice (log entry 183). -/
theorem everyCommandAnswersNext : Obligations.EveryCommandAnswersNext := by
  unfold Obligations.EveryCommandAnswersNext
  refine ⟨exec_answers, fun c rest s h => ?_⟩
  rw [step_front h]
  exact exec_answers c { s with pending := rest }

/-! ## An idle step that does more than time does -/

/-- A module whose wing 0 is powered with its Hall port ACTIVE. -/
def wingUp : State :=
  State.reset.onDev (fun d => ({ d with powered := ⟨true, true, 1, 3⟩ } : Dev).wr Reg.HALL_WING_STATE 1)

/-- `wingUp` with the Landing of wing 0 stopped. -/
def landingStopped : State := wingUp.onDev (fun d => { d with stopped := [.landing 0] })

/-- Then a write of the Keep core to the page of wing 0 waits. -/
def writeHeld : State :=
  landingStopped.onDev (fun d => d.holdAccess ⟨1, mAddr (rkey 0x008 0x080), true, 32, 0, OK, false, none⟩)

/-- Then both UCIe modules of wing 0 fail: the write may complete now (R32, R38), and no command has completed it. -/
def strandedWrite : State := writeHeld.onDev (fun d => (d.ucieLost 0 0).ucieLost 0 1)

/-- A write that passes its checks waits at a page that does not answer (R56). -/
theorem mgmtWrite_silent {master addr width v : Nat} {effect : State → Nat × State} {s : State}
    (hcore : s.dev.coreStopped master = false) (hbehind : accessBehind s.dev master addr = false)
    (hcheck : accessCheck s.dev master addr width true v = OK) (hpage : pageSilent s.dev addr true = true)
    (hrange : (effect s).1 ≠ OUT_OF_RANGE) :
    mgmtWrite master addr width v effect s = s.onDev (fun d => d.holdAccess ⟨master, addr, true, width, v, OK, false, none⟩) := by
  simp [mgmtWrite, issue, hcore, hbehind, hcheck, hpage, hrange]

/-- Three commands lead from `wingUp` to `strandedWrite`. -/
theorem strandedWrite_reached :
    exec (.islandStop (.landing 0)) wingUp = .next landingStopped ∧
      exec (.wngRegionWrite 1 0 0 false 0) landingStopped = .next writeHeld ∧ exec (.wingLost 0) writeHeld = .next strandedWrite :=
  ⟨rfl, congrArg Host.Outcome.next (mgmtWrite_silent (by decide) (by decide) (by decide) (by decide) (by decide)), rfl⟩

/-- One idle tick completes the write that waits, with WING_RESET: the tick lets go on what may (log entry 15). -/
theorem strandedWrite_idle : strandedWrite.dev.acc.waiting ≠ [] ∧ strandedWrite.idle.dev.acc.waiting = [] := by decide

/-- Refutes O37: on an empty queue the idle step also completes a write that waits and whose page is gone, so the waiting accesses
(`acc`, which the frame keeps) change. Commands lead to that state from a module with a wing up (`strandedWrite_reached`). The first
clause, on the command at the front, holds (`step_front`). -/
theorem not_stepTakesTheFront : ¬ Obligations.StepTakesTheFront := by
  unfold Obligations.StepTakesTheFront
  rintro ⟨-, hidle⟩
  obtain ⟨t, ht, -, -, -, hsame, -⟩ := hidle strandedWrite rfl
  obtain rfl : strandedWrite.idle = t := Host.Outcome.next.inj ht
  have hacc : strandedWrite.idle.dev.acc = strandedWrite.dev.acc := hsame .acc (by decide)
  obtain ⟨hwaits, hdone⟩ := strandedWrite_idle
  exact hwaits (hacc ▸ hdone)

end Sys2Proof.Machine
end

section
/-! PROOFS. Refused accesses: what a refusal leaves unchanged, and that a write out of its register's range is one (R56, R57). -/

namespace Sys2Proof.Machine

/-! ## Completion at the master -/

@[simp] theorem Dev.refuse_arr (d : Dev) (master addr st : Nat) : (d.refuse master addr st).arr = d.arr := by
  fun_cases Dev.refuse d master addr st <;> simp +zetaDelta [apply_ite Dev.arr]
@[simp] theorem Dev.refuse_col (d : Dev) (master addr st : Nat) : (d.refuse master addr st).col = d.col := by
  fun_cases Dev.refuse d master addr st <;> simp +zetaDelta [apply_ite Dev.col]
@[simp] theorem Dev.refuse_host (d : Dev) (master addr st : Nat) : (d.refuse master addr st).host = d.host := by
  fun_cases Dev.refuse d master addr st <;> simp +zetaDelta [apply_ite Dev.host]
@[simp] theorem Dev.refuse_waiting (d : Dev) (master addr st : Nat) :
    (d.refuse master addr st).acc.waiting = d.acc.waiting := by
  fun_cases Dev.refuse d master addr st <;> simp +zetaDelta [apply_ite Dev.acc]

/-- An access that completes makes nothing wait. -/
theorem Dev.complete_quiet {d : Dev} (h : quiet d) (master addr st data : Nat) : quiet (d.complete master addr st data) := by
  unfold Dev.complete Dev.settleStatus
  split <;> simpa [quiet, asleep] using h

/-- The answer to a refused access is the last thing sent, without data. -/
theorem Dev.complete_refused_last (d : Dev) (master addr data : Nat) {st : Nat} (h : st ≠ OK) :
    (d.complete master addr st data).out.getLast? = some (.access master addr st 0) := by
  simp [Dev.complete, Dev.send, h]

/-- A refusal writes MOD_ACCESS_FAULT_COUNT, MOD_ACCESS_LAST and what its event writes (R57). -/
theorem Dev.refuse_rd (d : Dev) (master addr st : Nat) {k : Nat} (hevent : eventKey k = false)
    (hcount : k ≠ Reg.MOD_ACCESS_FAULT_COUNT) (hlast : k ≠ Reg.MOD_ACCESS_LAST) : (d.refuse master addr st).rd k = d.rd k := by
  have hwr (v : Nat) : ((d.count Reg.MOD_ACCESS_FAULT_COUNT).wr Reg.MOD_ACCESS_LAST v).rd k = d.rd k := by
    rw [Dev.rd_wr_ne _ _ hlast, Dev.rd_count_ne _ hcount]
  have hsent (c : Prop) [Decidable c] (e : Dev) (x : Sent) : (if c then e.send x else e).rd k = e.rd k := by split <;> rfl
  unfold Dev.refuse
  extract_lets counted noted sent
  have he : sent.rd k = d.rd k := (hsent _ noted _).trans (hwr _)
  split
  · exact he
  · exact (Dev.raise_rd _ _ _ hevent).trans he

/-- A completed access writes its master's MOD_ACCESS_STATUS, and what a refusal writes. -/
theorem Dev.complete_rd (d : Dev) (master addr st data : Nat) {k : Nat} (hevent : eventKey k = false)
    (hcount : k ≠ Reg.MOD_ACCESS_FAULT_COUNT) (hlast : k ≠ Reg.MOD_ACCESS_LAST) (hstatus : k ≠ bankKey master Reg.MOD_ACCESS_STATUS) :
    (d.complete master addr st data).rd k = d.rd k := by
  unfold Dev.complete Dev.settleStatus
  rw [Dev.send_rd, Dev.rd_wr_ne _ _ hstatus]
  split
  · exact Dev.refuse_rd d master addr st hevent hcount hlast
  · rfl

/-- No event writes an ERR_SEVERE. -/
theorem eventKey_severe (b : Nat) : eventKey (rkey b 0x034) = false := by
  rw [eventKey, decide_eq_false_iff_not]
  simp only [rkey, Reg.TOC_OVERRUN_LAST, Reg.REC_LOST_COUNT, Reg.REC_LOST_PENDING]
  omega

/-- No completion writes an ERR_SEVERE. -/
theorem Dev.complete_severe (d : Dev) (master addr st data b : Nat) :
    (d.complete master addr st data).rd (rkey b 0x034) = d.rd (rkey b 0x034) := by
  apply Dev.complete_rd
  · exact eventKey_severe b
  all_goals simp only [rkey, bankKey, Reg.MOD_ACCESS_FAULT_COUNT, Reg.MOD_ACCESS_LAST, Reg.MOD_ACCESS_STATUS]; omega

/-! ## Fields of a written word -/

/-- A field below bit `w` is in the low `w` bits. -/
theorem bits_mod {w hi : Nat} (h : hi < w) (v lo : Nat) : bits (v % 2 ^ w) hi lo = bits v hi lo := by
  refine Nat.eq_of_testBit_eq fun i => ?_
  simp only [bits, Nat.testBit_mod_two_pow, Nat.testBit_shiftRight]
  by_cases hi' : i < hi + 1 - lo
  · simp [hi', show lo + i < w by omega]
  · simp [hi']

/-! ## Refused writes -/

/-- A write that its checks refuse, and that no earlier access of its master waits before, completes with their status (R46, R57). -/
theorem regWrite_refused {master addr width v : Nat} {s : State} (hcore : s.dev.coreStopped master = false)
    (hbehind : accessBehind s.dev master addr = false) (hst : accessCheck s.dev master addr width true v ≠ OK) (hquiet : quiet s.dev) :
    regWrite master addr width v s = s.onDev (fun d => d.complete master addr (accessCheck s.dev master addr width true v) 0) := by
  simp only [regWrite, issue, hcore, hbehind, Bool.false_eq_true, if_false, if_pos hst]
  exact settle_quiet _ (Dev.complete_quiet hquiet ..)

/-- Only the range tells apart two values written to a register of a page: where one passes every check, one that is out of range is
answered OUT_OF_RANGE (R56 check 6). -/
theorem accessCheck_outOfRange {d : Dev} {master addr width v w b off : Nat} (hpage : mTarget addr = .page b off)
    (hok : accessCheck d master addr width true w = OK) (hrange : rangeOk d (rkey b off) v = false) :
    accessCheck d master addr width true v = OUT_OF_RANGE := by
  revert hok
  simp only [accessCheck, hpage, hrange]
  repeat' split
  all_goals simp_all

/-- The range of ERR_SEVERE: N and W at least 1, W at most 3,600,000 (R49). -/
theorem rangeOk_severe (d : Dev) (b v : Nat) :
    rangeOk d (rkey b 0x034) v = decide (1 ≤ bits v 7 0 ∧ 1 ≤ bits v 31 10 ∧ bits v 31 10 ≤ 3600000) := by
  have hoff : rkey b 0x034 % 0x1000 = 0x034 := by simp only [rkey]; omega
  simp [rangeOk, hoff]

/-- A write of ERR_SEVERE with N or W 0, or with W above its bound, is out of range. -/
theorem rangeOk_severe_bad (d : Dev) (b : Nat) {v : Nat} (h : bits v 7 0 = 0 ∨ bits v 31 10 = 0 ∨ 3600000 < bits v 31 10) :
    rangeOk d (rkey b 0x034) v = false := by
  rw [rangeOk_severe, decide_eq_false_iff_not]
  omega

end Sys2Proof.Machine
end

section
/-! PROOFS. The collector's sources: what leaves every source as it is, and the opening of a severity window (R452, R453). -/

namespace Sys2Proof.Machine

/-! ## Sources of an updated device -/

theorem tocSrc_congr {d e : Dev} (h : e.toc.src = d.toc.src) (s : Nat) : tocSrc e s = tocSrc d s := by
  simp only [tocSrc, h]

@[simp] theorem tocSrc_setTocSrc_same (d : Dev) (s : Nat) (x : TocSrc) : tocSrc (d.setTocSrc s x) s = x :=
  SMap.get_put_same ..

theorem tocSrc_setTocSrc_ne (d : Dev) {s other : Nat} (x : TocSrc) (h : other ≠ s) : tocSrc (d.setTocSrc s x) other = tocSrc d other :=
  SMap.get_put_ne _ _ _ h

@[simp] theorem Dev.raise0_src (d : Dev) (b n : Nat) : (d.raise0 b n).toc.src = d.toc.src := by
  fun_cases Dev.raise0 d b n <;> simp +zetaDelta

@[simp] theorem Dev.append_src (d : Dev) (kind o c : Nat) (x : List Byte) : (d.append kind o c x).toc.src = d.toc.src := by
  fun_cases Dev.append d kind o c x <;> simp +zetaDelta [Dev.enqueue]

/-! ## Notes, records and reactions -/

@[simp] theorem Dev.tocNote_src (d : Dev) (s reaction : Nat) (old new : SrcState) :
    (d.tocNote s reaction old new).toc.src = d.toc.src := by
  fun_cases Dev.tocNote d s reaction old new <;> simp +zetaDelta

@[simp] theorem Dev.tocRecord_src (d : Dev) (s cause reaction : Nat) (new : SrcState) (count : Nat) :
    (d.tocRecord s cause reaction new count).toc.src = d.toc.src := Dev.append_src ..

@[simp] theorem Dev.tocPending_src (d : Dev) (s : Nat) : (d.tocPending s).toc.src = d.toc.src := rfl

@[simp] theorem Dev.tocTrap_src (d : Dev) (s : Nat) : (d.tocTrap s).toc.src = d.toc.src := by
  fun_cases Dev.tocTrap d s <;> simp

/-- A reaction that resets nothing and pulses no pin leaves every source as it is (R455). -/
theorem Dev.react_src (d : Dev) (s : Nat) {r : Nat} (h : r ≤ 2) : (d.react s r).toc.src = d.toc.src := by
  unfold Dev.react
  split
  · rfl
  · dsimp only
    split
    · simp
    · rw [if_neg (by omega), if_neg (by omega), if_neg (by omega), Dev.tocPending_src]

/-! ## The opening of a window -/

/-- A configuration byte whose parity is right reads as it was written (R463). -/
theorem Dev.cfgRead_good {d : Dev} {s : Nat} (hbad : d.toc.cfgBad.contains s = false) (harm : d.armed 0x060 1 = false) :
    d.cfgRead s = (cfgByte d s, d) := by
  simp only [Dev.cfgRead, hbad, harm, Bool.false_eq_true, if_false]

/-- An event that is to stay below N puts the source's window there and sets no other source: it moves to FAULT or keeps its state. -/
theorem Dev.tocCounts_below {d : Dev} {s : Nat} {x : TocSrc} (hcfg : d.cfgRead s = (cfgByte d s, d))
    (hreact : bits (cfgByte d s) 2 0 ≤ 2) (hbelow : (windowNext d s x.win).1 < (windowNext d s x.win).2.1) :
    ∃ st, (d.tocCounts s x).toc.src = (d.setTocSrc s { x with st := st, win := some (windowNext d s x.win) }).toc.src := by
  refine ⟨if 2 ≤ bits (cfgByte d s) 2 0 then .fault else x.st, ?_⟩
  simp only [Dev.tocCounts, hcfg, if_neg (Nat.not_le.mpr hbelow), Dev.react_src _ _ hreact]
  split
  · rw [Dev.tocNote_src]
  · rw [Dev.tocRecord_src, Dev.tocNote_src]

/-- A source with one more event counted. -/
def countedSrc (d : Dev) (s : Nat) : TocSrc := { tocSrc d s with count := min 255 ((tocSrc d s).count + 1) }

/-- A device with one more event of a source counted. -/
def Dev.counted (d : Dev) (s : Nat) : Dev := (d.setTocSrc s (countedSrc d s)).count Reg.TOC_EVENT_COUNT

/-- Counting an event writes no header register. -/
theorem Dev.counted_header (d : Dev) (s b : Nat) {off : Nat} (h : off < 0x080) : (d.counted s).rd (rkey b off) = d.rd (rkey b off) :=
  Dev.rd_count_ne _ (by simp only [rkey, Reg.TOC_EVENT_COUNT]; omega)

theorem tocSrc_counted_ne (d : Dev) {s other : Nat} (h : other ≠ s) : tocSrc (d.counted s) other = tocSrc d other :=
  tocSrc_setTocSrc_ne d _ h

/-- A severity window is taken from a header register, which counting does not write. -/
theorem windowNext_counted (d : Dev) (s : Nat) (w : Option (Nat × Nat × Nat)) : windowNext (d.counted s) s w = windowNext d s w := by
  simp only [windowNext, Dev.counted_header d s _ (show 0x034 < 0x080 by decide)]

/-- Where a byte's parity is right and no inverted check is armed, it reads as written after an event is counted too. -/
theorem Dev.cfgRead_counted {d : Dev} {s : Nat} (hbad : d.toc.cfgBad.contains s = false) (harm : d.armed 0x060 1 = false) :
    (d.counted s).cfgRead s = (cfgByte (d.counted s) s, d.counted s) := by
  refine Dev.cfgRead_good hbad ?_
  rwa [Dev.armed, Dev.counted_header d s _ (by decide)]

/-- An unmasked event of a source in IDLE or FAULT that no reset clears is counted and moves the source (R452). -/
theorem Dev.tocEvent_counts {d : Dev} {b n s : Nat} (hrail : (tocSrc d s).st ≠ .rail) (hsevere : (tocSrc d s).st ≠ .severe)
    (hmask : (d.rd (rkey b 0x024)).testBit n = false) (hclear : clearingRuns d s = false) :
    d.tocEvent b n s = (d.counted s).tocCounts s (countedSrc d s) := by
  have hclear' : ¬ (clearingRuns (d.counted s) s ∨ (countedSrc d s).st = .severe) := by
    rintro (h | h)
    · exact absurd (hclear.symm.trans h) (by decide)
    · exact hsevere h
  have hmask' : ¬ ((d.counted s).rd (rkey b 0x024)).testBit n := by
    rw [Dev.counted_header d s b (by decide), hmask]
    decide
  exact (if_neg hrail).trans ((if_neg hclear').trans (if_neg hmask'))

/-- What an unmasked event below N does to the sources: its own has the window after one more event, and no other source changes
(R453). -/
theorem Dev.tocEvent_below {d : Dev} {b n s : Nat} (hrail : (tocSrc d s).st ≠ .rail) (hsevere : (tocSrc d s).st ≠ .severe)
    (hmask : (d.rd (rkey b 0x024)).testBit n = false) (hclear : clearingRuns d s = false) (hbad : d.toc.cfgBad.contains s = false)
    (harm : d.armed 0x060 1 = false) (hreact : bits (cfgByte d s) 2 0 ≤ 2)
    (hbelow : (windowNext d s (tocSrc d s).win).1 < (windowNext d s (tocSrc d s).win).2.1) :
    (tocSrc (d.tocEvent b n s) s).win = some (windowNext d s (tocSrc d s).win) ∧
      ∀ other, other ≠ s → tocSrc (d.tocEvent b n s) other = tocSrc d other := by
  have hwin : windowNext (d.counted s) s (countedSrc d s).win = windowNext d s (tocSrc d s).win := windowNext_counted ..
  obtain ⟨st, hsrc⟩ := Dev.tocCounts_below (Dev.cfgRead_counted hbad harm) hreact (hwin ▸ hbelow)
  rw [Dev.tocEvent_counts hrail hsevere hmask hclear]
  refine ⟨?_, fun other hne => ?_⟩
  · rw [tocSrc_congr hsrc, tocSrc_setTocSrc_same, hwin]
  · rw [tocSrc_congr hsrc, tocSrc_setTocSrc_ne _ _ hne, tocSrc_counted_ne d hne]

/-- A toggle of a page whose domain is on reaches its source as an event (R449). -/
theorem execTocsinEvent_arrives {b : BitVec 12} {n : Fin 32} {src p : Nat} {s : State} (hsrc : sourceOf b.toNat n.val = some src)
    (hpend : SMap.get (fun _ => 0) s.dev.toc.pend (b.toNat * 32 + n.val) = p + 1) (hon : s.dev.domainOn b.toNat = true) :
    execTocsinEvent b n s = .next (s.onDev (fun d => ({ d with toc := { d.toc with
      pend := SMap.put (fun _ => 0) d.toc.pend (b.toNat * 32 + n.val) p } } : Dev).tocEvent b.toNat n.val src)) := by
  simp [execTocsinEvent, doneDev, State.onDev, hsrc, hpend, hon]

end Sys2Proof.Machine
end

section
/-! PROOFS. The statements of 02_register_pages: the bounds of ERR_SEVERE and a source's own window. -/

namespace Sys2Proof.Machine

/-- A write of ERR_SEVERE outside its bounds completes with OUT_OF_RANGE and changes no ERR_SEVERE (R49). -/
theorem severeWrite_refused {master addr v b : Nat} {s : State} (hpage : mTarget addr = .page b 0x034)
    (hok : accessCheck s.dev master addr 32 true 0x401 = OK) (hbad : bits v 7 0 = 0 ∨ bits v 31 10 = 0 ∨ 3600000 < bits v 31 10)
    (hcore : s.dev.coreStopped master = false) (hbehind : accessBehind s.dev master addr = false) (hquiet : quiet s.dev) :
    (regWrite master addr 32 v s).dev.out.getLast? = some (.access master addr OUT_OF_RANGE 0) ∧
      (regWrite master addr 32 v s).dev.rd (rkey b 0x034) = s.dev.rd (rkey b 0x034) := by
  have hcheck : accessCheck s.dev master addr 32 true v = OUT_OF_RANGE :=
    accessCheck_outOfRange hpage hok (rangeOk_severe_bad s.dev b hbad)
  rw [regWrite_refused hcore hbehind (by simp [hcheck]) hquiet, hcheck]
  exact ⟨Dev.complete_refused_last _ _ _ _ (by decide), Dev.complete_severe ..⟩

/-- Settles O44: a value outside the bounds fails the range check of R56, and an event below N touches the window of its own source
alone. -/
theorem severityBounds : Obligations.SeverityBounds := by
  unfold Obligations.SeverityBounds
  refine ⟨?_, ?_⟩
  · rintro master addr value b s ⟨hpage, hok, hbad, hcore, hbehind, hquiet⟩
    refine ⟨_, rfl, severeWrite_refused hpage hok ?_ hcore hbehind hquiet⟩
    simpa only [bits_mod (show 7 < 32 by decide), bits_mod (show 31 < 32 by decide)] using hbad
  · rintro b n src p s ⟨hsrc, hpend, hon, hst, hwin, hmask, hclear, hbad, harm, hreact, hN⟩
    refine ⟨_, execTocsinEvent_arrives hsrc hpend hon, ?_⟩
    have hopen : windowNext s.dev src (tocSrc s.dev src).win =
        (1, bits (s.dev.rd (rkey (sourcePage src).1 0x034)) 7 0, bits (s.dev.rd (rkey (sourcePage src).1 0x034)) 31 10) := by
      rw [hwin]; rfl
    have hrail : (tocSrc s.dev src).st ≠ .rail := by simp [hst]
    have hsevere : (tocSrc s.dev src).st ≠ .severe := by simp [hst]
    rw [← hopen]
    exact Dev.tocEvent_below hrail hsevere hmask hclear hbad harm hreact (hopen ▸ hN)

end Sys2Proof.Machine
end

section
/-! PROOFS. What an operand read leaves of the device: the array's operation, its tiles, and every inverted check that is not armed. -/

namespace Sys2Proof.Machine

/-- Clearing a bit sets none. -/
theorem clearBit_testBit {n j : Nat} (i : Nat) (h : n.testBit j = false) : (clearBit n i).testBit j = false := by
  unfold clearBit
  split
  case isFalse => exact h
  case isTrue hi =>
    induction i generalizing n j with
    | zero =>
      rw [Nat.testBit_zero, decide_eq_true_iff] at hi
      cases j with
      | zero => simp [hi] at h
      | succ j =>
        rw [Nat.testBit_add_one] at h ⊢
        rwa [show (n - 2 ^ 0) / 2 = n / 2 by omega]
    | succ i ih =>
      have hge : 2 ^ (i + 1) ≤ n := Nat.ge_two_pow_of_testBit hi
      rw [Nat.pow_succ] at hge ⊢
      cases j with
      | zero =>
        rw [Nat.testBit_zero, decide_eq_false_iff_not] at h ⊢
        omega
      | succ j =>
        rw [Nat.testBit_add_one] at h hi ⊢
        rw [show (n - 2 ^ i * 2) / 2 = n / 2 - 2 ^ i by omega]
        exact ih h hi

/-- An offset of a page is the offset of its key. -/
theorem rkey_offset {b off : Nat} (h : off < 0x1000) : rkey b off % 0x1000 = off := by
  simp only [rkey]
  omega

/-- An event writes ERR_STATUS and ERR_COUNT of its page, and no other header register nor any register of a tile or a cluster. -/
theorem eventKey_rkey {b off : Nat} (hoff : off < 0x1000) (hstatus : off ≠ 0x020) (hcount : off ≠ 0x030)
    (h : off < 0x080 ∨ 0x400 ≤ b) : eventKey (rkey b off) = false := by
  rw [eventKey, decide_eq_false_iff_not]
  simp only [rkey, Reg.TOC_OVERRUN_LAST, Reg.REC_LOST_COUNT, Reg.REC_LOST_PENDING]
  omega

/-- What reads of operands leave of a device: the array and the tiles are as before, and no inverted check is newly armed. -/
structure ReadKeeps (d e : Dev) : Prop where
  arr : e.arr = d.arr
  tiles : e.tiles = d.tiles
  unarmed : ∀ b n, d.armed b n = false → e.armed b n = false

namespace ReadKeeps

theorem refl (d : Dev) : ReadKeeps d d := ⟨.refl _, .refl _, fun _ _ h => h⟩

theorem trans {d e f : Dev} (h : ReadKeeps d e) (k : ReadKeeps e f) : ReadKeeps d f :=
  ⟨k.arr.trans h.arr, k.tiles.trans h.tiles, fun b n hn => k.unarmed b n (h.unarmed b n hn)⟩

variable {d e : Dev}

/-- Where the registers, the array and the tiles are as before, the rest may have changed. -/
theorem of_eq (h : ReadKeeps d e) {f : Dev} (hregs : f.regs = e.regs) (harr : f.arr = e.arr) (htiles : f.tiles = e.tiles) :
    ReadKeeps d f :=
  h.trans ⟨harr, htiles, fun b n hn => by rwa [Dev.armed, Dev.rd, hregs]⟩

theorem wr (h : ReadKeeps d e) {k : Nat} (v : Nat) (hk : k % 0x1000 ≠ 0x02C) : ReadKeeps d (e.wr k v) :=
  h.trans ⟨.refl _, .refl _, fun b n hn => by
    rwa [Dev.armed, Dev.rd_wr_ne _ _ (by simp only [rkey]; omega)]⟩

theorem count (h : ReadKeeps d e) {k : Nat} (hk : k % 0x1000 ≠ 0x02C) : ReadKeeps d (e.count k) := h.wr _ hk

theorem raise (h : ReadKeeps d e) (b n : Nat) : ReadKeeps d (e.raise b n) :=
  h.trans ⟨Dev.raise_arr .., Dev.raise_tiles .., fun c m hm => by
    rwa [Dev.armed, Dev.raise_rd _ _ _ (eventKey_rkey (by decide) (by decide) (by decide) (.inl (by decide)))]⟩

theorem disarm (h : ReadKeeps d e) (b n : Nat) : ReadKeeps d (e.disarm b n) :=
  h.trans ⟨.refl _, .refl _, fun c m hm => by
    unfold Dev.armed Dev.disarm at *
    by_cases hc : c = b
    · subst hc
      rw [Dev.rd_wr_same, Nat.testBit_mod_two_pow, clearBit_testBit n hm, Bool.and_false]
    · rwa [Dev.rd_wr_ne _ _ (by simp only [rkey]; omega)]⟩

theorem used (h : ReadKeeps d e) : ReadKeeps d e.used := h.of_eq (.refl _) (.refl _) (.refl _)

/-! ## GDDR7 -/

theorem gdRefuse (h : ReadKeeps d e) (u : MemUser) (addr len st : Nat) : ReadKeeps d (e.gdRefuse u addr len st) := by
  unfold Dev.gdRefuse
  extract_lets w d1
  have h1 : ReadKeeps d d1 := by
    unfold d1
    split
    · exact h.raise ..
    · exact h
  split
  · refine ((h1.count ?_).wr _ ?_).raise _ _ <;> rw [rkey_offset] <;> decide
  · split
    · exact h.count (by decide)
    · split
      · exact h.of_eq rfl rfl rfl
      · exact h

theorem pinCorrected (h : ReadKeeps d e) (w dev ch pin : Nat) : ReadKeeps d (e.pinCorrected w dev ch pin) := by
  unfold Dev.pinCorrected
  extract_lets k n _ e'
  have h' : ReadKeeps d e' := h.of_eq rfl rfl rfl
  split
  · apply ReadKeeps.raise
    apply ReadKeeps.wr
    · exact h'.of_eq rfl rfl rfl
    · rw [rkey_offset] <;> decide
  · exact h'

theorem lineCE (h : ReadKeeps d e) (addr ch pin : Nat) : ReadKeeps d (e.lineCE addr ch pin) := by
  refine ((h.count ?_).raise _ _).pinCorrected _ _ _ _
  rw [rkey_offset] <;> decide

theorem lineUE (h : ReadKeeps d e) (addr : Nat) : ReadKeeps d (e.lineUE addr) := by
  refine (((h.count ?_).wr _ ?_).wr _ ?_).raise _ _ <;> rw [rkey_offset] <;> decide

/-- A line that is read clean, whatever stands armed or known to be bad. -/
theorem readLine_clean (h : ReadKeeps d e) (addr : Nat) : ReadKeeps d (e.readLine addr .clean).2 := by
  unfold Dev.readLine
  extract_lets b line inj e'
  have h' : ReadKeeps d e' := by
    unfold e' inj
    cases e.armedFirst b [0, 1] with
    | some n => exact h.disarm ..
    | none => exact h
  split
  · exact h'.lineUE _
  · split
    · exact h'.lineUE _
    · dsimp only
      split
      · exact h'.used.lineCE ..
      · exact h'

theorem readLines (h : ReadKeeps d e) (ls : List Nat) : ReadKeeps d (e.readLines ls).2 := by
  induction ls generalizing e with
  | nil => exact h
  | cons l ls ih =>
    have hl : ReadKeeps d (e.readLine (l * 64) .clean).2 := h.readLine_clean _
    rw [Dev.readLines]
    split
    · exact ih hl
    · exact hl

theorem gdRead (h : ReadKeeps d e) (u : MemUser) (addr len : Nat) : ReadKeeps d (Machine.gdRead e u addr len).2 := by
  unfold Machine.gdRead Dev.gdUnanswered gdReadNow
  dsimp only
  split
  · split
    · exact h.gdRefuse u addr len TIMEOUT
    · exact h
  · split
    · exact h.gdRefuse ..
    · exact h.readLines _

end ReadKeeps

/-! ## Operands -/

theorem Rd.get_keeps (r : Rd) (m : Mem) (addr len : Nat) : ReadKeeps r.dev (r.get m addr len).2.dev := by
  unfold Rd.get
  split
  · exact .refl _
  · exact (ReadKeeps.refl _).gdRead ..

theorem Rd.row_keeps (r : Rd) (m : Mem) (addr fmt k0 n : Nat) : ReadKeeps r.dev (r.row m addr fmt k0 n).2.dev := by
  unfold Rd.row
  split
  · exact .refl _
  · exact r.get_keeps ..

theorem Rd.elems_keeps (r : Rd) (m : Mem) (addr fmt k0 n : Nat) : ReadKeeps r.dev (r.elems m addr fmt k0 n).2.dev :=
  r.row_keeps ..

theorem rowA_keeps (m : Mem) (op : ArrOp) (item kb i : Nat) (r : Rd) : ReadKeeps r.dev (rowA m op item kb i r).2.dev := by
  unfold rowA
  dsimp only
  split
  · exact (r.row_keeps ..).trans (Rd.get_keeps ..)
  · exact r.row_keeps ..

theorem rowConv_keeps (m : Mem) (op : ArrOp) (kb i : Nat) (r : Rd) : ReadKeeps r.dev (rowConv m op kb i r).2.dev := by
  unfold rowConv
  dsimp only
  split
  · exact .refl _
  · split
    · exact (r.row_keeps ..).trans (Rd.get_keeps ..)
    · exact r.row_keeps ..

theorem rowB_keeps (m : Mem) (op : ArrOp) (item kb j : Nat) (r : Rd) : ReadKeeps r.dev (rowB m op item kb j r).2.dev := by
  unfold rowB
  dsimp only
  split
  · exact (r.row_keeps ..).trans (Rd.get_keeps ..)
  · exact r.row_keeps ..

theorem readRows_keeps {f : Nat → Rd → LandRow × Rd} (hf : ∀ i r, ReadKeeps r.dev (f i r).2.dev) (is : List Nat) (r : Rd) :
    ReadKeeps r.dev (readRows f is r).2.dev := by
  induction is generalizing r with
  | nil => exact .refl _
  | cons i is ih => exact (hf i r).trans (ih _)

theorem landRows_keeps {f : Nat → Rd → LandRow × Rd} (hf : ∀ i r, ReadKeeps r.dev (f i r).2.dev) (e : ArrExec) (key : Landing)
    (is : List Nat) (r : Rd) : ReadKeeps r.dev (landRows e key f is r).2.2.dev := by
  unfold landRows
  split
  · exact .refl _
  · exact readRows_keeps hf is r

theorem landBlock_keeps (m : Mem) (e : ArrExec) (i : Nat) (b : BlkPos) (kb : Nat) (r : Rd) :
    ReadKeeps r.dev (landBlock m e i b kb r).2.2.2.dev := by
  unfold landBlock
  extract_lets x kind fa fb ra rb
  have ha (i : Nat) (r : Rd) : ReadKeeps r.dev (fa i r).2.dev := by
    unfold fa
    split
    · exact .refl _
    · split
      · exact rowConv_keeps ..
      · exact rowA_keeps ..
  have hb (i : Nat) (r : Rd) : ReadKeeps r.dev (fb i r).2.dev := by
    unfold fb
    split
    · exact r.row_keeps ..
    · exact rowB_keeps ..
  exact (landRows_keeps ha ..).trans (landRows_keeps hb ..)

theorem readRes_keeps (m : Mem) (op : ArrOp) (b : BlkPos) (is : List Nat) (r : Rd) : ReadKeeps r.dev (readRes m op b is r).2.dev := by
  induction is generalizing r with
  | nil => exact .refl _
  | cons i is ih => exact (r.elems_keeps ..).trans (ih _)

theorem epiIn_keeps (m : Mem) (op : ArrOp) (b : BlkPos) (r : Rd) : ReadKeeps r.dev (epiIn m op b r).2.dev := by
  unfold epiIn
  extract_lets x n bias svec res
  have hbias : ReadKeeps r.dev bias.2.dev := by
    unfold bias
    split
    · exact r.elems_keeps ..
    · exact .refl _
  have hsvec : ReadKeeps bias.2.dev svec.2.dev := by
    unfold svec
    split
    · exact Rd.elems_keeps ..
    · exact .refl _
  have hres : ReadKeeps svec.2.dev res.2.dev := by
    unfold res
    split
    · exact readRes_keeps ..
    · exact .refl _
  exact hbias.trans (hsvec.trans hres)

end Sys2Proof.Machine
end

section
/-! PROOFS. Tiles and the executing operation: what each operation on them replaces and keeps, and what a clean K-block and a clean
hand-off read (R74, R75, R85, R118, R122). -/

namespace Sys2Proof.Machine

/-! ## Tiles of an updated device -/

theorem tile_congr {d e : Dev} (h : e.tiles = d.tiles) (i : Nat) : tile e i = tile d i := by
  simp only [tile, h]

@[simp] theorem tile_setTile_same (d : Dev) (i : Nat) (t : Tile) : tile (d.setTile i t) i = t := SMap.get_put_same ..

theorem tile_setTile_ne (d : Dev) {i j : Nat} (t : Tile) (h : j ≠ i) : tile (d.setTile i t) j = tile d j := SMap.get_put_ne _ _ _ h

@[simp] theorem tile_wr (d : Dev) (k v i : Nat) : tile (d.wr k v) i = tile d i := rfl
@[simp] theorem tile_count (d : Dev) (k i : Nat) : tile (d.count k) i = tile d i := rfl
@[simp] theorem tile_setExec (d : Dev) (e : ArrExec) (i : Nat) : tile (d.setExec e) i = tile d i := rfl

@[simp] theorem tile_tileFlags (d : Dev) (i fl j : Nat) : tile (d.tileFlags i fl) j = tile d j := by
  unfold Dev.tileFlags
  dsimp only
  split <;> rfl

/-! ## Staged data -/

@[simp] theorem Tile.stage_blk (t : Tile) (a : Nat) (ws : List Nat) : (t.stage a ws).blk = t.blk := by
  induction ws generalizing t a with
  | nil => rfl
  | cons w ws ih => exact ih ..

@[simp] theorem Tile.stage_acc (t : Tile) (a : Nat) (ws : List Nat) : (t.stage a ws).acc = t.acc := by
  induction ws generalizing t a with
  | nil => rfl
  | cons w ws ih => exact ih ..

/-- Staging writes a tile's SRAM alone: it carries its block on, with the accumulators as before. -/
theorem tile_stageTile (d : Dev) (i : Nat) (bs : List Byte) :
    (tile (d.stageTile i bs) i).blk = (tile d i).blk ∧ (tile (d.stageTile i bs) i).acc = (tile d i).acc := by
  unfold Dev.stageTile
  split <;> simp

/-! ## K-blocks of a tile -/

theorem kblockCell_blk (fa fb : Nat) (a b : KRow) (k : Nat) (t : Tile × Nat) : (kblockCell fa fb a b k t).1.blk = t.1.blk := by
  unfold kblockCell
  dsimp only
  split <;> rfl

/-- The accumulator entries after a K-block of a cell depend on those before it alone. -/
theorem kblockCell_acc_congr (fa fb : Nat) (a b : KRow) (k : Nat) {t u : Tile × Nat} (h : t.1.acc = u.1.acc) :
    (kblockCell fa fb a b k t).1.acc = (kblockCell fa fb a b k u).1.acc := by
  unfold kblockCell
  dsimp only
  split <;> simp only [h]

theorem kblockCells_blk (fa fb : Nat) (rows cols : List KRow) (t : Tile) : (kblockCells fa fb rows cols t).1.blk = t.blk :=
  List.foldlRecOn (motive := fun u : Tile × Nat => u.1.blk = t.blk) _ _ rfl fun _ hu _ _ =>
    List.foldlRecOn (motive := fun u : Tile × Nat => u.1.blk = t.blk) _ _ hu fun _ hv _ _ => (kblockCell_blk ..).trans hv

theorem kblockCells_acc_congr (fa fb : Nat) (rows cols : List KRow) {t u : Tile} (h : t.acc = u.acc) :
    (kblockCells fa fb rows cols t).1.acc = (kblockCells fa fb rows cols u).1.acc :=
  List.foldl_rel (r := fun v w : Tile × Nat => v.1.acc = w.1.acc) h fun _ _ _ _ hr =>
    List.foldl_rel (r := fun v w : Tile × Nat => v.1.acc = w.1.acc) hr fun _ _ _ _ hc => kblockCell_acc_congr _ _ _ _ _ hc

/-! ## The executing operation -/

theorem Dev.tileFlags_exec {d : Dev} {e : ArrExec} (h : d.arr.exec = some e) (i fl : Nat) :
    (d.tileFlags i fl).arr.exec = some { e with flags := e.flags ||| fl } := by
  have hs : (d.tileSticky i fl).arr.exec = some e := h
  simp [Dev.tileFlags, hs, Dev.setExec]

@[simp] theorem tile_blockFinished (d : Dev) (i : Nat) (e : ArrExec) : tile (d.blockFinished i e) i = (tile d i).empty := by
  simp [Dev.blockFinished]

theorem Dev.blockFinished_exec (d : Dev) (i : Nat) (e : ArrExec) :
    (d.blockFinished i e).arr.exec = some { e with left := e.left.filter (fun j => j != i) } := rfl

/-- Offered writes go to the router alone. -/
theorem issueWrites_keeps (d : Dev) (e : ArrExec) (ws : List ArrOut) :
    (execTileBlockDone.issueWrites d e ws).tiles = d.tiles ∧ (execTileBlockDone.issueWrites d e ws).arr = d.arr := by
  induction ws generalizing d with
  | nil => exact ⟨rfl, rfl⟩
  | cons w ws ih =>
    unfold execTileBlockDone.issueWrites
    split <;> exact ih _

theorem issueWrites_finished_exec (d : Dev) (i : Nat) (e f : ArrExec) (ws : List ArrOut) :
    (execTileBlockDone.issueWrites (d.blockFinished i e) f ws).arr.exec = some { e with left := e.left.filter (fun j => j != i) } := by
  rw [(issueWrites_keeps ..).2, Dev.blockFinished_exec]

@[simp] theorem Dev.mapTiles_arr (d : Dev) (f : Tile → Tile) (is : List Nat) : (d.mapTiles f is).arr = d.arr := by
  induction is generalizing d with
  | nil => rfl
  | cons i is ih => exact ih _

@[simp] theorem Dev.mapTiles_regs (d : Dev) (f : Tile → Tile) (is : List Nat) : (d.mapTiles f is).regs = d.regs := by
  induction is generalizing d with
  | nil => rfl
  | cons i is ih => exact ih _

/-- A failure writes no register (R122). -/
@[simp] theorem Dev.arrFail_regs (d : Dev) (st : Nat) : (d.arrFail st).regs = d.regs := by
  unfold Dev.arrFail
  split
  · rfl
  · split
    · rfl
    · dsimp only
      split
      · exact Dev.mapTiles_regs ..
      · exact Dev.mapTiles_regs ..

/-- A failure gives the operation its status, and no pass or block of it is left; its writes are still to be acknowledged (R122). -/
theorem Dev.arrFail_exec {d : Dev} {e : ArrExec} (h : d.arr.exec = some e) (hf : e.failed = none) (st : Nat) :
    (d.arrFail st).arr.exec = some { e with failed := some st, passes := [], cur := none, left := [], landed := [] } := by
  simp [Dev.arrFail, h, hf]

theorem arrRuns_of_exec {d : Dev} {e : ArrExec} (h : d.arr.exec = some e) (hf : e.failed = none) : arrRuns d = true := by
  simp [arrRuns, h, hf]

/-! ## Clean reads of a tile -/

theorem Dev.armedFirst_single {d : Dev} {b n : Nat} : d.armedFirst b [n] = none ↔ d.armed b n = false := by
  simp [Dev.armedFirst]

/-- Where no inverted check of a tile is armed, its clean reads change nothing (R85, R92). -/
theorem Dev.tileReads_clean {d : Dev} {i : Nat} (h : ∀ n : Fin 3, d.armedFirst (0x400 + i) [n.val] = none) :
    d.tileReads i .clean = d := by
  have h0 : d.armedFirst (0x400 + i) [0] = none := h 0
  have h1 : d.armedFirst (0x400 + i) [1] = none := h 1
  have h2 : d.armedFirst (0x400 + i) [2] = none := h 2
  simp [Dev.tileReads, h0, h1, h2]

/-- Operands that came without an error add nothing to what the tile's own clean reads find. -/
theorem Rd.tileReads_clean {d : Dev} {r : Rd} {i : Nat} (hr : ReadKeeps d r.dev) (hst : r.st = OK)
    (h : ∀ n : Fin 3, d.armedFirst (0x400 + i) [n.val] = none) : r.tileReads i .clean = r.dev := by
  have hclean : r.dev.tileReads i .clean = r.dev :=
    Dev.tileReads_clean fun n => Dev.armedFirst_single.2 (hr.unarmed _ _ (Dev.armedFirst_single.1 (h n)))
  simp [Rd.tileReads, hst, hclean]

end Sys2Proof.Machine
end

section
/-! PROOFS. The statements of 03_tile_array: what the commands of tiles do. -/

namespace Sys2Proof.Machine

/-! ## K-blocks and the hand-off -/

section Block

variable {i : Fin 512} {e : ArrExec} {b : BlkPos} {s : State} (hexec : s.dev.arr.exec = some e)
  (hblk : (tile s.dev i.val).blk = some b) (hfail : e.failed = none) (hstop : tileStopped s.dev i.val = false)
  (harm : ∀ n : Fin 3, s.dev.armedFirst (0x400 + i.val) [n.val] = none)

include hexec hblk hfail hstop harm

/-- A clean K-block whose operands come adds to every cell of its tile, and stores nothing (R74, R75). That one read serves a group of
tiles, and which words of SRAM take its data, are the model's choices (log entries 35, 201 and 202). -/
theorem kblockDone_runs {l : List LandRow × List LandRow × ArrExec × Rd} (hports : portsRun s.dev i.val = true)
    (hkb : (tile s.dev i.val).kdone < kBlocks e.op.d b)
    (hl : l = landBlock s.mem e i.val b (tile s.dev i.val).kdone (Rd.start s.dev)) (hwait : l.2.2.2.wait = false)
    (hst : l.2.2.2.st = OK) :
    Runs (.kblockDone i .clean) s fun t =>
      (tile t.dev i.val).kdone = (tile s.dev i.val).kdone + 1 ∧ (tile t.dev i.val).blk = some b ∧ (tile t.dev i.val).portA = l.1 ∧
      (tile t.dev i.val).portB = l.2.1 ∧
      (tile t.dev i.val).acc = (kblockCells (fmtOfA e.op.d b) e.op.d.bfmt
        (l.1.map fun r => r.kRow (fmtOfA e.op.d b) (kSteps e.op.d b (tile s.dev i.val).kdone))
        (l.2.1.map fun r => r.kRow e.op.d.bfmt (kSteps e.op.d b (tile s.dev i.val).kdone)) (tile s.dev i.val)).1.acc ∧
      t.mem = s.mem := by
  have hkeep : ReadKeeps s.dev l.2.2.2.dev := hl ▸ landBlock_keeps s.mem e i.val b _ (Rd.start s.dev)
  have hclean : l.2.2.2.tileReads i.val .clean = l.2.2.2.dev := Rd.tileReads_clean hkeep hst harm
  have hgo : arrRuns l.2.2.2.dev = true := arrRuns_of_exec (hkeep.arr ▸ hexec) hfail
  have hstaged (bs : List Byte) : (tile ((l.2.2.2.dev.setExec l.2.2.1).stageTile i.val bs) i.val).blk = some b ∧
      (tile ((l.2.2.2.dev.setExec l.2.2.1).stageTile i.val bs) i.val).acc = (tile s.dev i.val).acc := by
    have h := tile_stageTile (l.2.2.2.dev.setExec l.2.2.1) i.val bs
    rwa [tile_setExec, tile_congr hkeep.tiles, hblk] at h
  show ∃ t, execKblockDone i .clean s = .next t ∧ _
  simp only [execKblockDone, hexec, hblk, ← hl, hclean, hgo]
  rw [if_neg (by simp [hfail, hstop, hports, hwait, hkb]), if_neg (by simp)]
  refine ⟨_, rfl, ?_⟩
  simp only [tile_tileFlags, tile_setTile_same, true_and, and_true]
  exact ⟨(kblockCells_blk ..).trans (hstaged _).1, kblockCells_acc_congr _ _ _ _ (hstaged _).2⟩

/-- A finished block of a product that is put out leaves its tile empty, and its writes join those to be acknowledged (R62, R118). The
places of a window block's scales are the model's choice (log entry 7). -/
theorem tileBlockDone_runs (hkb : kBlocks e.op.d b ≤ (tile s.dev i.val).kdone) (hout : ¬ (e.op.d.code = 4 ∧ b.second = false))
    (hwait : (epiIn s.mem e.op b (Rd.start s.dev)).2.wait = false) (hst : (epiIn s.mem e.op b (Rd.start s.dev)).2.st = OK) :
    Runs (.tileBlockDone ⟨i, .clean⟩) s fun t =>
      (tile t.dev i.val).blk = none ∧ (tile t.dev i.val).acc = [] ∧ t.mem = s.mem ∧
      ∃ f, t.dev.arr.exec = some f ∧ f.left = e.left.filter (fun j => j != i.val) ∧ f.nextBlock = e.nextBlock + 1 ∧
        f.unacked = e.unacked ++ numbered e.nextWrite e.nextBlock (blockWrites e.op b ((upFrom 0 (blkRows e.op.d b).length).map fun r =>
          outRow e.op.d (dw e.op.words 21) (epiIn s.mem e.op b (Rd.start s.dev)).1 (tile s.dev i.val).acc r
            (blkCols e.op.d b).length)) := by
  have hkeep : ReadKeeps s.dev (epiIn s.mem e.op b (Rd.start s.dev)).2.dev := epiIn_keeps s.mem e.op b (Rd.start s.dev)
  have hclean := Rd.tileReads_clean hkeep hst harm
  have hgo := arrRuns_of_exec (hkeep.arr ▸ hexec) hfail
  have hfirst : (e.op.d.code == 4 && !b.second) = false := by simpa using hout
  show ∃ t, execTileBlockDone ⟨i, .clean⟩ s = .next t ∧ _
  simp only [execTileBlockDone, hexec, hblk, hfirst, Bool.false_eq_true, if_false, hclean, hgo]
  rw [if_neg (by simp [hfail, hstop, hwait, hkb]), if_neg (by simp)]
  refine ⟨_, rfl, ?_⟩
  simp only [tile_tileFlags, tile_congr (issueWrites_keeps ..).1, tile_blockFinished, true_and]
  exact ⟨rfl, rfl, _, Dev.tileFlags_exec (issueWrites_finished_exec ..) _ _, rfl, rfl, rfl⟩

/-- A finished block of a CHAIN's first product leaves its sums and no write (R107). -/
theorem tileBlockDone_first_runs (hkb : kBlocks e.op.d b ≤ (tile s.dev i.val).kdone) (hchain : e.op.d.code = 4)
    (hsecond : b.second = false) :
    Runs (.tileBlockDone ⟨i, .clean⟩) s fun t => (tile t.dev i.val).blk = none ∧ t.mem = s.mem ∧
      ∃ f, t.dev.arr.exec = some f ∧ f.unacked = e.unacked ∧
        f.s = keepSums e.s b (tile s.dev i.val).acc (blkRows e.op.d b).length (blkCols e.op.d b).length := by
  have hclean : (Rd.start s.dev).tileReads i.val .clean = s.dev := Rd.tileReads_clean (.refl _) rfl harm
  have hgo := arrRuns_of_exec hexec hfail
  have hfirst : (e.op.d.code == 4 && !b.second) = true := by simp [hchain, hsecond]
  show ∃ t, execTileBlockDone ⟨i, .clean⟩ s = .next t ∧ _
  simp only [execTileBlockDone, hexec, hblk, hfirst, if_true, hclean, hgo]
  rw [if_neg (by simp [hfail, hstop, hkb, Rd.start]), if_neg (by simp)]
  refine ⟨_, rfl, ?_, rfl, _, Dev.blockFinished_exec .., rfl, rfl⟩
  rw [tile_blockFinished]
  rfl

end Block

/-! ## A tile's own events -/

/-- A tile whose K-block waits too long raises its error and fails the operation, whose writes are still to be acknowledged (R89,
R122). -/
theorem operandTimeout_runs {i : Fin 512} {e : ArrExec} {s : State} (hexec : s.dev.arr.exec = some e) (hfail : e.failed = none)
    (hblk : (tile s.dev i.val).blk.isSome = true) (hstop : tileStopped s.dev i.val = false)
    (hon : s.dev.domainOn (0x400 + i.val) = true) :
    Runs (.operandTimeout i) s fun t => t.dev.err (0x400 + i.val) 3 = true ∧ t.mem = s.mem ∧
      ∃ f, t.dev.arr.exec = some f ∧ f.failed = some TIMEOUT ∧ f.passes = [] ∧ f.unacked = e.unacked := by
  have hraised : (s.dev.raise (0x400 + i.val) 3).arr.exec = some e := by rw [Dev.raise_arr, hexec]
  show ∃ t, execOperandTimeout i s = .next t ∧ _
  simp only [execOperandTimeout, doneDev, State.onDev]
  rw [if_pos ⟨hblk, by simp [hstop]⟩]
  refine ⟨_, rfl, ?_, rfl, _, Dev.arrFail_exec hraised hfail TIMEOUT, rfl, rfl, rfl⟩
  rw [Dev.err, Dev.rd, Dev.arrFail_regs]
  exact Dev.raise_err _ _ _ (by decide) hon

/-- A cleared tile is idle and empty, and no other tile changes (R88). -/
theorem tileClearDone_runs {i : Fin 512} {s : State} (hst : (tile s.dev i.val).st = .clearing) (hstop : tileStopped s.dev i.val = false) :
    Runs (.tileClearDone i) s fun t => (tile t.dev i.val).st = .idle ∧ (tile t.dev i.val).acc = [] ∧
      (∀ j, j ≠ i.val → tile t.dev j = tile s.dev j) ∧ t.mem = s.mem := by
  show ∃ t, execTileClearDone i s = .next t ∧ _
  simp only [execTileClearDone, doneDev, State.onDev]
  rw [if_pos ⟨hst, by simp [hstop]⟩]
  refine ⟨_, rfl, ?_⟩
  simp only [tile_setTile_same, true_and, and_true]
  exact ⟨rfl, fun _ hj => tile_setTile_ne _ _ hj⟩

/-- A clear that is late raises its error and leaves every tile as it is (R92). -/
theorem clearFault_runs {i : Fin 512} {s : State} (hst : (tile s.dev i.val).st = .clearing)
    (hon : s.dev.domainOn (0x400 + i.val) = true) :
    Runs (.clearFault i) s fun t => t.dev.err (0x400 + i.val) 5 = true ∧ t.dev.tiles = s.dev.tiles ∧ t.mem = s.mem := by
  show ∃ t, execClearFault i s = .next t ∧ _
  simp only [execClearFault, doneDev, State.onDev]
  rw [if_pos hst]
  exact ⟨_, rfl, Dev.raise_err _ _ _ (by decide) hon, Dev.raise_tiles .., rfl⟩

/-- The clock of a tile is stopped while its cluster's PLL is out of lock (R94). -/
theorem tileStopped_of_unlocked {d : Dev} {i : Nat} (h : i / 8 ∈ d.pwr.unlocked) : tileStopped d i = true := by
  simp [tileStopped, h]

/-- A PLL that loses lock shows it, raises its error and stops the clocks of its cluster's tiles (R94). -/
theorem pllUnlock_runs {c : Fin 64} {s : State} (hon : s.dev.domainOn (0x600 + c.val) = true) :
    Runs (.pllUnlock c) s fun t => t.dev.rd (rkey (0x600 + c.val) 0x080) = 0 ∧ t.dev.err (0x600 + c.val) 0 = true ∧
      (∀ j : Fin 8, tileStopped t.dev (c.val * 8 + j.val) = true) ∧ t.mem = s.mem := by
  refine ⟨_, rfl, ?_, Dev.raise_err _ _ _ (by decide) hon, fun j => tileStopped_of_unlocked ?_, rfl⟩
  · have hkey : eventKey (rkey (0x600 + c.val) 0x080) = false :=
      eventKey_rkey (by decide) (by decide) (by decide) (.inr (by omega))
    exact (Dev.raise_rd _ _ _ hkey).trans (Dev.rd_wr_same ..)
  · simp only [State.onDev, Dev.raise_pwr]
    rw [show (c.val * 8 + j.val) / 8 = c.val by omega]
    exact List.mem_cons_self

theorem pageOf_tile (i : Fin 512) : pageOf (0x400 + i.val) = some .til := by
  simp (disch := omega) only [pageOf, if_neg, if_pos]

/-- A write of a tile's TIL_CTRL stores PARK (R91). -/
theorem Dev.plainWrite_park (d : Dev) (master : Nat) (i : Fin 512) (value : Bool) :
    ((d.plainWrite master (rkey (0x400 + i.val) 0x010) (b2n value)).rd (rkey (0x400 + i.val) 0x010)).testBit 0 = value := by
  have hpage : rkey (0x400 + i.val) 0x010 / 0x1000 = 0x400 + i.val := by simp only [rkey]; omega
  have hoff : rkey (0x400 + i.val) 0x010 % 0x1000 = 0x010 := rkey_offset (by decide)
  simp only [Dev.plainWrite, hpage, hoff, pageOf_tile]
  simp only [Dev.rd_wr_same, show 0x010 < 0x080 by decide, if_true, mod_testBit (show 0 < 32 by decide), Dev.plainWrite.merge, ctrlMask]
  cases value <;> simp [b2n]

theorem Dev.plainWrite_tiles (d : Dev) (master key v : Nat) : (d.plainWrite master key v).tiles = d.tiles := by
  fun_cases Dev.plainWrite d master key v <;> simp

theorem Dev.plainWrite_out (d : Dev) (master key v : Nat) : (d.plainWrite master key v).out = d.out := by
  fun_cases Dev.plainWrite d master key v <;> simp

/-- Parking is written and answered, and no tile changes before the next operation starts (R91). -/
theorem park_runs {master : Byte} {i : Fin 512} {value : Bool} {s : State}
    (h : writeTaken s.dev master.toNat (mAddr (rkey (0x400 + i.val) 0x010)) 32 (b2n value)) :
    Runs (.park master i value) s fun t => (t.dev.rd (rkey (0x400 + i.val) 0x010)).testBit 0 = value ∧ t.dev.tiles = s.dev.tiles ∧
      written s t master.toNat (mAddr (rkey (0x400 + i.val) 0x010)) := by
  show ∃ t, execPark master i value s = .next t ∧ _
  simp only [execPark]
  rw [mgmtWrite_taken _ h (by simp [plainEffect])]
  refine ⟨_, rfl, ?_, ?_, ?_⟩
  · simp only [plainEffect, State.onDev]
    rw [Dev.complete_ok_rd _ _ _ _ _ (by simp only [rkey]; omega)]
    exact Dev.plainWrite_park ..
  · simp [plainEffect, State.onDev, Dev.complete, Dev.settleStatus, isRefusal, Dev.plainWrite_tiles]
  · simp only [plainEffect, State.onDev]
    rw [written, Dev.complete_ok_out, Dev.plainWrite_out]

/-- Settles O5, command by command. One read for a group of tiles, and the pieces and scale places of edge blocks, are the model's choices
(log entries 7, 35, 37 and 201). -/
theorem tilesRun : Obligations.TilesRun := by
  unfold Obligations.TilesRun
  refine ⟨?_, ?_, ?_, ?_, ?_, ?_, ?_, ?_⟩
  · rintro i e b l s ⟨hexec, hblk, hfail, hstop, hports, hkb, harm, hl, hwait, hst⟩
    exact kblockDone_runs hexec hblk hfail hstop harm hports hkb hl hwait hst
  · rintro i e b s ⟨hexec, hblk, hfail, hstop, hkb, hout, harm, hwait, hst⟩
    exact tileBlockDone_runs hexec hblk hfail hstop harm hkb hout hwait hst
  · rintro i e b s ⟨hexec, hblk, hfail, hstop, hkb, harm, hchain, hsecond⟩
    exact tileBlockDone_first_runs hexec hblk hfail hstop harm hkb hchain hsecond
  · rintro i e s ⟨hexec, hfail, hblk, hstop, hon⟩
    exact operandTimeout_runs hexec hfail hblk hstop hon
  · rintro i s ⟨hst, hstop⟩
    exact tileClearDone_runs hst hstop
  · rintro i s ⟨hst, hon⟩
    exact clearFault_runs hst hon
  · exact fun c s hon => pllUnlock_runs hon
  · exact fun master i value s h => park_runs h

end Sys2Proof.Machine
end

section
/-! PROOFS. The statement of 04_array_operations about the sequencer: what the end of a pass does where the pass is a row operation. -/

namespace Sys2Proof.Machine

/-- A CHAIN of one row and one column whose row operation, a layer scale by the word at 0x400000000, has waited for that word's memory
and now stands as the current pass (R107, R133). -/
def layerScaleWaited : ArrExec :=
  ⟨⟨[0x41100000, 1, 1, 1, 0, 0, 0, 0, 0, 0, 0, 0, 0, 0, 0, 0, 0, 0, 0, 0, 0, 0, 0, 4, 0, 0, 0, 0x20000001], 0, 0, 0, false⟩,
    [64], [], some ⟨.rowop, [(64, ⟨0, 0, 0, false⟩)], 0, 1⟩, [], [], 0, some 0, none, false, [], [], 0, 0, 0, 0, 0, [], [], [], none⟩

/-- A module with its wing ports ACTIVE and the array SYSTEM's, in which that CHAIN executes. -/
def layerScaleState : State := State.reset.onDev fun d =>
  { ((d.wr Reg.HALL_WING_STATE 0x5555).wr Reg.ARR_TENANT 0x200) with
    powered := ⟨true, true, 255, 65535⟩
    arr := { d.arr with exec := some layerScaleWaited } }

/-- The row operation is done and counts as no pass (R111). -/
theorem layerScale_passes {t : State} (h : exec .passDone layerScaleState = .next t) : t.dev.rd Reg.ARR_PASSES = 0 := by
  obtain ⟨⟩ := h
  decide

/-- Refutes O6 in its clause about PASS_DONE: the clause has ARR_PASSES one main pass higher after every pass that is no fill, but where
the current pass is a row operation that waited for its memory, the command tries it again, and it counts as no pass. -/
theorem not_arrayRuns : ¬ Obligations.ArrayRuns := by
  unfold Obligations.ArrayRuns
  rintro ⟨-, -, hpass, -⟩
  obtain ⟨t, ht, hpasses, -⟩ := hpass layerScaleWaited _ layerScaleState ⟨rfl, rfl, rfl⟩
  rw [layerScale_passes ht] at hpasses
  exact absurd hpasses (by decide)

end Sys2Proof.Machine
end

section
/-! PROOFS. What a participation that goes on leaves as it is: the collective engine, the array, its entry and its descriptor. -/

namespace Sys2Proof.Machine

/-- What a participation that goes on leaves of the device and of itself: the engine and the array are as before, and it keeps its entry
and its descriptor. -/
structure AdvKeeps (a b : Adv) : Prop where
  col : b.d.col = a.d.col
  arr : b.d.arr = a.d.arr
  entry : b.x.entry = a.x.entry
  job : b.x.job = a.x.job

theorem Dev.panRead_keeps (d : Dev) : d.panRead.2.col = d.col ∧ d.panRead.2.arr = d.arr := by
  unfold Dev.panRead
  split <;> simp [Dev.disarm]

theorem Dev.panReads_keeps (d : Dev) (n : Nat) : (d.panReads n).2.col = d.col ∧ (d.panReads n).2.arr = d.arr := by
  unfold Dev.panReads
  dsimp only
  split <;> simp [Dev.panRead_keeps]

namespace AdvKeeps

theorem refl (a : Adv) : AdvKeeps a a := ⟨rfl, rfl, rfl, rfl⟩

theorem trans {a b c : Adv} (h : AdvKeeps a b) (k : AdvKeeps b c) : AdvKeeps a c :=
  ⟨k.col.trans h.col, k.arr.trans h.arr, k.entry.trans h.entry, k.job.trans h.job⟩

variable {a b : Adv}

/-- A step that changes none of the four. -/
theorem of_eq (h : AdvKeeps a b) {c : Adv} (hcol : c.d.col = b.d.col) (harr : c.d.arr = b.d.arr) (hentry : c.x.entry = b.x.entry)
    (hjob : c.x.job = b.x.job) : AdvKeeps a c := h.trans ⟨hcol, harr, hentry, hjob⟩

/-- A change that is made or not. -/
theorem ite {p : Prop} [Decidable p] {c : Adv} (h : AdvKeeps a b) (k : AdvKeeps a c) : AdvKeeps a (if p then b else c) := by
  split
  · exact h
  · exact k

/-! ## Sending and reading -/

theorem setChunk (h : AdvKeeps a b) (q : Nat) (c : ColChunk) : AdvKeeps a (b.setChunk q c) := h.of_eq rfl rfl rfl rfl

theorem send (h : AdvKeeps a b) (g : Grp) (ptype member window offset chan : Nat) (bytes : List Byte) :
    AdvKeeps a (b.send g ptype member window offset chan bytes) := h.of_eq rfl rfl rfl rfl

theorem control (h : AdvKeeps a b) (g : Grp) (member kind cno lo hi flags arg arg2 : Nat) (rest : List Byte) :
    AdvKeeps a (b.control g member kind cno lo hi flags arg arg2 rest) := h.send ..

theorem credit (h : AdvKeeps a b) (g : Grp) (member c l : Nat) : AdvKeeps a (b.credit g member c l) := h.control ..

theorem packets (h : AdvKeeps a b) (g : Grp) (ptype member kind c lo hi window base fl crc size np : Nat) (data : List Byte)
    (m k : Nat) : AdvKeeps a (b.packets g ptype member kind c lo hi window base fl crc size np data m k) := by
  induction m generalizing b k with
  | zero => exact h
  | succ m ih => exact ih (h.send ..) _

theorem pan (h : AdvKeeps a b) (g : Grp) (n : Nat) : AdvKeeps a (b.pan g n) :=
  h.of_eq (b.d.panReads_keeps n).1 (b.d.panReads_keeps n).2 rfl rfl

theorem chunk (h : AdvKeeps a b) (g : Grp) (result : Bool) (member c lo hi base : Nat) (data : List Byte) :
    AdvKeeps a (b.chunk g result member c lo hi base data) := (h.pan ..).packets ..

/-! ## Chunks -/

theorem grants (h : AdvKeeps a b) (g : Grp) (q r : Nat) (ls : List Nat) : AdvKeeps a (b.grants g q r ls) := by
  induction ls generalizing b with
  | nil => exact h
  | cons l ls ih =>
    unfold Adv.grants
    exact (ih h).ite ((ih ((h.setChunk ..).credit ..)).ite h)

theorem combine (h : AdvKeeps a b) (g : Grp) (q : Nat) (ls : List Nat) : AdvKeeps a (b.combine g q ls) := by
  induction ls generalizing b with
  | nil => exact h
  | cons l ls ih =>
    unfold Adv.combine
    dsimp only
    split
    · exact ih ((h.pan ..).of_eq rfl rfl rfl rfl)
    · exact h

theorem spread (h : AdvKeeps a b) (g : Grp) (q r : Nat) (data : List Byte) (ls : List Nat) : AdvKeeps a (b.spread g q r data ls) := by
  induction ls generalizing b with
  | nil => exact h
  | cons l ls ih =>
    unfold Adv.spread
    exact (ih ((h.setChunk ..).chunk ..)).ite ((ih h).ite h)

theorem close (h : AdvKeeps a b) (g : Grp) (q : Nat) : AdvKeeps a (b.close g q) := by
  unfold Adv.close
  exact (h.setChunk ..).ite (h.setChunk ..)

theorem lending (h : AdvKeeps a b) (g : Grp) (q : Nat) : AdvKeeps a (b.lending g q) := by
  unfold Adv.lending
  extract_lets r no p _ b1 c1 b2 c2
  have h1 : AdvKeeps a b1 := (h.setChunk ..).ite h
  have h2 : AdvKeeps a b2 := ((h1.setChunk ..).control ..).ite h1
  split
  · exact h
  · split
    · exact (h2.chunk ..).setChunk ..
    · exact h2

theorem upward (h : AdvKeeps a b) (g : Grp) (q : Nat) : AdvKeeps a (b.upward g q) := by
  unfold Adv.upward
  extract_lets r p ks b1 b2 c no
  have h1 : AdvKeeps a b1 := h.grants ..
  have h2 : AdvKeeps a b2 := (h1.combine ..).ite h1
  split
  · exact h2
  · refine h2.ite (ite (h2.of_eq rfl rfl rfl rfl) (ite ?_ h2))
    exact (((h2.chunk ..).setChunk ..).credit ..).ite ((h2.chunk ..).close ..)

theorem downward (h : AdvKeeps a b) (g : Grp) (q : Nat) : AdvKeeps a (b.downward g q) := by
  unfold Adv.downward
  dsimp only
  split
  · have hs := fun r data ks => ((h.setChunk q { b.x.chunk q with wrote := 1 }).ite (p := (b.x.chunk q).wrote = 0) h).spread g q r data ks
    exact ((hs ..).close ..).ite (hs ..)
  · exact h

theorem piece (h : AdvKeeps a b) (g : Grp) (q : Nat) : AdvKeeps a (b.piece g q) := by
  unfold Adv.piece
  extract_lets c t no
  split
  · exact (((h.setChunk ..).credit ..).ite h).downward ..
  · split
    · exact h
    · exact ((h.setChunk ..).downward ..).ite (((h.chunk ..).setChunk ..).ite h)

theorem step (h : AdvKeeps a b) (g : Grp) (q : Nat) : AdvKeeps a (b.step g q) := by
  unfold Adv.step
  extract_lets c b1 b2 c2 b3 c3 r p b4
  have h2 : AdvKeeps a b2 := ((h.setChunk ..).ite h).lending ..
  have h3 : AdvKeeps a b3 := (h2.upward ..).ite h2
  have h4 : AdvKeeps a b4 := h3.ite (((h3.setChunk ..).ite h3).ite (((h3.setChunk ..).credit ..).ite h3))
  exact h2.ite ((h2.piece ..).ite (h4.downward ..))

theorem pass (h : AdvKeeps a b) (g : Grp) (qs : List Nat) : AdvKeeps a (b.pass g qs) := by
  induction qs generalizing b with
  | nil => exact h
  | cons q qs ih =>
    unfold Adv.pass
    exact h.ite ((ih h).ite ((ih (h.step ..)).ite (h.step ..)))

theorem passes (h : AdvKeeps a b) (g : Grp) (n : Nat) : AdvKeeps a (b.passes g n) := by
  induction n generalizing b with
  | zero => exact h
  | succ n ih => exact (h.pass ..).ite (ih (h.pass ..))

/-! ## Opening, verdict and abort -/

theorem verdicts (h : AdvKeeps a b) (g : Grp) (st cause : Nat) (ls : List Nat) : AdvKeeps a (b.verdicts g st cause ls) := by
  induction ls generalizing b with
  | nil => exact h
  | cons l ls ih => exact ih (h.control ..)

theorem verdict (h : AdvKeeps a b) (g : Grp) (st cause : Nat) : AdvKeeps a (b.verdict g st cause) := by
  unfold Adv.verdict
  extract_lets c _ b1
  have h1 : AdvKeeps a b1 := h.ite ((h.verdicts ..).of_eq rfl rfl rfl rfl)
  split <;> exact h1.of_eq rfl rfl rfl rfl

theorem opens (h : AdvKeeps a b) (g : Grp) : AdvKeeps a (b.open g) := by
  unfold Adv.open
  extract_lets p _ b1 b2
  have h1 : AdvKeeps a b1 := h.of_eq rfl rfl rfl rfl
  refine h.ite (ite ?_ ((h.control ..).of_eq rfl rfl rfl rfl))
  split <;> exact h1.verdict ..

theorem run (h : AdvKeeps a b) (g : Grp) : AdvKeeps a (b.run g) := (h.opens g).ite ((h.opens g).passes ..)

theorem aborts (h : AdvKeeps a b) (g : Grp) (st cause : Nat) (ms : List Nat) : AdvKeeps a (b.aborts g st cause ms) := by
  induction ms generalizing b with
  | nil => exact h
  | cons m ms ih => exact ih (h.control ..)

end AdvKeeps

end Sys2Proof.Machine
end

section
/-! PROOFS. What ends of descriptors and of participations change: their own words of memory, their own participation, its
entry and the registers that show an abort. -/

namespace Sys2Proof.Machine

/-! ## Memory and doorbells -/

theorem Dev.gdRefuse_keeps (d : Dev) (u : MemUser) (addr len st : Nat) :
    (d.gdRefuse u addr len st).col = d.col ∧ (d.gdRefuse u addr len st).arr = d.arr := by
  unfold Dev.gdRefuse
  dsimp only
  repeat' split
  all_goals simp

theorem Dev.lineUE_keeps (d : Dev) (addr : Nat) : (d.lineUE addr).col = d.col ∧ (d.lineUE addr).arr = d.arr := by simp [Dev.lineUE]

theorem Dev.lineCE_keeps (d : Dev) (addr ch pin : Nat) : (d.lineCE addr ch pin).col = d.col ∧ (d.lineCE addr ch pin).arr = d.arr := by
  unfold Dev.lineCE Dev.pinCorrected
  dsimp only
  split <;> simp

/-- A clean read of a line. -/
theorem Dev.readLine_keeps (d : Dev) (addr : Nat) :
    (d.readLine addr .clean).2.col = d.col ∧ (d.readLine addr .clean).2.arr = d.arr := by
  unfold Dev.readLine
  extract_lets b line inj d1
  have h : d1.col = d.col ∧ d1.arr = d.arr := by
    unfold d1
    cases inj <;> exact ⟨rfl, rfl⟩
  rw [← h.1, ← h.2]
  clear_value d1
  split
  · exact d1.lineUE_keeps addr
  · split
    · exact d1.lineUE_keeps addr
    · dsimp only
      split
      · exact d1.used.lineCE_keeps ..
      · exact ⟨rfl, rfl⟩

theorem Dev.mergeRead_keeps (d : Dev) (l : Option Nat) : (d.mergeRead l).2.col = d.col ∧ (d.mergeRead l).2.arr = d.arr := by
  cases l with
  | none => exact ⟨rfl, rfl⟩
  | some l => exact d.readLine_keeps _

theorem Dev.writeLines_keeps (d : Dev) (addr len : Nat) :
    (d.writeLines addr len).2.2.col = d.col ∧ (d.writeLines addr len).2.2.arr = d.arr := by
  unfold Dev.writeLines
  dsimp only
  repeat' split
  all_goals simp [Dev.mergeRead_keeps, Dev.wroteLines]

/-- A write of GDDR7 leaves the collective engine and the array as they are. -/
theorem gdWrite_keeps (s : State) (u : MemUser) (addr : Nat) (bytes : List Byte) :
    (gdWrite s u addr bytes).2.dev.col = s.dev.col ∧ (gdWrite s u addr bytes).2.dev.arr = s.dev.arr := by
  unfold gdWrite gdWriteNow Dev.gdUnanswered
  dsimp only
  repeat' split
  all_goals simp [Dev.gdRefuse_keeps, Dev.writeLines_keeps]

/-- A write of GDDR7 changes no byte outside its range. -/
theorem gdWrite_byte (s : State) (u : MemUser) {addr k : Nat} {bytes : List Byte} (h : k < addr ∨ addr + bytes.length ≤ k) :
    (gdWrite s u addr bytes).2.mem.byte k = s.mem.byte k := by
  unfold gdWrite gdWriteNow
  dsimp only
  repeat' split
  case isFalse.isFalse.isFalse =>
    refine gdStore_out _ _ _ _ ?_
    have := List.length_take_le' (s.dev.writeLines addr bytes.length).2.1 bytes
    omega
  all_goals rfl

theorem Dev.notify_keeps (d : Dev) (key : Nat) : (d.notify key).col = d.col ∧ (d.notify key).arr = d.arr := by
  unfold Dev.notify Dev.ring Dev.mbxInterrupt
  dsimp only
  repeat' split
  all_goals simp

theorem State.havoc_keeps (s : State) (a n : Nat) : (s.havoc a n).dev.col = s.dev.col ∧ (s.havoc a n).dev.arr = s.dev.arr := by
  unfold State.havoc
  split <;> exact ⟨rfl, rfl⟩

/-! ## The end of a descriptor -/

theorem colEndWrite_keeps (s : State) (x : ColEnd) : (colEndWrite s x).dev.col = s.dev.col ∧ (colEndWrite s x).dev.arr = s.dev.arr := by
  unfold colEndWrite
  dsimp only [State.onDev_dev]
  repeat' split
  all_goals simp [Dev.notify_keeps, gdWrite_keeps]

/-- Ends of descriptors may wait; the participations and the array are as before. -/
theorem colEndsWrite_keeps (xs : List ColEnd) (s : State) :
    (colEndsWrite xs s).dev.col.parts = s.dev.col.parts ∧ (colEndsWrite xs s).dev.arr = s.dev.arr := by
  induction xs generalizing s with
  | nil => exact ⟨rfl, rfl⟩
  | cons x xs ih =>
    unfold colEndsWrite
    refine ⟨(ih _).1.trans ?_, (ih _).2.trans ?_⟩ <;> split <;> simp [colEndWrite_keeps]

/-- The end of a descriptor stores to its words 14 and 15 alone (R263). -/
theorem colEndDesc_byte (s : State) {j : ColJob} (st detail : Nat) (cause : Option Nat) (sat nan : Bool) {k : Nat}
    (h : k < j.addr + 56 ∨ j.addr + 64 ≤ k) : (colEndDesc s j st detail cause sat nan).mem.byte k = s.mem.byte k := by
  simp only [colEndDesc, colEndsWrite]
  split
  · rfl
  · exact gdWrite_byte _ _ (by simp only [List.length_append, leBytes_length]; omega)

/-! ## The end of a participation -/

theorem ColPart.undefined_keeps (x : ColPart) (s : State) :
    (x.undefined s).dev.col = s.dev.col ∧ (x.undefined s).dev.arr = s.dev.arr := by
  unfold ColPart.undefined
  dsimp only
  split
  · exact s.havoc_keeps ..
  · exact ⟨rfl, rfl⟩

theorem Dev.acknowledged_keeps (d : Dev) (ch n : Nat) : (d.acknowledged ch n).col = d.col ∧ (d.acknowledged ch n).arr = d.arr := ⟨rfl, rfl⟩

/-- A participation that ends leaves the others and the array as they are. -/
theorem colFinish_keeps (s : State) (x : ColPart) (st : Nat) (cause : Option Nat) :
    (colFinish s x st cause).dev.col.parts = s.dev.col.parts.filter (fun y => y.entry != x.entry) ∧
      (colFinish s x st cause).dev.arr = s.dev.arr := by
  unfold colFinish
  extract_lets k calm s1 s2
  have h1 : s1.dev.col = s.dev.col ∧ s1.dev.arr = s.dev.arr := by
    unfold s1
    split
    · exact ⟨rfl, rfl⟩
    · exact x.undefined_keeps s
  have h2 : s2.dev.col.parts = s1.dev.col.parts ∧ s2.dev.arr = s1.dev.arr := colEndsWrite_keeps _ _
  rw [← h1.1, ← h1.2, ← h2.1, ← h2.2]
  dsimp only [State.onDev_dev]
  repeat' split
  all_goals simp [Dev.acknowledged_keeps, Dev.setOpt]

/-- The entry of a participation that has ended is free. -/
theorem colFinish_optEntry (s : State) (x : ColPart) (st : Nat) (cause : Option Nat) :
    optEntry (colFinish s x st cause).dev x.entry = OptEntry.free := by
  unfold colFinish
  dsimp only [State.onDev_dev]
  repeat' split
  all_goals simp [optEntry, Dev.setOpt, SMap.get_put_same]

/-- COL_LAST_ABORT shows the status and the group of a participation that ended with an abort (R282). -/
theorem colFinish_lastAbort (s : State) (x : ColPart) {st : Nat} (cause : Option Nat) (hok : st ≠ OK) (hmis : st ≠ MISMATCH)
    (hst : st < 256) : (colFinish s x st cause).dev.rd Reg.COL_LAST_ABORT = st * 2 ^ 24 + x.job.group * 2 ^ 12 := by
  have hgroup : x.job.group < 2 ^ 12 := Nat.mod_lt _ (by decide)
  simp only [colFinish, State.onDev_dev, if_neg hok, if_neg hmis]
  rw [Dev.raise_rd _ _ _ (by decide), Dev.rd_wr_ne _ _ (by decide), Dev.rd_wr_same]
  omega

/-- An abort tells its neighbours and ends the participation: nothing else of the engine or of the array changes before the end (R282). -/
theorem colAbort_finishes (s : State) (x : ColPart) (st cause : Nat) (from_ : Option Nat) :
    ∃ s' x', colAbort s x st cause from_ = colFinish s' x' st (some cause) ∧ s'.dev.col = s.dev.col ∧ s'.dev.arr = s.dev.arr ∧
      x'.entry = x.entry ∧ x'.job = x.job := by
  unfold colAbort
  extract_lets g mine _ _ d a
  obtain ⟨hcol, harr, hentry, hjob⟩ : AdvKeeps ⟨d, x, none⟩ a := (AdvKeeps.refl _).ite ((AdvKeeps.refl _).aborts ..)
  exact ⟨_, _, rfl, hcol, harr, hentry, hjob⟩

/-- An aborted participation is gone, its entry is free, and COL_LAST_ABORT shows its status and its group. -/
theorem colAbort_ends (s : State) (x : ColPart) {st : Nat} (cause : Nat) (from_ : Option Nat) (hok : st ≠ OK) (hmis : st ≠ MISMATCH)
    (hst : st < 256) :
    (colAbort s x st cause from_).dev.col.parts = s.dev.col.parts.filter (fun y => y.entry != x.entry) ∧
      optEntry (colAbort s x st cause from_).dev x.entry = OptEntry.free ∧
      (colAbort s x st cause from_).dev.rd Reg.COL_LAST_ABORT = st * 2 ^ 24 + x.job.group * 2 ^ 12 := by
  obtain ⟨s', x', heq, hcol, -, hentry, hjob⟩ := colAbort_finishes s x st cause from_
  rw [heq, ← hcol, ← hentry, ← hjob]
  exact ⟨(colFinish_keeps ..).1, colFinish_optEntry .., colFinish_lastAbort _ _ _ hok hmis hst⟩

theorem colAbort_arr (s : State) (x : ColPart) (st cause : Nat) (from_ : Option Nat) :
    (colAbort s x st cause from_).dev.arr = s.dev.arr := by
  obtain ⟨s', x', heq, -, harr, -⟩ := colAbort_finishes s x st cause from_
  rw [heq, (colFinish_keeps ..).2, harr]

/-! ## Participations of other entries -/

/-- Lists of participations that hold the same ones but for an entry. -/
def sameBut (entry : Nat) (xs ys : List ColPart) : Prop := ∀ y : ColPart, y.entry ≠ entry → (y ∈ ys ↔ y ∈ xs)

theorem othersKept_iff {s t : State} {entry : Nat} : othersKept s t entry ↔ sameBut entry s.dev.col.parts t.dev.col.parts := .rfl

theorem sameBut_refl (entry : Nat) (xs : List ColPart) : sameBut entry xs xs := fun _ _ => .rfl

theorem sameBut_trans {entry : Nat} {xs ys zs : List ColPart} (h : sameBut entry xs ys) (k : sameBut entry ys zs) :
    sameBut entry xs zs := fun y hy => (k y hy).trans (h y hy)

theorem sameBut_filter (entry : Nat) (xs : List ColPart) : sameBut entry xs (xs.filter (fun y => y.entry != entry)) :=
  fun y hy => by simp [hy]

/-- A participation put in the place of its entry's changes no other. -/
theorem sameBut_setPart (d : Dev) (x : ColPart) : sameBut x.entry d.col.parts (d.setPart x).col.parts := fun y hy => by
  simp only [Dev.setPart, List.mem_map]
  constructor
  · rintro ⟨z, hz, rfl⟩
    split at hy
    · exact absurd rfl hy
    · next h => rwa [if_neg h]
  · exact fun h => ⟨y, h, if_neg hy⟩

theorem partAt_entry {d : Dev} {i : Nat} {x : ColPart} (h : partAt d i = some x) : x.entry = i := by
  simpa using List.find?_some h

/-- A participation that ends changes no other. -/
theorem colFinish_othersKept (s : State) (x : ColPart) (st : Nat) (cause : Option Nat) : othersKept s (colFinish s x st cause) x.entry := by
  rw [othersKept_iff, (colFinish_keeps ..).1]
  exact sameBut_filter _ _

theorem colAbort_othersKept (s : State) (x : ColPart) (st cause : Nat) (from_ : Option Nat) :
    othersKept s (colAbort s x st cause from_) x.entry := by
  obtain ⟨s', x', heq, hcol, -, hentry, -⟩ := colAbort_finishes s x st cause from_
  rw [heq, ← hentry, othersKept_iff, ← hcol]
  exact colFinish_othersKept _ _ _ _

/-- Whatever a participation does, no other one changes. -/
theorem colRun_othersKept (s : State) (i : Nat) : othersKept s (colRun s i) i := by
  unfold colRun
  split
  · exact sameBut_refl _ _
  next x hx =>
  split
  · exact sameBut_refl _ _
  extract_lets g a d1 e d2 s1
  have hrun : AdvKeeps ⟨s.dev, x, none⟩ a := (AdvKeeps.refl _).run _
  have hentry : a.x.entry = i := hrun.entry.trans (partAt_entry hx)
  have hcol : a.d.col = s.dev.col := hrun.col
  have hset : othersKept s s1 i := by
    rw [othersKept_iff, ← hentry, ← hcol]
    exact sameBut_setPart a.d a.x
  clear_value s1 a
  subst hentry
  split
  · exact sameBut_trans hset (colAbort_othersKept _ _ _ _ _)
  · exact sameBut_trans hset (colFinish_othersKept _ _ _ _)
  · split
    · exact sameBut_trans hset (colFinish_othersKept _ _ _ _)
    · exact hset

/-- A participation that takes something and then does all it can changes no other. -/
theorem colRun_setPart_othersKept {s s' : State} {x : ColPart} {i : Nat} (hentry : x.entry = i)
    (hparts : s'.dev.col.parts = (s.dev.setPart x).col.parts) : othersKept s (colRun s' i) i := by
  refine sameBut_trans ?_ (colRun_othersKept s' i)
  rw [hparts, ← hentry]
  exact sameBut_setPart s.dev x

end Sys2Proof.Machine
end

section
/-! PROOFS. Reads and writes of GDDR7 that meet no error change nothing but the bytes stored. -/

namespace Sys2Proof.Machine

/-- The wing of a byte's line is the byte's. -/
theorem line_wing (a : Nat) : a / 64 * 64 / 2 ^ 34 = a / 2 ^ 34 := by omega

/-- A line of a wing with no armed check reads clean where no line is known to be bad. -/
theorem Dev.readLine_sound {d : Dev} {addr : Nat} (hbad : d.gddr.bad = []) (harmed : d.armedFirst (0x090 + addr / 2 ^ 34) [0, 1] = none) :
    d.readLine addr .clean = (true, d) := by
  unfold Dev.readLine
  dsimp only
  rw [harmed]
  simp [hbad]

section Sound

variable {d : Dev} {u : MemUser} {a n : Nat} (h : gdSound d u a n)
include h

theorem gdWaits_sound : gdWaits d u a n = false := by
  obtain ⟨hheld, -⟩ := h
  rw [gdWaits, hheld, Bool.false_and]

theorem gdRead_sound : gdRead d u a n = (OK, d) := by
  obtain ⟨hheld, hcheck, hbad, harmed⟩ := h
  have hlines : suspectLines d a n = [] := by
    unfold suspectLines
    rw [harmed]
    simp [hbad]
  rw [gdRead_now hheld, gdReadNow, hlines]
  simp [hcheck, Dev.readLines]

/-- A byte of the range lies in the wing of its first. -/
theorem sound_wing {i : Nat} (hi : i < n) : (a + i) / 2 ^ 34 = a / 2 ^ 34 := by
  obtain ⟨-, hcheck, -⟩ := h
  have hwing := (gdCheck_wing hcheck).resolve_right (by omega)
  have hsize : gdSize < 2 ^ 34 := by decide
  simp only [gdWing, Option.isSome_ite] at hwing
  omega

/-- The lines of a partial write read clean (R144). -/
theorem Dev.mergeRead_sound {i : Nat} (hi : i < n) (p : Prop) [Decidable p] :
    d.mergeRead (if p then some ((a + i) / 64) else none) = (true, d) := by
  have hwing := sound_wing h hi
  obtain ⟨-, -, hbad, harmed⟩ := h
  split
  · exact Dev.readLine_sound hbad (by rw [line_wing, hwing, harmed])
  · rfl

theorem Dev.writeLines_sound (hn : 0 < n) : d.writeLines a n = (OK, n, d) := by
  have hfirst := Dev.mergeRead_sound h hn
  have hlast := Dev.mergeRead_sound h (i := n - 1) (by omega)
  obtain ⟨-, -, hbad, -⟩ := h
  have hwrote : ∀ lo hi, d.wroteLines lo hi = d := fun lo hi => by
    unfold Dev.wroteLines
    rw [hbad, List.filter_nil, ← hbad]
  rw [Nat.add_zero] at hfirst
  rw [← Nat.add_sub_assoc hn] at hlast
  simp [Dev.writeLines, partialLines, hfirst, hlast, hwrote]

end Sound

theorem gdWrite_sound {s : State} {u : MemUser} {a : Nat} {bs : List Byte} (h : gdSound s.dev u a bs.length) (hbs : bs ≠ []) :
    gdWrite s u a bs = (OK, { s with mem := s.mem.store a bs }) := by
  have hlines := Dev.writeLines_sound h (List.length_pos_iff.2 hbs)
  obtain ⟨hheld, hcheck, -⟩ := h
  rw [gdWrite_now hheld, gdWriteNow, if_neg (Decidable.not_not.2 hcheck), if_neg hbs, hlines]
  simp

end Sys2Proof.Machine
end

section
/-! PROOFS. The statement of 04_array_operations about collectives: what memory, the array and the timers do to a participation. -/

namespace Sys2Proof.Machine

/-! ## What the events give a participation -/

/-- GROUP and KIND stand in the first two bytes of a sub-header (R272). -/
theorem subHeader_kind (group kind cseq cno lo hi off16 flags pkts crc arg arg2 : Nat) (rest : List Byte) (hg : group < 2 ^ 12)
    (hk : kind < 16) : field (subHeader group kind cseq cno lo hi off16 flags pkts crc arg arg2 ++ rest) 0 2 = group + kind * 2 ^ 12 := by
  rw [field, subHeader]
  simp only [List.append_assoc]
  rw [slice_head _ (leBytes_length ..), ofLE_leBytes]
  omega

/-- The OPEN that a member offers: to its control parent, of its group (R278). -/
theorem Adv.sendOpen_offers (a : Adv) (g : Grp) :
    ∃ p : Packet, (a.sendOpen g).d.rtr.offers = a.d.rtr.offers ++ [p] ∧ p.ptype = ptContrib ∧ colKindOf p = 1 ∧
      colGroupOf p = a.x.job.group ∧ p.dest = memberMa a.d g (a.x.ctlMember g (treeParent (a.x.ctl g))) := by
  have hg : a.x.job.group < 2 ^ 12 := Nat.mod_lt _ (by decide)
  refine ⟨_, rfl, rfl, ?_, ?_, rfl⟩
  · rw [colKindOf, show field _ 0 2 = _ from subHeader_kind _ 1 _ _ _ _ _ _ _ _ _ _ _ hg (by decide), bits, Nat.shiftRight_eq_div_pow]
    omega
  · rw [colGroupOf, show field _ 0 2 = _ from subHeader_kind _ 1 _ _ _ _ _ _ _ _ _ _ _ hg (by decide), bits, Nat.shiftRight_zero]
    omega

theorem colOpenResend_runs {i : BitVec 12} {x : ColPart} {s : State} (hx : partAt s.dev i.toNat = some x) (hopened : x.opened = true)
    (hanswered : x.answered = false) (hroot : x.ctl (grp s.dev x.job.group) ≠ 0) :
    Runs (.colOpenResend i) s fun t => t.mem = s.mem ∧ ∃ p : Packet, t.dev.rtr.offers = s.dev.rtr.offers ++ [p] ∧
      p.ptype = ptContrib ∧ colKindOf p = 1 ∧ colGroupOf p = x.job.group ∧
      p.dest = memberMa s.dev (grp s.dev x.job.group)
        (x.ctlMember (grp s.dev x.job.group) (treeParent (x.ctl (grp s.dev x.job.group)))) := by
  refine ⟨_, rfl, rfl, ?_⟩
  simp only [State.onDev_dev, hx, hopened, hanswered, hroot, ne_eq, not_false_eq_true, Bool.false_eq_true, and_self, if_true]
  exact Adv.sendOpen_offers ⟨s.dev, x, none⟩ _

theorem ColPart.assemble_entry (x : ColPart) (g : Grp) (qs : List Nat) : (x.assemble g qs).entry = x.entry := by
  induction qs generalizing x with
  | nil => rfl
  | cons q qs ih =>
    rw [ColPart.assemble, ih]
    split
    · split <;> rfl
    · rfl

/-- The lowest chunk that awaits its input takes it from memory (R254). That chunks come in the order of their number and then of their
tree is the model's choice (log entry 57). -/
theorem colInputReadDone_runs {i : BitVec 12} {x : ColPart} {q a n : Nat} {s : State} (hx : partAt s.dev i.toNat = some x)
    (hmem : x.job.array = false) (hbytes : (x.job.coll ≠ 2 ∧ x.job.coll ≠ 6) ∨ x.job.count * colBits x.job.ty % 8 = 0)
    (hq : x.lowest (x.awaitsInput (grp s.dev x.job.group)) = some q) (ha : a = x.inputAt (grp s.dev x.job.group) q)
    (hn : n = x.job.chunkLen (x.cno (grp s.dev x.job.group) q)) (hsound : gdSound s.dev (colUser s.dev) a n) :
    Runs (.colInputReadDone i) s fun t =>
      t = colRun (s.onDev fun d => d.setPart (x.putInput (grp s.dev x.job.group) q (s.mem.bytes a n))) i.toNat ∧
        othersKept s t i.toNat := by
  have hinput : inputBytes s x (x.tree (grp s.dev x.job.group) q) (x.cno (grp s.dev x.job.group) q) = (OK, s.mem.bytes a n, s.dev) := by
    have hsegd : ¬ ((x.job.coll = 2 ∨ x.job.coll = 6) ∧ x.job.count * colBits x.job.ty % 8 ≠ 0) := by
      rintro ⟨hcoll, hbits⟩
      obtain ⟨hscatter, hall⟩ := hbytes.resolve_right hbits
      exact hcoll.elim hscatter hall
    have hread := gdRead_sound hsound
    subst ha hn
    unfold inputBytes
    dsimp only
    rw [if_neg hsegd]
    exact congrArg (fun r => (r.1, s.mem.bytes _ _, r.2)) hread
  have hwaits := gdWaits_sound hsound
  subst ha hn
  refine ⟨_, ?_, rfl, colRun_setPart_othersKept (x := x.putInput ..) (partAt_entry (x := x) hx) rfl⟩
  show execColInputReadDone i s = _
  simp only [execColInputReadDone, hx, hmem, Bool.false_eq_true, if_false, hq, hwaits, hinput, ne_eq, not_true]
  rfl

/-- A chunk of the result is stored through its window and acknowledged (R263). That chunks come in the order of their number and then
of their tree is the model's choice (log entry 57). -/
theorem colResultWriteAck_runs {i : BitVec 12} {x : ColPart} {q off : Nat} {data : List Byte} {s : State}
    (hx : partAt s.dev i.toNat = some x) (hq : x.lowest (fun _ c => c.wrote == 1) = some q) (hdata : (x.chunk q).data = some data)
    (hne : data ≠ []) (hoff : off = x.job.resOff (x.tree (grp s.dev x.job.group) q) (x.cno (grp s.dev x.job.group) q))
    (harmed : s.dev.armedFirst 0x031 [0, 1] = none)
    (hwin : windowCheck s.dev x.job.rwin (colUser s.dev).tenant (colUser s.dev).system 117 off data.length = OK)
    (hsound : gdSound s.dev (windowUser s.dev 9 x.job.rwin) (windowAddr s.dev x.job.rwin off) data.length) :
    Runs (.colResultWriteAck i) s fun t =>
      t = colRun { s with mem := s.mem.store (windowAddr s.dev x.job.rwin off) data,
                          dev := s.dev.setPart (x.setChunk q { x.chunk q with wrote := 2 }) } i.toNat ∧ othersKept s t i.toNat := by
  have hpan : s.dev.panReads data.length = (true, s.dev) := by simp [Dev.panReads, Dev.panRead, harmed]
  have hwaits := gdWaits_sound hsound
  have hwrite := gdWrite_sound hsound hne
  subst hoff
  refine ⟨_, ?_, rfl, colRun_setPart_othersKept (x := x.setChunk ..) (partAt_entry (x := x) hx) rfl⟩
  show execColResultWriteAck i s = _
  simp only [execColResultWriteAck, hx, hq, hdata, Option.getD_some, hwaits, Bool.false_eq_true, if_false, hpan, not_true,
    hwin, ne_eq, hwrite]
  rfl

/-- A command that raises an event of the engine and aborts a participation with TIMEOUT (R281, R282). -/
theorem colTimeout_runs {c : Instr} {x : ColPart} {n m : Nat} {s : State}
    (h : exec c s = done (colAbort (s.onDev fun d => d.raise 0x030 n) x TIMEOUT m none)) :
    Runs c s fun t => t.dev.col.parts = s.dev.col.parts.filter (fun y => y.entry != x.entry) ∧
      optEntry t.dev x.entry = OptEntry.free ∧ t.dev.rd Reg.COL_LAST_ABORT = TIMEOUT * 2 ^ 24 + x.job.group * 2 ^ 12 := by
  have hends := colAbort_ends (s.onDev fun d => d.raise 0x030 n) x m none (st := TIMEOUT) (by decide) (by decide) (by decide)
  rw [State.onDev_dev, Dev.raise_col] at hends
  exact ⟨_, h, hends⟩

theorem execColJoinTimeout_aborts {i : BitVec 12} {x : ColPart} {s : State} (hx : partAt s.dev i.toNat = some x) (hgo : x.go = false) :
    ∃ m, execColJoinTimeout i s = done (colAbort (s.onDev fun d => d.raise 0x030 5) x TIMEOUT m none) := by
  simp only [execColJoinTimeout, hx, hgo, Bool.false_eq_true, if_false]
  exact ⟨_, rfl⟩

theorem colJoinTimeout_runs {i : BitVec 12} {x : ColPart} {s : State} (hx : partAt s.dev i.toNat = some x) (hgo : x.go = false) :
    Runs (.colJoinTimeout i) s fun t => t.dev.col.parts = s.dev.col.parts.filter (fun y => y.entry != x.entry) ∧
      optEntry t.dev x.entry = OptEntry.free ∧ t.dev.rd Reg.COL_LAST_ABORT = TIMEOUT * 2 ^ 24 + x.job.group * 2 ^ 12 := by
  obtain ⟨m, hexec⟩ := execColJoinTimeout_aborts hx hgo
  exact colTimeout_runs hexec

theorem colProgressTimeout_runs {i : BitVec 12} {x : ColPart} {m : Nat} {s : State} (hx : partAt s.dev i.toNat = some x)
    (hgo : x.go = true) (hm : (if (optEntry s.dev i.toNat).bad then some (grp s.dev x.job.group).self
      else x.chunks.findSome? fun e => x.awaited (grp s.dev x.job.group) e.1) = some m) :
    Runs (.colProgressTimeout i) s fun t => t.dev.col.parts = s.dev.col.parts.filter (fun y => y.entry != x.entry) ∧
      optEntry t.dev x.entry = OptEntry.free ∧ t.dev.rd Reg.COL_LAST_ABORT = TIMEOUT * 2 ^ 24 + x.job.group * 2 ^ 12 :=
  colTimeout_runs (n := 6) (m := m) (by
    show execColProgressTimeout i s = _
    simp only [execColProgressTimeout, hx, hgo, if_true, hm])

/-- An acknowledged write leaves the collective engine as it is. -/
theorem Dev.arrAck_ok_col (d : Dev) (n : Nat) : (d.arrAck n OK).col = d.col := by
  unfold Dev.arrAck
  split
  · rfl
  · split <;> rfl

/-- A block of the array goes to the participation, whose chunks take what is whole (R286, R287). -/
theorem arrayHandover_runs {e : ArrExec} {w : ArrOut} {rs : List (Nat × List Nat)} {x y : ColPart} {s : State}
    (hexec : s.dev.arr.exec = some e)
    (hfind : e.unacked.find? (fun w => match w.what with | .collective _ => true | _ => false) = some w)
    (hwhat : w.what = .collective rs) (hx : (liveEntry s.dev (bits (dw e.op.words 9) 15 0)).bind (partAt s.dev) = some x)
    (hscaled : e.op.d.oscaled = false)
    (hels : (runElems rs).any (fun p => decide (x.arrayElems (grp s.dev x.job.group) ≤ p.1)) = false)
    (hy : y = { x with
      asm := (runElems rs).foldl (fun m (p : Nat × Nat) => SMap.put (fun _ => 0) m p.1 (p.2 + 1)) x.asm
      handed := x.handed + ((runElems rs).filter (fun p => SMap.get (fun _ => 0) x.asm p.1 == 0)).length }) :
    Runs .arrayHandover s fun t =>
      t = colRun (s.onDev fun d => (d.setPart
        (y.assemble (grp s.dev x.job.group) (upFrom 0 (y.total (grp s.dev x.job.group))))).arrAck w.n OK) x.entry ∧
        othersKept s t x.entry := by
  have hentry : (y.assemble (grp s.dev x.job.group) (upFrom 0 (y.total (grp s.dev x.job.group)))).entry = x.entry := by
    rw [ColPart.assemble_entry, hy]
  refine ⟨_, ?_, rfl, colRun_setPart_othersKept hentry (by rw [State.onDev_dev, Dev.arrAck_ok_col])⟩
  show execArrayHandover s = _
  rw [← hentry]
  subst hy
  simp only [execArrayHandover, hexec]
  split
  next hnone => exact absurd (hfind.symm.trans hnone) (Option.some_ne_none w)
  next w' hsome =>
    obtain rfl : w = w' := Option.some.inj (hfind.symm.trans hsome)
    simp only [hwhat, hx, hscaled, hels, Bool.false_eq_true, or_self, if_false]
    rfl

/-- The state in which a notice has left the array (R127). -/
def State.noticeTaken (s : State) (opid st : Nat) (rest : List (Nat × Nat)) : State :=
  s.onDev fun d => ({ d with arr := { d.arr with notices := rest } } : Dev).send (.abandon opid st)

theorem execAbandonmentNotice_aborts {opid st : Nat} {rest : List (Nat × Nat)} {x : ColPart} {s : State}
    (hnotices : s.dev.arr.notices = (opid, st) :: rest) (hx : (liveEntry s.dev opid).bind (partAt s.dev) = some x) :
    execAbandonmentNotice s = done (colAbort (s.noticeTaken opid st rest) x st (grp s.dev x.job.group).self none) := by
  simp only [execAbandonmentNotice, hnotices]
  split
  next y hsome =>
    obtain rfl : x = y := Option.some.inj (hx.symm.trans hsome)
    rfl
  next hnone => exact absurd (hx.symm.trans hnone) (Option.some_ne_none x)

theorem abandonmentNotice_runs {opid st : Nat} {rest : List (Nat × Nat)} {x : ColPart} {s : State}
    (hnotices : s.dev.arr.notices = (opid, st) :: rest) (hx : (liveEntry s.dev opid).bind (partAt s.dev) = some x) (hok : st ≠ OK)
    (hmis : st ≠ MISMATCH) (hst : st < 256) :
    Runs .abandonmentNotice s fun t => t.dev.arr.notices = rest ∧
      t.dev.col.parts = s.dev.col.parts.filter (fun y => y.entry != x.entry) ∧
      t.dev.rd Reg.COL_LAST_ABORT = st * 2 ^ 24 + x.job.group * 2 ^ 12 := by
  obtain ⟨hparts, -, hlast⟩ :=
    colAbort_ends (s.noticeTaken opid st rest) x (grp s.dev x.job.group).self none hok hmis hst
  exact ⟨_, execAbandonmentNotice_aborts hnotices hx, by rw [colAbort_arr]; rfl, hparts, hlast⟩

/-- Settles O14, event by event. Which chunk an input read or a result write belongs to is the model's choice (log entry 57). -/
theorem collectiveEventsRun : Obligations.CollectiveEventsRun := by
  unfold Obligations.CollectiveEventsRun
  refine ⟨?_, ?_, ?_, ?_, ?_, ?_, ?_⟩
  · rintro i x s ⟨hx, hopened, hanswered, hroot⟩
    exact colOpenResend_runs hx hopened hanswered hroot
  · rintro i x q a n s ⟨hx, hmem, hbytes, hq, ha, hn, hsound⟩
    exact colInputReadDone_runs hx hmem hbytes hq ha hn hsound
  · rintro i x q off data s ⟨hx, hq, hdata, hne, hoff, harmed, hwin, hsound⟩
    exact colResultWriteAck_runs hx hq hdata hne hoff harmed hwin hsound
  · rintro i x s ⟨hx, hgo⟩
    exact colJoinTimeout_runs hx hgo
  · rintro i x m s ⟨hx, hgo, hm⟩
    exact colProgressTimeout_runs hx hgo hm
  · rintro e w rs x y s ⟨hexec, hfind, hwhat, hx, hscaled, hels, hy⟩
    exact arrayHandover_runs hexec hfind hwhat hx hscaled hels hy
  · rintro opid st rest x s ⟨hnotices, hx, hok, hmis, -, hst⟩
    exact abandonmentNotice_runs hnotices hx hok hmis hst

end Sys2Proof.Machine
end

section
/-! PROOFS. The statement of 04_array_operations about stores: an abort stores outside the ranges that the statement names. -/

namespace Sys2Proof.Machine

/-! ## The result range of an abort -/

/-- Where a participation's result lies, and how long it is. -/
def ColPart.resultAt (x : ColPart) (d : Dev) : Nat := windowAddr d x.job.rwin x.job.roff
def ColPart.resultLen (x : ColPart) (d : Dev) : Nat :=
  x.job.outElems (grp d x.job.group).count (grp d x.job.group).self * colBits x.job.ty / 8

/-- A participation whose window lets it write its result, to a range of GDDR7. -/
def ColPart.writable (x : ColPart) (d : Dev) : Prop :=
  windowCheck d x.job.rwin (colUser d).tenant (colUser d).system 117 x.job.roff (x.resultLen d) = OK ∧
    ¬ (x.resultLen d = 0 ∨ gdWing (x.resultAt d) (x.resultLen d) = none)

theorem ColPart.undefined_mem {x : ColPart} {s : State} (h : x.writable s.dev) :
    (x.undefined s).mem = s.mem.store (x.resultAt s.dev) ((upFrom 0 (x.resultLen s.dev)).map (freeByte s.dev.free)) := by
  obtain ⟨hcheck, hrange⟩ := h
  exact congrArg State.mem ((if_pos hcheck).trans (if_neg hrange))

/-- What the ABORTs of a participation change: the packets that it offers, and how many it has sent. -/
theorem Adv.aborts_offers (a : Adv) (g : Grp) (st cause : Nat) (ms : List Nat) :
    ∃ ps n, a.aborts g st cause ms =
      { a with d := { a.d with rtr := { a.d.rtr with offers := ps } }, x := { a.x with seq := n } } := by
  induction ms generalizing a with
  | nil => exact ⟨_, _, rfl⟩
  | cons m ms ih =>
    obtain ⟨ps, n, h⟩ := ih (a.control g m 3 0 (a.x.job.treeLo g) 0 0 (st * 2 ^ 24 + cause % 2 ^ 15) 0 [])
    exact ⟨ps, n, h⟩

theorem upFrom_getElem {a n i : Nat} (h : i < (upFrom a n).length) : (upFrom a n)[i] = a + i := by
  induction n generalizing a i with
  | zero => simp [upFrom] at h
  | succ n ih =>
    cases i with
    | zero => rfl
    | succ i =>
      rw [upFrom_length] at h
      simp only [upFrom, List.getElem_cons_succ]
      rw [ih (by rw [upFrom_length]; omega)]
      omega

/-- An abort leaves free bytes in its result range, outside words 14 and 15 of the descriptor (R263, R282). -/
theorem colAbort_byte {s : State} {x : ColPart} {st : Nat} (cause : Nat) (from_ : Option Nat) (hok : st ≠ OK) (hmis : st ≠ MISMATCH)
    (hdetail : x.detail = none) (h : x.writable s.dev) {i : Nat} (hi : i < x.resultLen s.dev)
    (hk : x.resultAt s.dev + i < x.job.addr + 56 ∨ x.job.addr + 64 ≤ x.resultAt s.dev + i) :
    (colAbort s x st cause from_).mem.byte (x.resultAt s.dev + i) = freeByte s.dev.free i := by
  have hstore : (s.mem.store (x.resultAt s.dev) ((upFrom 0 (x.resultLen s.dev)).map (freeByte s.dev.free))).byte
      (x.resultAt s.dev + i) = freeByte s.dev.free i := by
    refine (gdStore_in _ _ _ i (by rwa [List.length_map, upFrom_length])).trans ?_
    rw [List.getElem_map, upFrom_getElem, Nat.zero_add]
  have hfinish : ∀ (offers held : List Packet) (n : Nat),
      (colFinish { s with dev := { s.dev with rtr := { s.dev.rtr with offers, held } } } { x with seq := n } st (some cause)).mem.byte
        (x.resultAt s.dev + i) = freeByte s.dev.free i := fun offers held n => by
    unfold colFinish
    dsimp only [State.onDev_mem]
    rw [colEndDesc_byte _ _ _ _ _ _ (by exact hk), if_neg (by simp [hok, hmis, hdetail]), ColPart.undefined_mem (by exact h)]
    exact hstore
  unfold colAbort
  extract_lets g mine _ _ d a
  have ha : ∃ ps n, a = { d := { d with rtr := { d.rtr with offers := ps } }, x := { x with seq := n }, stop := none } := by
    unfold a
    split
    · exact ⟨_, _, rfl⟩
    · exact Adv.aborts_offers ..
  obtain ⟨ps, n, ha⟩ := ha
  rw [ha]
  exact hfinish ..

/-! ## A module whose collective does not start in time -/

/-- An ALL_REDUCE of four FP32 values that no member has joined: its descriptor at 0x400008000, its result at the start of window 3. -/
def joinPart : ColPart :=
  ⟨⟨[0x10002000, 4, 0, 0x00300004, 0x1000, 4], 0x400008000⟩, 0, none, 0, 4, 4, [], none, false, false, 0, false, false, [], [], 0, 0,
    false, false⟩

/-- A module with its wing ports ACTIVE, in which that participation waits for its verdict: window 3 gives SYSTEM 4096 bytes from
0x400000000, where one byte stands. It differs from the first byte of free value 3, the next that the model uses. -/
def joinState : State where
  pending := []
  mem := (⟨[], []⟩ : Mem).store 0x400000000 [freeByte 3 0 + 1]
  dev := { (Dev.reset.wr Reg.HALL_WING_STATE 0x5555).wr Reg.COL_TENANT 0x200 with
    powered := ⟨true, true, 255, 65535⟩
    rtr := { Dev.reset.rtr with windows := [(3, 0x400000000 + 0x1000 * 2 ^ 64 + 7 * 2 ^ 117 + 2 ^ 116)] }
    opt := [(0, ⟨4, 0, 0, 1, 0, 0, 0, 1, 0, 0, 0, 0, false⟩)]
    col := { Dev.reset.col with parts := [joinPart], groups := [(0, ⟨true, true, 0, 0, 2, 1, 0, 0⟩)], pool := [(0, 5), (1, 6)] } }

theorem joinPart_writable : joinPart.writable (joinState.dev.raise 0x030 5) := by
  unfold ColPart.writable
  decide

theorem joinState_byte : joinState.mem.byte 0x400000000 = freeByte 3 0 + 1 := gdStore_in _ _ _ 0 (by decide)

/-- The timeout leaves a free byte at the start of the result. -/
theorem joinState_timeout : Runs (.colJoinTimeout 0) joinState fun t => t.mem.byte 0x400000000 = freeByte 3 0 := by
  obtain ⟨m, hexec⟩ := execColJoinTimeout_aborts (i := 0) (s := joinState) (x := joinPart) (by decide) rfl
  have hat : joinPart.resultAt (joinState.dev.raise 0x030 5) = 0x400000000 := by decide
  have hfree : (joinState.dev.raise 0x030 5).free = 3 := Dev.raise_free ..
  have hbyte := colAbort_byte (s := joinState.onDev fun d => d.raise 0x030 5) (i := 0) m none (st := TIMEOUT) (by decide) (by decide)
    rfl joinPart_writable (by decide) (by decide)
  rw [State.onDev_dev, hat, hfree] at hbyte
  exact ⟨_, hexec, hbyte⟩

/-- Refutes O59 in its clause about COL_JOIN_TIMEOUT: a participation that aborts leaves its whole result range undefined (R282), and
the ranges that the clause names, words 14 and 15 of the descriptors, do not hold it. -/
theorem not_storesStayInside : ¬ Obligations.StoresStayInside := by
  unfold Obligations.StoresStayInside
  rintro ⟨-, -, -, -, -, -, -, -, -, -, -, -, -, -, -, -, -, -, -, -, hjoin, -⟩
  obtain ⟨t, hexec, hbyte⟩ := joinState_timeout
  have hkept : t.mem.byte 0x400000000 = joinState.mem.byte 0x400000000 := hjoin 0 joinState t hexec 0x400000000 (by decide)
  rw [hbyte, joinState_byte] at hkept
  bv_omega

end Sys2Proof.Machine
end
